-- ==== Sys2Proof/Word.lean ====
section
/-! DEFINITION. The word types of the K96, the sparse map that holds every numbered item (registers, slots, cells)
and the type of a byte memory. Operations a test could show wrong stand in Machine/Mem.lean. -/

namespace Sys2Proof

/-- A 64-bit register value of the sequencer (R86). -/
abbrev Word := BitVec 64
/-- A 32-bit instruction word or lane (R62, R115). -/
abbrev W32 := BitVec 32
/-- One byte. -/
abbrev Byte := BitVec 8

/-- A sparse map from numbers to values: items that were never written are not listed. -/
abbrev SMap (α : Type) := List (Nat × α)

/-- The value at a number; an unlisted number holds the default. -/
def SMap.get {α : Type} (d : α) : SMap α → Nat → α
  | [], _ => d
  | (k, v) :: m, i => if k = i then v else SMap.get d m i

/-- Writes a value at a number, keeping the numbers rising. -/
def SMap.set {α : Type} : SMap α → Nat → α → SMap α
  | [], i, x => [(i, x)]
  | (k, v) :: m, i, x =>
    if k = i then (i, x) :: m
    else if i < k then (i, x) :: (k, v) :: m
    else (k, v) :: SMap.set m i x

/-- A byte memory: addresses strictly rising, and no entry equal to what an unlisted address reads as. -/
abbrev Mem := List Host.Cell

end Sys2Proof
end

