-- ==== Sys2Proof/Records.lean ====
section
/-! DEFINITION. The records that instructions and events carry and the state holds: tokens (R24), images (R81-R83),
partition settings (R343), host writes and start-up outcomes (R357). -/

namespace Sys2Proof

/-- A token (R24). The reserved head bits [15:12] are zero in every token (R24), so they are not held. -/
structure Token where
  kind    : BitVec 4 := 0
  level   : BitVec 3 := 0
  pl      : Bool := false
  zero    : Bool := false
  absent  : Bool := false
  gv      : Bool := false
  masked  : Bool := false
  lmask   : BitVec 16 := 0
  coord   : BitVec 32 := 0
  ref     : BitVec 64 := 0
  payload : BitVec 512 := 0
  deriving DecidableEq, Repr, Inhabited

/-- An actor slot as an image gives it (R33, R80). -/
structure ActorRec where
  entry : BitVec 12 := 0
  prio  : Bool := false
  take  : SMap Nat := []
  emit  : SMap Nat := []
  sinks : List Nat := []
  deriving DecidableEq, Repr, Inhabited

/-- An engine's operation word and constants as an image gives them (R78). -/
structure EngineRec where
  word : BitVec 32 := 0
  k    : SMap (BitVec 32) := []
  deriving DecidableEq, Repr, Inhabited

/-- A cell record of a variant (R82). `x`, `y` are the cell's place in the image's rectangle, in cells. -/
structure CellRec where
  x       : Nat := 0
  y       : Nat := 0
  code    : Mem := []
  priv    : Mem := []
  actors  : SMap ActorRec := []
  engines : SMap EngineRec := []
  words   : List (BitVec 16) := []
  epIn    : SMap (BitVec 8) := []
  epBin   : SMap (BitVec 8) := []
  epOut   : SMap (BitVec 10) := []
  stab    : SMap (BitVec 256) := []
  depths  : SMap Nat := []
  deriving DecidableEq, Repr, Inhabited

/-- An entry of the buffer-sufficiency table (R83): variant, count of channels in the cycle, least total depth in tiles, and
the queues of its channels as (cell place y * 96 + x in the rectangle, queue number). -/
structure CycleEntry where
  variant : Nat := 0
  count   : Nat := 0
  need    : Nat := 0
  queues  : List (Nat × Nat) := []
  deriving DecidableEq, Repr, Inhabited

/-- A channel of the scope map (R83): its producer as cell place y * 96 + x and output endpoint, or 0x80 + 3 * port + vc for an
ingress; the subgraph scope at each end; and the ABUT node it passes, if any, as cell place and store position. -/
structure ScopeEntry where
  channel   : Nat × Nat := (0, 0)
  scopeFrom : Nat := 0
  scopeTo   : Nat := 0
  abut      : Option (Nat × Nat) := none
  deriving DecidableEq, Repr, Inhabited

/-- A boundary binding (R276): cell place in the rectangle, port 0-3 and VC. -/
structure Binding where
  x    : Nat := 0
  y    : Nat := 0
  port : Nat := 0
  vc   : Nat := 0
  deriving DecidableEq, Repr, Inhabited

/-- A sink of the scope map (R30): cell place in the rectangle and the unit (0-15 element, 18 level writer,
19 memory sequencer, 32 + 4 * slot + port an actor port, 64 + binding an egress). -/
structure SinkRec where
  x    : Nat := 0
  y    : Nat := 0
  unit : Nat := 0
  deriving DecidableEq, Repr, Inhabited

/-- A variant: one defect mask per bay in row-major order, its cell records (R82), and its own scope map (R80, R83): channels,
subgraph rectangles (x, y, w, h), sinks. -/
structure Variant where
  masks  : List (BitVec 64) := []
  cells  : List CellRec := []
  scopes : List ScopeEntry := []
  rects  : List (Nat × Nat × Nat × Nat) := []
  sinks  : List SinkRec := []
  deriving DecidableEq, Repr, Inhabited

/-- A configuration image (R81-R84). The header, the section table and the signature are read from the image's bytes;
the byte layout of the other sections is not given by spec/ (DESIGN CHOICE, log 8). `rsvZero`: the reserved fields are
zero; `tableOk`: every section lies in the image; `bytes`: those before the signature section, the signed message. -/
structure Image where
  magic    : BitVec 32 := 0x4E4B4249
  version  : BitVec 16 := 1
  flags    : BitVec 16 := 0
  id       : BitVec 64 := 0
  width    : Nat := 1
  height   : Nat := 1
  nvar     : Nat := 1
  nsect    : Nat := 3
  sections : List Nat := [1, 2, 3]
  rsvZero  : Bool := true
  tableOk  : Bool := true
  total    : Nat := 0
  variants : List Variant := []
  cycles   : List CycleEntry := []
  ingress  : List Binding := []
  egress   : List Binding := []
  stencils : List (Int × Int) := []
  sig      : BitVec 512 := 0
  keyIdx   : Nat := 0
  bytes    : List Byte := []
  deriving DecidableEq, Repr, Inhabited

/-- What PF 0 supplies at a partition's load (R343, R259, R308, R322, R358). -/
structure PartCfg where
  bays      : List Nat := []
  banks     : BitVec 16 := 0
  keys      : SMap (BitVec 256) := []
  require   : Bool := false
  ttbase    : BitVec 39 := 0
  tableBase : Nat := 0
  tableLen  : Nat := 0
  ertBase   : BitVec 39 := 0
  ertN      : Nat := 0
  slotF     : Nat := 0
  slotSz    : Nat := 1
  nslot     : Nat := 0
  slotT     : Nat := 0
  spillBase : BitVec 39 := 0
  spillSize : BitVec 32 := 0
  yieldRoom : Nat := 0
  dumpRoom  : Nat := 0
  storeRoom : Nat := 0
  traceRoom : Nat := 0
  frames    : List (Nat × Nat) := []
  wdlim     : BitVec 32 := 10000000
  qdef      : BitVec 32 := 2000
  deriving DecidableEq, Repr, Inhabited

/-- A system-software or host register with no row of its own in the table (REGISTER_WRITE). The last three stand for what other
packages' system software and the switch planes tell of themselves (R269, R355): a frame exported to this package, a package of
the domain, and a package that a port's plane reaches. -/
inductive HostReg where
  | qdef | wdlim | fmode | ringBase | ringSize | apFrame | traceEnable
  | hbmCe (stack : Nat) | hbmPb (stack : Nat) | linkRt (port : Nat)
  | watch (idx : Nat) (va : BitVec 64) (vector : Nat) (v : Bool)
  | emb (idx : Nat) (w0 w1 : BitVec 64)
  | ertWord (xid word : Nat)
  | egLen (adit : Nat) | egDone (adit : Nat) | aditStatus (adit : Nat)
  | exportFrame (frame pkg : Nat) (on : Bool)
  | fenceGraph (lid : Nat)
  | remoteExport (frame pkg : Nat) (on : Bool) | planeMember (pkg : Nat) (on : Bool) | planeReach (port pkg : Nat) (on : Bool)
  | bar0 (off : Nat) | bar2 (off : Nat)
  deriving DecidableEq, Repr, Inhabited

/-- What start-up finds (R357): the outcome of each step that can fail, and the decoded ranges of the lode ports by port, first
address and length (R351). -/
structure BootFacts where
  fwOk        : Bool := true
  fuseOk      : Bool := true
  masks       : SMap (BitVec 64) := []
  failedStacks : List Nat := []
  lodeUp      : BitVec 4 := 0xF
  lodeRanges  : List (Nat × Nat × Nat) := (List.range 4).map fun k => (k, 0, 2 ^ 48)
  linkUp      : BitVec 18 := 0
  deriving DecidableEq, Repr, Inhabited

/-- A flit of the Malyan link (R353): head fields and 120 bytes of body. -/
structure Flit where
  dst  : BitVec 10 := 0
  src  : BitVec 10 := 0
  type : BitVec 4 := 0
  seq  : BitVec 8 := 0
  lcrc : BitVec 32 := 0
  body : BitVec 960 := 0
  deriving DecidableEq, Repr, Inhabited

/-- The kind of a memory access (R270). -/
inductive AccKind where
  | read | write | atomic | gather
  deriving DecidableEq, Repr, Inhabited

/-- Where an access from another package goes (R269): a frame of this package, or a row of a tensor of one of its partitions. -/
inductive RemotePlace where
  | frame (f : Nat)
  | row (part tensor row : Nat)
  deriving DecidableEq, Repr, Inhabited

/-- A payload block of a checked copy at its home (R398): the issuer's chain, its assay (R179), whether the block is the chain's
first, the running value sent with it after a halt-swap, and EXPECT with the chain's last block. -/
structure RemoteBlock where
  chain  : Nat := 0
  assay  : BitVec 2 := 0
  first  : Bool := false
  resume : Option (BitVec 32) := none
  last   : Option (BitVec 32) := none
  deriving DecidableEq, Repr, Inhabited

/-- What an access from another package is: one of R270's kinds, or a payload block. -/
inductive RemoteKind where
  | acc (k : AccKind)
  | block (b : RemoteBlock)
  deriving DecidableEq, Repr, Inhabited

/-- Why the clock changes (R361): a die's temperature passed its limit, module power reached a value, or both fell back, power to
a value. -/
inductive DvfsCause where
  | heat (die : Nat)
  | power (watts : Nat)
  | fall (watts : Nat)
  deriving DecidableEq, Repr, Inhabited

end Sys2Proof
end

