-- ==== Sys2Proof/Syntax.lean ====
section
/-! DEFINITION. The steps of the K96: one constructor for each row of spec/opcode_table.json. The first 118 are control
words (R66), the next 58 operation words (R70), the next 8 switch words (R72); the rest are the events of the table,
which have no encoding and carry as operands the unit they happen at and the data the outside world brings. A field's
width is its width in the encoding. The words ACCN, MSCALE, TAP and CLRR have no row: spec/95_what_each_step_holds.md
holds them inside other steps, and Decode.lean reads them as OpWord and SwWord. -/

namespace Sys2Proof

/-- A step of the package: an instruction of one of the three word classes (R62), or an event. -/
inductive Instr where
  /-- Issuing a control word whose OP is 0 traps ILLOP, so a cleared code store traps on its first issue (R65). -/
  | ill (r : BitVec 25)
  /-- Does nothing; bits [24:0] must be zero (R95). -/
  | nop
  /-- g[d] := g[a] + g[b] modulo 2^64 (R95). -/
  | addReg (d : BitVec 5) (a : BitVec 5) (b : BitVec 5)
  /-- g[d] := g[a] + sext(imm15, 15) (R95). -/
  | addImm (d : BitVec 5) (a : BitVec 5) (i : BitVec 15)
  /-- g[d] := g[a] - g[b] (R95). -/
  | sub (d : BitVec 5) (a : BitVec 5) (b : BitVec 5)
  /-- g[d] := low 64 bits of g[a] × g[b] (R95). -/
  | mulLo (d : BitVec 5) (a : BitVec 5) (b : BitVec 5)
  /-- g[d] := high 64 bits of the signed 128-bit product (R95). -/
  | mulHs (d : BitVec 5) (a : BitVec 5) (b : BitVec 5)
  /-- g[d] := high 64 bits of the unsigned 128-bit product (R95). -/
  | mulHu (d : BitVec 5) (a : BitVec 5) (b : BitVec 5)
  /-- Signed quotient truncated towards zero; divide by zero gives all ones, with no trap (R95). -/
  | divS (d : BitVec 5) (a : BitVec 5) (b : BitVec 5)
  /-- Unsigned quotient under R48 (R95). -/
  | divU (d : BitVec 5) (a : BitVec 5) (b : BitVec 5)
  /-- Signed remainder, taking the sign of the dividend, under R48 (R95). -/
  | remS (d : BitVec 5) (a : BitVec 5) (b : BitVec 5)
  /-- Unsigned remainder under R48 (R95). -/
  | remU (d : BitVec 5) (a : BitVec 5) (b : BitVec 5)
  /-- Bitwise AND of two registers (R95). -/
  | andReg (d : BitVec 5) (a : BitVec 5) (b : BitVec 5)
  /-- Bitwise AND with sext(imm15, 15) (R95). -/
  | andImm (d : BitVec 5) (a : BitVec 5) (i : BitVec 15)
  /-- Bitwise OR of two registers (R95). -/
  | orReg (d : BitVec 5) (a : BitVec 5) (b : BitVec 5)
  /-- Bitwise OR with sext(imm15, 15) (R95). -/
  | orImm (d : BitVec 5) (a : BitVec 5) (i : BitVec 15)
  /-- Bitwise XOR of two registers (R95). -/
  | xorReg (d : BitVec 5) (a : BitVec 5) (b : BitVec 5)
  /-- Bitwise XOR with sext(imm15, 15) (R95). -/
  | xorImm (d : BitVec 5) (a : BitVec 5) (i : BitVec 15)
  /-- Left shift by g[b][5:0] (R96). -/
  | shlR (d : BitVec 5) (a : BitVec 5) (b : BitVec 5)
  /-- Left shift by the count in aux (R96). -/
  | shlI (d : BitVec 5) (a : BitVec 5) (n : BitVec 6)
  /-- Logical right shift by g[b][5:0] (R96). -/
  | shrLr (d : BitVec 5) (a : BitVec 5) (b : BitVec 5)
  /-- Logical right shift by the count in aux (R96). -/
  | shrLi (d : BitVec 5) (a : BitVec 5) (n : BitVec 6)
  /-- Arithmetic right shift by g[b][5:0] (R96). -/
  | shrAr (d : BitVec 5) (a : BitVec 5) (b : BitVec 5)
  /-- Arithmetic right shift by the count in aux (R96). -/
  | shrAi (d : BitVec 5) (a : BitVec 5) (n : BitVec 6)
  /-- Signed minimum (R95). -/
  | minS (d : BitVec 5) (a : BitVec 5) (b : BitVec 5)
  /-- Unsigned minimum (R95). -/
  | minU (d : BitVec 5) (a : BitVec 5) (b : BitVec 5)
  /-- Signed maximum (R95). -/
  | maxS (d : BitVec 5) (a : BitVec 5) (b : BitVec 5)
  /-- Unsigned maximum (R95). -/
  | maxU (d : BitVec 5) (a : BitVec 5) (b : BitVec 5)
  /-- Predicate := g[a] == g[b] (R97). -/
  | cmpEq (p : BitVec 3) (a : BitVec 5) (b : BitVec 5)
  /-- Predicate := g[a] != g[b] (R97). -/
  | cmpNe (p : BitVec 3) (a : BitVec 5) (b : BitVec 5)
  /-- Predicate := signed g[a] < g[b] (R97). -/
  | cmpLt (p : BitVec 3) (a : BitVec 5) (b : BitVec 5)
  /-- Predicate := signed g[a] <= g[b] (R97). -/
  | cmpLe (p : BitVec 3) (a : BitVec 5) (b : BitVec 5)
  /-- Predicate := unsigned g[a] < g[b] (R97). -/
  | cmpLtu (p : BitVec 3) (a : BitVec 5) (b : BitVec 5)
  /-- Predicate := unsigned g[a] <= g[b] (R97). -/
  | cmpLeu (p : BitVec 3) (a : BitVec 5) (b : BitVec 5)
  /-- g[d] := g[a] if the possibly negated predicate is true, otherwise g[b] (R98). -/
  | sel (d : BitVec 5) (a : BitVec 5) (b : BitVec 5) (n : BitVec 1) (p : BitVec 3)
  /-- g[d] := sext(imm20, 20) << 12 (R99). -/
  | ldi (d : BitVec 5) (i : BitVec 20)
  /-- Counts the leading zero bits of g[a] (R100). -/
  | bitcClz (d : BitVec 5) (a : BitVec 5)
  /-- Counts the trailing zero bits of g[a] (R100). -/
  | bitcCtz (d : BitVec 5) (a : BitVec 5)
  /-- Counts the 1 bits of g[a] (R100). -/
  | bitcPopc (d : BitVec 5) (a : BitVec 5)
  /-- Extracts a bit field of g[a], zero-extended; lsb + width > 64 traps ILLOP (R99). -/
  | extr (d : BitVec 5) (a : BitVec 5) (lsb : BitVec 6) (wid : BitVec 6)
  /-- Inserts the low bits of g[a] into a field of g[d] (R99). -/
  | insr (d : BitVec 5) (a : BitVec 5) (lsb : BitVec 6) (wid : BitVec 6)
  /-- g[d] := g[a] + (g[b], or its sign-extended low word, << s) (R99). -/
  | ixa (d : BitVec 5) (a : BitVec 5) (b : BitVec 5) (w : BitVec 1) (sh : BitVec 3)
  /-- Predicate AND (R98). -/
  | plogAnd (d : BitVec 3) (a : BitVec 3) (b : BitVec 3)
  /-- Predicate OR (R98). -/
  | plogOr (d : BitVec 3) (a : BitVec 3) (b : BitVec 3)
  /-- Predicate XOR (R98). -/
  | plogXor (d : BitVec 3) (a : BitVec 3) (b : BitVec 3)
  /-- Predicate p[a] AND NOT p[b] (R98). -/
  | plogAndn (d : BitVec 3) (a : BitVec 3) (b : BitVec 3)
  /-- g[d] := hash_lane(g[a][31:0]) (R100). -/
  | hashsLane (d : BitVec 5) (a : BitVec 5)
  /-- g[d] := hash_crc(g[a], g[b]) over the low words (R100). -/
  | hashsCrc (d : BitVec 5) (a : BitVec 5) (b : BitVec 5)
  /-- g[d] := hash_fold(g[a][31:0]) (R100). -/
  | hashsFold (d : BitVec 5) (a : BitVec 5)
  /-- Branches to the target if the possibly negated predicate is true (R102). -/
  | br (p : BitVec 3) (neg : BitVec 1) (off : BitVec 21)
  /-- Jumps to a PC-relative target (R102). -/
  | jmp (off : BitVec 25)
  /-- lk := return address; jumps to a PC-relative target (R102). -/
  | jal (off : BitVec 25)
  /-- Jumps to g[a], or to lk when a is 0; traps ILLOP or MISALIGN on a bad target (R102). -/
  | jr (a : BitVec 5)
  /-- A clause header: copies the count and activates LOOPST, or skips the body when the count is zero (R104). -/
  | loopH (a : BitVec 5) (len : BitVec 6)
  /-- Ends the firing once earlier emits are queued; in trap mode it aborts the firing (R103). -/
  | fend
  /-- Loads a byte, sign-extended (R168). -/
  | ldB (d : BitVec 5) (b : BitVec 5) (off : BitVec 12)
  /-- Loads a byte, zero-extended (R168). -/
  | ldBu (d : BitVec 5) (b : BitVec 5) (off : BitVec 12)
  /-- Loads a halfword, sign-extended (R168). -/
  | ldH (d : BitVec 5) (b : BitVec 5) (off : BitVec 12)
  /-- Loads a halfword, zero-extended (R168). -/
  | ldHu (d : BitVec 5) (b : BitVec 5) (off : BitVec 12)
  /-- Loads a word, sign-extended (R168). -/
  | ldW (d : BitVec 5) (b : BitVec 5) (off : BitVec 12)
  /-- Loads a word, zero-extended (R168). -/
  | ldWu (d : BitVec 5) (b : BitVec 5) (off : BitVec 12)
  /-- Loads a doubleword (R168). -/
  | ldD (d : BitVec 5) (b : BitVec 5) (off : BitVec 12)
  /-- Stores a byte (R169). -/
  | stB (v : BitVec 5) (b : BitVec 5) (off : BitVec 12)
  /-- Stores a halfword (R169). -/
  | stH (v : BitVec 5) (b : BitVec 5) (off : BitVec 12)
  /-- Stores a word (R169). -/
  | stW (v : BitVec 5) (b : BitVec 5) (off : BitVec 12)
  /-- Stores a doubleword (R169). -/
  | stD (v : BitVec 5) (b : BitVec 5) (off : BitVec 12)
  /-- Atomic 32-bit add; returns the old value sign-extended (R172). -/
  | aaddW (d : BitVec 5) (a : BitVec 5) (b : BitVec 5)
  /-- Atomic 64-bit add; returns the old value (R172). -/
  | aaddD (d : BitVec 5) (a : BitVec 5) (b : BitVec 5)
  /-- Atomic signed minimum (R172). -/
  | aminS (d : BitVec 5) (a : BitVec 5) (b : BitVec 5)
  /-- Atomic unsigned minimum (R172). -/
  | aminU (d : BitVec 5) (a : BitVec 5) (b : BitVec 5)
  /-- Atomic signed maximum (R172). -/
  | amaxS (d : BitVec 5) (a : BitVec 5) (b : BitVec 5)
  /-- Atomic unsigned maximum (R172). -/
  | amaxU (d : BitVec 5) (a : BitVec 5) (b : BitVec 5)
  /-- Atomic AND (R172). -/
  | alogAnd (d : BitVec 5) (a : BitVec 5) (b : BitVec 5)
  /-- Atomic OR (R172). -/
  | alogOr (d : BitVec 5) (a : BitVec 5) (b : BitVec 5)
  /-- Atomic XOR (R172). -/
  | alogXor (d : BitVec 5) (a : BitVec 5) (b : BitVec 5)
  /-- Atomic exchange (R172). -/
  | axch (d : BitVec 5) (a : BitVec 5) (b : BitVec 5)
  /-- Atomic compare-and-swap against the comparand in g[d] (R172). -/
  | acas (d : BitVec 5) (a : BitVec 5) (b : BitVec 5)
  /-- Atomic F32 add, rounded RNE (R172). -/
  | afaddF32 (d : BitVec 5) (a : BitVec 5) (b : BitVec 5)
  /-- Atomic add on two BF16 halves (R172). -/
  | afaddBf16x2 (d : BitVec 5) (a : BitVec 5) (b : BitVec 5)
  /-- Waits for a token at a take port, returns part of it, optionally stores the payload, and removes the token (R218). -/
  | take (d : BitVec 5) (a : BitVec 5) (pay : BitVec 1) (part : BitVec 2) (port : BitVec 2)
  /-- Reads the token at a given depth of a take port without removing it (R218). -/
  | peek (d : BitVec 5) (a : BitVec 5) (depth : BitVec 3) (pay : BitVec 1) (part : BitVec 2) (port : BitVec 2)
  /-- Appends a DATA token with COORD and REF from registers to an emit port (R219). -/
  | emit (d : BitVec 5) (a : BitVec 5) (n : BitVec 2)
  /-- Appends a token with a full head and an optional payload to an emit port (R219). -/
  | emits (a : BitVec 5) (b : BitVec 5) (c : BitVec 5) (n : BitVec 2)
  /-- Checks a copy command, then queues it to the copy engine with its assay, chain, retry, queue, remote and weight-store options (R176). -/
  | copy (a : BitVec 5) (b : BitVec 5) (c : BitVec 5) (ws : BitVec 1) (remote : BitVec 1) (queue : BitVec 1) (retry : BitVec 3) (last : BitVec 1) (chain : BitVec 1) (assay : BitVec 2)
  /-- Queues a contiguous fill of a local tile; waits for an empty sized tile, then sets it FILLING (R185). -/
  | fillContiguous (a : BitVec 5) (b : BitVec 5) (tile : BitVec 6)
  /-- Queues a gather fill of indexed rows into a local tile (R186). -/
  | fillGather (a : BitVec 5) (b : BitVec 5) (c : BitVec 5) (tile : BitVec 6)
  /-- Binds a shadow window to a backing tensor, an index vector and a row size (R187). -/
  | wbind (a : BitVec 5) (b : BitVec 5) (c : BitVec 5) (row : BitVec 10)
  /-- Removes a shadow window's binding (R188). -/
  | wfree (a : BitVec 5)
  /-- Arms the sequencer's monitor on 8 bytes with a reference value (R189). -/
  | marm (v : BitVec 5) (b : BitVec 5) (off : BitVec 12)
  /-- Waits until the monitored bytes differ from the reference, returns them, disarms, and invalidates clean cache lines (R190). -/
  | mwait (d : BitVec 5)
  /-- Release fence on the SEQ class at a scope (R201). -/
  | fenceRel (scope : BitVec 3)
  /-- Acquire fence on the SEQ class at a scope (R201). -/
  | fenceAcq (scope : BitVec 3)
  /-- Full fence on the SEQ class at a scope (R201). -/
  | fenceFull (scope : BitVec 3)
  /-- Sends drain markers to the FROM-class engines in scope and refreshes the TO-class views (R203). -/
  | xfence (dst : BitVec 3) (frm : BitVec 3) (scope : BitVec 3)
  /-- Arrives at a subgroup barrier with a release fence, then waits for the generation to change (R327). -/
  | bar (a : BitVec 5) (b : BitVec 5) (scope : BitVec 3)
  /-- Sizes an empty tile at the lowest free base (R307). -/
  | tileClaim (d : BitVec 5) (a : BitVec 5) (b : BitVec 5)
  /-- Sets the format tag and MXM of a sized empty tile and makes it READY (R307). -/
  | tileReady (d : BitVec 5) (a : BitVec 5) (b : BitVec 5)
  /-- Moves a READY tile to DRAINING (R307). -/
  | tileDrain (d : BitVec 5) (a : BitVec 5)
  /-- Unsizes an empty tile (R307). -/
  | tileFree (d : BitVec 5) (a : BitVec 5)
  /-- Returns a tile table entry (R307). -/
  | tileQuery (d : BitVec 5) (a : BitVec 5)
  /-- Releases at partition scope, reads a launch record, checks it, and enqueues it once there is room (R279). -/
  | launch (d : BitVec 5) (a : BitVec 5)
  /-- Enqueues a launch whose tasks come from ragged tile records (R279). -/
  | rlaunch (d : BitVec 5) (a : BitVec 5) (b : BitVec 5)
  /-- Appends a region record to the running task and takes its leases (R305). -/
  | regionAdd (d : BitVec 5) (a : BitVec 5)
  /-- Shrinks or removes a read region record (R305). -/
  | regionShrink (a : BitVec 5) (b : BitVec 5)
  /-- Returns a word of a task region record (R305). -/
  | regionQuery (d : BitVec 5) (a : BitVec 5) (w : BitVec 2)
  /-- Starts an expert's fetch if it is absent, or requests one if it is evicting (R316). -/
  | xpref (d : BitVec 5) (a : BitVec 5)
  /-- Raises an expert's pin count and fetches it if absent (R316). -/
  | xpinPin (d : BitVec 5) (a : BitVec 5)
  /-- Lowers an expert's pin count (R316). -/
  | xpinUnpin (d : BitVec 5) (a : BitVec 5)
  /-- Starts eviction of a resident expert that is not pinned, leased or awaited (R316). -/
  | xevict (d : BitVec 5) (a : BitVec 5)
  /-- Returns a word of an expert residency table entry (R316). -/
  | xlook (d : BitVec 5) (a : BitVec 5) (w : BitVec 2)
  /-- Reads a counter, optionally indexed (R324). -/
  | cntr (d : BitVec 5) (a : BitVec 5) (n : BitVec 7)
  /-- Writes a program-writable counter (R324). -/
  | cntw (d : BitVec 5) (a : BitVec 5) (n : BitVec 7)
  /-- Writes memory-sequencer state entries and optionally starts a state (R289). -/
  | stab (a : BitVec 5) (b : BitVec 5)
  /-- Reads a system register (R90). -/
  | srr (d : BitVec 5) (sel : BitVec 15)
  /-- Writes the P fields of a system register, or traps PRIV when every field is S (R90). -/
  | srw (a : BitVec 5) (sel : BitVec 15)
  /-- Traps TRAPI with the immediate as value (R111). -/
  | trapI (i : BitVec 20)
  /-- Returns from trap mode, restoring LOOPST and resuming at TRAPPC (R110). -/
  | tret
  /-- Traps BRKPT when MODE.BE is 1, otherwise executes as NOP (R111). -/
  | brk (i : BitVec 20)
  /-- Element firing: lane-wise add (R119). -/
  | vadd (ty : BitVec 3) (rm : BitVec 2) (sat : BitVec 1) (sh : BitVec 2) (da : BitVec 6) (db : BitVec 6)
  /-- Element firing: lane-wise subtract (R119). -/
  | vsub (ty : BitVec 3) (rm : BitVec 2) (sat : BitVec 1) (sh : BitVec 2) (da : BitVec 6) (db : BitVec 6)
  /-- Element firing: lane-wise multiply (R119). -/
  | vmul (ty : BitVec 3) (rm : BitVec 2) (sat : BitVec 1) (sh : BitVec 2) (da : BitVec 6) (db : BitVec 6)
  /-- Element firing: fused multiply-add, rounded once (R119). -/
  | vfma (ty : BitVec 3) (rm : BitVec 2) (sat : BitVec 1) (sh : BitVec 2) (da : BitVec 6) (db : BitVec 6)
  /-- Element firing: lane-wise minimum (R119). -/
  | vmin (ty : BitVec 3) (rm : BitVec 2) (sh : BitVec 2) (da : BitVec 6) (db : BitVec 6)
  /-- Element firing: lane-wise maximum (R119). -/
  | vmax (ty : BitVec 3) (rm : BitVec 2) (sh : BitVec 2) (da : BitVec 6) (db : BitVec 6)
  /-- Element firing: negation (R119). -/
  | vnegNeg (ty : BitVec 3) (rm : BitVec 2) (sat : BitVec 1) (sh : BitVec 2) (da : BitVec 6) (db : BitVec 6)
  /-- Element firing: absolute value (R119). -/
  | vnegAbs (ty : BitVec 3) (rm : BitVec 2) (sat : BitVec 1) (sh : BitVec 2) (da : BitVec 6) (db : BitVec 6)
  /-- Element firing: bitwise AND (R120). -/
  | vand (ty : BitVec 3) (sh : BitVec 2) (da : BitVec 6) (db : BitVec 6)
  /-- Element firing: bitwise OR (R120). -/
  | vor (ty : BitVec 3) (sh : BitVec 2) (da : BitVec 6) (db : BitVec 6)
  /-- Element firing: bitwise XOR (R120). -/
  | vxor (ty : BitVec 3) (sh : BitVec 2) (da : BitVec 6) (db : BitVec 6)
  /-- Element firing: lane-wise left shift (R120). -/
  | vshl (ty : BitVec 3) (sh : BitVec 2) (da : BitVec 6) (db : BitVec 6)
  /-- Element firing: lane-wise logical right shift (R120). -/
  | vshrL (ty : BitVec 3) (sh : BitVec 2) (da : BitVec 6) (db : BitVec 6)
  /-- Element firing: lane-wise arithmetic right shift (R120). -/
  | vshrA (ty : BitVec 3) (sh : BitVec 2) (da : BitVec 6) (db : BitVec 6)
  /-- Element firing: lane-wise equality mask (R121). -/
  | vcmpEq (ty : BitVec 3) (sh : BitVec 2) (da : BitVec 6) (db : BitVec 6)
  /-- Element firing: lane-wise inequality mask (R121). -/
  | vcmpNe (ty : BitVec 3) (sh : BitVec 2) (da : BitVec 6) (db : BitVec 6)
  /-- Element firing: lane-wise less-than mask (R121). -/
  | vcmpLt (ty : BitVec 3) (sh : BitVec 2) (da : BitVec 6) (db : BitVec 6)
  /-- Element firing: lane-wise less-or-equal mask (R121). -/
  | vcmpLe (ty : BitVec 3) (sh : BitVec 2) (da : BitVec 6) (db : BitVec 6)
  /-- Element firing: selects lanes of in1 or in2 by the mask in in0 (R121). -/
  | vsel (ty : BitVec 3) (sh : BitVec 2) (da : BitVec 6) (db : BitVec 6)
  /-- Element firing: converts lanes from the type in k0 to TY (R122). -/
  | vcvt (ty : BitVec 3) (rm : BitVec 2) (sat : BitVec 1) (sh : BitVec 2) (da : BitVec 6) (db : BitVec 6)
  /-- Element firing: correctly rounded reciprocal (R123). -/
  | vrcp (ty : BitVec 3) (rm : BitVec 2) (sat : BitVec 1) (sh : BitVec 2) (da : BitVec 6) (db : BitVec 6)
  /-- Element firing: correctly rounded reciprocal square root (R123). -/
  | vrsq (ty : BitVec 3) (rm : BitVec 2) (sat : BitVec 1) (sh : BitVec 2) (da : BitVec 6) (db : BitVec 6)
  /-- Element firing: correctly rounded 2^a (R123). -/
  | vexp2 (ty : BitVec 3) (rm : BitVec 2) (sat : BitVec 1) (sh : BitVec 2) (da : BitVec 6) (db : BitVec 6)
  /-- Element firing: correctly rounded log2 a (R123). -/
  | vlog2 (ty : BitVec 3) (rm : BitVec 2) (sat : BitVec 1) (sh : BitVec 2) (da : BitVec 6) (db : BitVec 6)
  /-- Element firing: sums the enabled lanes in ascending order (R124). -/
  | vsumAdd (ty : BitVec 3) (rm : BitVec 2) (sat : BitVec 1) (sh : BitVec 2) (da : BitVec 6) (db : BitVec 6)
  /-- Element firing: minimum over the enabled lanes (R124). -/
  | vsumMin (ty : BitVec 3) (rm : BitVec 2) (sh : BitVec 2) (da : BitVec 6) (db : BitVec 6)
  /-- Element firing: maximum over the enabled lanes (R124). -/
  | vsumMax (ty : BitVec 3) (rm : BitVec 2) (sh : BitVec 2) (da : BitVec 6) (db : BitVec 6)
  /-- Element firing: permutes the lanes of in0 by the bytes of in1 (R125). -/
  | vshuf (ty : BitVec 3) (sh : BitVec 2) (da : BitVec 6) (db : BitVec 6)
  /-- Element firing: emits constant k[FN] for each DATA token at in0 (R126). -/
  | vconst (ty : BitVec 3) (sh : BitVec 2) (ki : BitVec 3) (da : BitVec 6) (db : BitVec 6)
  /-- Element firing: copies the in0 token whole (R126). -/
  | vmov (ty : BitVec 3) (sh : BitVec 2) (da : BitVec 6) (db : BitVec 6)
  /-- Element firing: index of the first differing byte (R127). -/
  | vbcmp (sh : BitVec 2) (da : BitVec 6) (db : BitVec 6)
  /-- Element firing: bitmask of equal bytes (R127). -/
  | vbeqm (sh : BitVec 2) (da : BitVec 6) (db : BitVec 6)
  /-- Element firing: hash_lane of each lane (R128). -/
  | vhashLane (sh : BitVec 2) (da : BitVec 6) (db : BitVec 6)
  /-- Element firing: one CRC step per lane, with the running value from in1 (R128). -/
  | vhashCrc (sh : BitVec 2) (da : BitVec 6) (db : BitVec 6)
  /-- Element firing: hash_fold of each lane (R128). -/
  | vhashFold (sh : BitVec 2) (da : BitVec 6) (db : BitVec 6)
  /-- Element firing: loads at an indexed offset, or under a false guard emits an empty DATA without access (R131). -/
  | eld (ty : BitVec 3) (sh : BitVec 2) (gd : BitVec 1) (da : BitVec 6) (db : BitVec 6)
  /-- Element firing: guarded indexed store with an optional acknowledgement (R132). -/
  | est (ty : BitVec 3) (sh : BitVec 2) (da : BitVec 6) (db : BitVec 6)
  /-- Element firing: looks a key up in the tile hash table (R134). -/
  | hprobe (da : BitVec 6) (db : BitVec 6)
  /-- Element firing: guarded insert into the tile hash table; on overflow it raises the hash-overflow counter (R135). -/
  | hins (da : BitVec 6) (db : BitVec 6)
  /-- Element firing: turns each DATA token into a CFG token (R137). -/
  | ecfg (da : BitVec 6)
  /-- Dense level scanner answers the token at sc.i, emitting a fibre or STOPs (R241). -/
  | scanD (tv : BitVec 6) (vf : BitVec 2) (seek : BitVec 1)
  /-- Compressed level scanner answers the token at sc.i (R241). -/
  | scanC (ta : BitVec 6) (tb : BitVec 6) (tv : BitVec 6) (vf : BitVec 2) (seek : BitVec 1)
  /-- Bitmap level scanner answers the token at sc.i (R241). -/
  | scanB (ta : BitVec 6) (tb : BitVec 6) (tv : BitVec 6) (vf : BitVec 2) (seek : BitVec 1)
  /-- Merge step in intersect mode, with seeks and releases under R247 (R245). -/
  | isect (osel : BitVec 2) (pay : BitVec 2) (ska : BitVec 1) (skb : BitVec 1) (thr : BitVec 5)
  /-- Merge step in union mode (R245). -/
  | union (osel : BitVec 2) (pay : BitVec 2)
  /-- Repeater answers the driver head: loads, replays or closes the stored fibre (R250). -/
  | rept (newat : BitVec 3) (span : BitVec 1)
  /-- Reducer step: folds by sum and emits results at fibre or run ends (R253). -/
  | reduceSum (f32 : BitVec 1) (sat : BitVec 1) (vec : BitVec 1) (vsrc : BitVec 1) (grain : BitVec 1) (zeros : BitVec 1)
  /-- Reducer step: folds by minimum (R253). -/
  | reduceMin (f32 : BitVec 1) (vec : BitVec 1) (vsrc : BitVec 1) (grain : BitVec 1) (zeros : BitVec 1)
  /-- Reducer step: folds by maximum (R253). -/
  | reduceMax (f32 : BitVec 1) (vec : BitVec 1) (vsrc : BitVec 1) (grain : BitVec 1) (zeros : BitVec 1)
  /-- Reducer step: folds by bitwise OR (R253). -/
  | reduceOr (vec : BitVec 1) (vsrc : BitVec 1) (grain : BitVec 1) (zeros : BitVec 1)
  /-- Reducer step: keeps the K highest-ranked tokens and emits them in rank order at the fibre end (R254). -/
  | reduceTopk (f32 : BitVec 1) (vsrc : BitVec 1) (topk : BitVec 9)
  /-- Reducer step: weighted sum with an unrounded product (R252). -/
  | reduceWsum (f32 : BitVec 1) (sat : BitVec 1) (vec : BitVec 1) (vsrc : BitVec 1) (wsrc : BitVec 1) (grain : BitVec 1) (zeros : BitVec 1)
  /-- Level writer step for a dense level (R256). -/
  | lwriteD (tv : BitVec 6) (vw : BitVec 2)
  /-- Level writer step for a compressed level (R256). -/
  | lwriteC (ta : BitVec 6) (tb : BitVec 6) (tv : BitVec 6) (vw : BitVec 2)
  /-- Level writer step for a bitmap level (R256). -/
  | lwriteB (ta : BitVec 6) (tb : BitVec 6) (tv : BitVec 6) (vw : BitVec 2)
  /-- Takes a token at mx.w and starts loading a weight block into the shadow plane (R141). -/
  | mload (src : BitVec 1) (dir : BitVec 2) (tile : BitVec 6) (wfmt : BitVec 4) (mxm : BitVec 1)
  /-- Takes a token at mx.q; under TRIG 3 a DATA sets PEND (R142). -/
  | mswap (trig : BitVec 2)
  /-- Takes an activation token at mx.x and enters its rows into the array, swapping planes if pending (R144). -/
  | mstream (afmt : BitVec 4) (mxm : BitVec 1)
  /-- An empty switch-word store position (R222). -/
  | idle
  /-- Moves a data token from the source port to every masked port on its VC (R222). -/
  | route (src : BitVec 3) (mask : BitVec 8) (vc : BitVec 1)
  /-- Moves a back-channel token from the source port to the masked ports (R222). -/
  | routeB (src : BitVec 3) (mask : BitVec 8)
  /-- Routes the head data token to the true or false output by a control value (R224). -/
  | steer (dat : BitVec 3) (ctl : BitVec 3) (outT : BitVec 3) (outF : BitVec 3)
  /-- Joins two arms in the order of the control values (R225). -/
  | merge (ctl : BitVec 3) (inT : BitVec 3) (inF : BitVec 3) (out : BitVec 3)
  /-- Loop operator taking init and loop values by phase and control (R226). -/
  | carry (init : BitVec 3) (lp : BitVec 3) (ctl : BitVec 3) (out : BitVec 3)
  /-- Copies the head token to each branch as it has room (R223). -/
  | fork (inp : BitVec 3) (mask : BitVec 8)
  /-- Moves a token across a scope boundary after widening the release of R204 (R227). -/
  | abut (inp : BitVec 3) (out : BitVec 3) (scope : BitVec 3) (cls : BitVec 3)
  /-- A router sends a token over a link when the receiving buffer has a credit for its VC (R211). -/
  | linkTokenTransfer (cell port : Nat) (back : Bool)
  /-- A place freed at a receiver returns its credit to the sender after the link latency (R211). -/
  | creditReturn (cell port vc : Nat)
  /-- A router reads an invalid switch word at run time, raises a router fault, and the graph freezes (R74). -/
  | switchStoreSoftError (cell pos : Nat) (word : BitVec 16)
  /-- The endpoint map delivers a token to an endpoint, internally in one tick or through a local port (R214). -/
  | endpointDelivery (cell src : Nat)
  /-- A token enters a channel queue at qN.i (R212). -/
  | channelQueueArrival (cell q : Nat)
  /-- A queued token is offered at qN.o, 3 ticks after it entered an empty queue, and leaves when it is taken (R212). -/
  | channelQueueOffer (cell q : Nat)
  /-- An element's output stage delivers its oldest result when the destination accepts it (R118). -/
  | outputStageDelivery (cell e : Nat)
  /-- An element consumes matching control tokens in all used slots and emits one copy to each destination (R39). -/
  | elementControlFiring (cell e : Nat)
  /-- An engine consumes a CFG at port 0: it passes the token on, or installs the item (R41). -/
  | cfgFiring (cell e : Nat)
  /-- A free sequencer's scheduler chooses an eligible actor and enters it, setting ACTOR, g28, g30, g31 and LOOPST (R34). -/
  | actorFiringStart (cell : Nat)
  /-- The 65,536-tick firing budget runs out and the sequencer traps FIRING at the next boundary (R36). -/
  | firingBudgetExpiry (cell : Nat)
  /-- A SEQ access passes its checks or its data returns, letting the next instruction issue or a trap be taken (R167). -/
  | seqAccessResponse (cell : Nat) (corrected : Option Nat)
  /-- The cell halts at an instruction boundary for the headframe debugger (R113). -/
  | debugHalt (cell : Nat)
  /-- The headframe debug path writes MODE.SS or the code store (R89). -/
  | debugPathWrite (cell : Nat) (ss : Option Bool) (code : Option (Nat × BitVec 32))
  /-- A scanner takes a SEEK at scN.k: it gallops, drops the rest of the fibre, releases its window, or discards it (R243). -/
  | scannerSeekTaken (cell sc : Nat)
  /-- The 32nd weight row is written and the shadow plane becomes FULL (R143). -/
  | planeFull (cell : Nat)
  /-- An accumulator node adds the oldest column-FIFO entry and sets ADDED (R146). -/
  | nodeIntake (cell node : Nat)
  /-- An EOR is counted once every earlier row has reached its node (R147). -/
  | eorCounted (cell : Nat)
  /-- EOT or DONE at mx.x waits for earlier rows, releases if any row was added, then forwards the token (R148). -/
  | matrixEot (cell : Nat)
  /-- REFWIN reaches 2,000 × g and bank group g begins to refresh (R161). -/
  | refreshWindowOpen (grp : Nat)
  /-- Bank group g's refresh window closes and waiting accesses proceed (R161). -/
  | refreshWindowClose (grp : Nat)
  /-- HBM meets an uncorrectable error and marks the 256-byte block poisoned (R159). -/
  | hbmUncorrectableError (pa : Nat) (corrected : Option Nat)
  /-- The copy engine reaches a queued command, or a chain's first command, and starts it (R180). -/
  | copyCommandStart (cell : Nat)
  /-- The engine reads and writes one 256-byte payload block, stepping the assay (R178). -/
  | copyPayloadBlock (cell : Nat)
  /-- A weight-store copy starts once no placed graph of the partition holds an MLOAD in that column (R178). -/
  | weightStoreCopyStart (cell : Nat)
  /-- A chain pass ends: the assay is compared with EXPECT, and the engine reruns or settles the status (R180). -/
  | chainPassEnd (cell : Nat)
  /-- The home link agent acknowledges a remote payload block with the running assay value (R398). -/
  | remoteBlockAck (cell : Nat)
  /-- A fill writes its stamp and the tile becomes READY with the chunk's format tag (R185). -/
  | fillComplete (cell : Nat)
  /-- The fill engine packs or drops one indexed row (R186). -/
  | gatherFillRow (cell : Nat)
  /-- The monitored bytes differ from the reference, so MWAIT returns (R190). -/
  | monitorWake (cell : Nat)
  /-- Every engine has acknowledged its drain marker and the XFENCE completes (R203). -/
  | xfenceComplete (cell : Nat)
  /-- A WAITING task whose conditions hold is released and its SOT enters the graph (R296). -/
  | taskRelease (part lid x y : Nat)
  /-- The task's EOT reaches every sink, and the task becomes FINISHED and starts its drain (R31). -/
  | taskFinish (part lid x y : Nat)
  /-- An engine acknowledges the task's drain marker once its writes are performed (R298). -/
  | taskDrainAck (part lid x y cls : Nat)
  /-- One 256-byte unit of a task-edge action is done and CUR advances (R301). -/
  | flushUnit (part lid x y ri : Nat)
  /-- Task-edge actions complete; the task retires, releases its leases and frees its entry (R299). -/
  | taskRetire (part lid x y : Nat)
  /-- The completion word is written as an SO store, then the MSI-X vector is raised (R280). -/
  | launchCompletion (part lid : Nat)
  /-- An undeclared access by an engine aborts the task, suppresses its later accesses and writes a record (R295). -/
  | taskAbort (part lid x y : Nat) (va : BitVec 64)
  /-- A host writes one 128-byte token to an adit slot; it is queued, or discarded with BROKEN set (R347). -/
  | aditTokenWrite (part adit : Nat) (data : Option (BitVec 1024))
  /-- An opening token's record is checked and enqueued once its launch queue has room (R275). -/
  | aditLaunchEnqueue (part adit : Nat)
  /-- An SOT at the head of the adit queue releases its task, or its span is discarded (R409). -/
  | hostSpanEntry (part lid : Nat)
  /-- The stream's DONE enters the fabric, and tasks that no SOT named end ABORTED (R409). -/
  | hostStreamDone (part lid : Nat)
  /-- Tokens of an adit named in IN1–IN3 enter their ingress binding (R276). -/
  | aditIngressEntry (part lid binding : Nat)
  /-- A token reaching an egress binding is written to host memory, with EGDONE after each DONE (R348). -/
  | aditEgressWrite (part lid binding : Nat)
  /-- The die loader runs checks 1–6 on an image and marks it checked or refused (R85). -/
  | imageCheck (part : Nat) (id : BitVec 64)
  /-- The arbiter tries the checked heads in rank order and admits at most one (R281). -/
  | admissionPass (part : Nat)
  /-- A variant's cell records finish loading and the route header table is written (R284). -/
  | placementLoadComplete (part lid : Nat)
  /-- A placed graph's quantum expires and makes it eligible for a yield request (R285). -/
  | quantumExpiry (part lid : Nat)
  /-- At a span boundary with YREQ set, the graph's context is saved and its launch re-enters its queue (R330). -/
  | yieldGraph (part lid : Nat)
  /-- At a span boundary, the allocator moves a graph to a lower origin (R286). -/
  | compactionMove (part lid : Nat)
  /-- The memory sequencer tests C0 and C1 and enters the chosen state, applying its CLR (R288). -/
  | msTransition (cell : Nat)
  /-- A memory-sequencer action completes and INC is applied (R287). -/
  | msActionComplete (cell : Nat)
  /-- A DRAINING tile becomes EMPTY once the accesses begun while READY have completed (R306). -/
  | tileDrainComplete (cell tile : Nat)
  /-- A walk reads the descriptor and chunk entry and fills the caches (R264). The operand is the walker: its bay and its place
  among the bay's four. -/
  | translationWalkComplete (walker : Nat × Nat)
  /-- A held access, lease or REGION.ADD walks again 4,096 ticks later (R272). -/
  | ringRetry (cell port : Nat)
  /-- System software resumes a stopped port by naming CELL and PORT, and the port walks again (R271). -/
  | portResume (cell port : Nat)
  /-- The headframe's invalidation service removes matching translation entries in a partition (R267). -/
  | invalidationRequest (part tensor first count : Nat)
  /-- Unleased accesses using removed entries are done and the service reports completion (R267). -/
  | invalidationComplete (part : Nat)
  /-- A LINK access arrives at its home package, is export-checked, and is performed or refused (R269). -/
  | remoteAccessHome (srcPkg : Nat) (place : RemotePlace) (off : Nat) (kind : RemoteKind) (data : List Byte)
  /-- An expert fetch takes a slot, evicting one if needed, and starts reading from the lode tier (R310). -/
  | expertFetchStart (part : Nat)
  /-- SIZE frames are written; the expert becomes RESIDENT and its parked tokens are released (R310). -/
  | expertFetchComplete (part xid : Nat)
  /-- A lode read error frees the slot, writes a record and raises the fetch-error counter (R310). -/
  | expertFetchError (part xid : Nat)
  /-- A lode completion timeout of 10 ms counts as a read error (R352). -/
  | lodeReadTimeout (part xid : Nat)
  /-- 1 ms after an error the refetch is requested, unless FAIL is set after eight errors (R311). -/
  | expertRefetchTimer (part xid : Nat)
  /-- Eviction write-back ends; the entry becomes ABSENT and any requested fetch follows (R310). -/
  | expertEvictionDone (part xid : Nat)
  /-- NSRC stamps of step NEXT are present, so the apply engine creates the update task (R319). -/
  | embeddingStepComplete (part idx : Nat)
  /-- The watchdog reaches WDLIM, and the graph raises WDOG, freezes and is fenced (R323). -/
  | watchdogExpiry (part lid : Nat)
  /-- A waiting BAR sees the generation change, clears ARR and acquires (R327). -/
  | barWake (cell : Nat)
  /-- The host commands a halt-swap of P, optionally restoring Q; the halt reaches P's cells and they stop (R332). -/
  | haltSwapCommand (p : Nat) (q : Option Nat)
  /-- Accesses issued before the halt are performed, and the context exchange with the caisson runs (R333). -/
  | haltSwapDrainComplete
  /-- The restored context's ECC is checked, BAYXY.PART is set, and Q's cells resume (R333). -/
  | haltSwapRestore (eccOk : Bool)
  /-- By t + 64 ticks every unit of the graph has stopped, and one event record is written (R337). -/
  | graphFreeze (part lid : Nat)
  /-- System software asks for a halt, dump and resume of a graph or partition (R341). -/
  | dumpRequest (part : Nat) (lid : Option Nat)
  /-- System software releases a fenced graph, ending its tasks and freeing its bays and leases (R338). -/
  | graphRelease (part lid : Nat)
  /-- A severe error freezes every graph, stops the adits and fences the partition (R339). -/
  | partitionFence (part : Nat)
  /-- A cell fails in service; its bay is withheld from placement and the graph over it is fenced (R21). -/
  | cellFailure (cell : Nat)
  /-- PF 0 loads a partition, assigning bays, bank groups, keys and tables (R343). -/
  | partitionLoad (part : Nat) (cfg : PartCfg)
  /-- PF 0 unloads a partition and empties its image list (R343). -/
  | partitionUnload (part : Nat)
  /-- A VF reset fences its partition and then unloads it (R343). -/
  | functionLevelReset (part : Nat)
  /-- A reset of PF 0 fences every partition (R343). -/
  | pf0Reset
  /-- System software sets BYPASS_MAX, which triggers an admission pass (R282). -/
  | bypassMaxWrite (part : Nat) (v : BitVec 4)
  /-- A system-software or host write to a register with no row of its own, such as QDEF, WDLIM or FMODE (R3). -/
  | registerWrite (part : Nat) (reg : HostReg) (v : BitVec 64)
  /-- The headframe copies an image from aperture frames into the image store as unchecked (R359); `img` holds the
  contents of the sections whose byte layout spec/ does not give (log 8). -/
  | imageAdd (part : Nat) (off len : Nat) (img : Image)
  /-- Removes an image that no queued or placed launch names (R359). -/
  | imageRemove (part : Nat) (id : BitVec 64)
  /-- The headframe returns a signed report for a nonce (R360). -/
  | attestationRequest (part : Option Nat) (nonce : BitVec 256)
  /-- PF 0 sets the module power limit (R361). -/
  | powerLimitSet (watts : Nat)
  /-- A host write through BAR4 is performed at HBM and invalidates the lines it touches in the die caches (R345). -/
  | apertureWrite (part off : Nat) (data : List Byte)
  /-- A host read through BAR4 returns HBM contents, all ones, or poisoned data (R345). -/
  | apertureRead (part off len : Nat)
  /-- A write to EGBASE restarts the adit's egress at the new base (R346). -/
  | aditEgbaseWrite (part adit : Nat) (base : BitVec 64)
  /-- System software reads fault-queue records, freeing room for waiting sources (R210). -/
  | faultRecordRead (part : Nat)
  /-- System software advances the fault ring head (R210). -/
  | faultRingHeadAdvance (part n : Nat)
  /-- A link port receives a flit, requests retransmission on an LCRC failure, and delivers in order (R354). -/
  | linkFlitReceive (port : Nat) (flit : Flit)
  /-- The headframe retrains a link port that is down (R354). -/
  | linkRetrain (port : Nat)
  /-- The host writes the package's 10-bit id through PF 0 before the link ports train (R356). -/
  | packageIdWrite (id : BitVec 10)
  /-- The headframe moves whole frames between the lode tier and HBM and answers in the mailbox (R352). -/
  | lodeCopyService (part : Nat) (lode frame n : Nat) (toHbm : Bool)
  /-- PF 0 arms a single-bit flip on one copy engine's next chain (R401). -/
  | injectionArm (pf0 : Bool) (cell word bit : Nat) (all : Bool)
  /-- The headframe boots, checks its firmware, reads fuses, trains HBM, clears the caisson and trains the ports (R357). -/
  | startup (facts : BootFacts)
  /-- A temperature or power limit crossing, or its fall back, starts a DVFS point change (R361). -/
  | dvfsTrigger (point : Nat) (cause : DvfsCause)
  /-- A DVFS change ends after about 2 µs and the cells resume issue (R361). -/
  | dvfsChangeComplete
  /-- The host discards a saved partition context, and the headframe clears its caisson slots and segments (R328). -/
  | caissonDiscard (part : Nat)
  /-- The headframe debugger lets a cell halted for it, after an instruction under MODE.SS or by a debugger halt, issue again (R113). -/
  | debuggerResume (cell : Nat)
  /-- In recovery, PF 0 issues the firmware-update mailbox command, the only command offered there (R357). -/
  | firmwareUpdateCommand (good : Bool)
  deriving DecidableEq, Repr

end Sys2Proof
end

