-- ==== Sys2Proof/Machine/State.lean ====
section
/-! DEFINITION. The state of one package as plain data, the reasons a step can stop, and the state after reset.
INVENTORY.md lists every item with the rule that names it and its reset value. -/

namespace Sys2Proof.Machine

/-- Why the machine stops with a fault. Raised only by `step`; each is safe, the model stops where spec/ gives no such
unit or address. -/
inductive Fault where
  /-- A step names a cell that the 96 by 96 mesh does not hold (R9). Raised by `step`. Safe. -/
  | noSuchCell (cell : Nat)
  /-- A step names a bay, die, port or partition that the package does not hold (R7, R9, R22). Raised by `step`. Safe. -/
  | noSuchUnit (unit : Nat)
  deriving DecidableEq, Repr

/-- Why an instruction has no meaning. -/
inductive Refusal where
  /-- An instruction without a meaning yet; raised by `exec`. Safe. -/
  | notModelled (mnemonic : String)
  /-- An entry of the agenda asks for a control, operation or switch word as an event; raised by `step`. Safe. -/
  | notAnEvent
  deriving DecidableEq, Repr

/-- An event or translation record of 64 bytes on its way to a fault queue (R271, R340): the eight words. -/
structure FaultRec where
  w0 : BitVec 64 := 0
  w1 : BitVec 64 := 0
  w2 : BitVec 64 := 0
  w3 : BitVec 64 := 0
  w4 : BitVec 64 := 0
  w5 : BitVec 64 := 0
  w6 : BitVec 64 := 0
  w7 : BitVec 64 := 0
  deriving DecidableEq, Repr, Inhabited

/-- A SEQ access held at issue (R167, R270): its address and kind, whether its port was reported and stopped, the outcome a walk
found for it: a trap cause and value, and whether it is the read of an MWAIT, which no trap or halt waits for (R191). -/
structure Hold where
  va      : BitVec 64 := 0
  kind    : AccKind := .read
  stopped : Bool := false
  trap    : Option (BitVec 8 × BitVec 64) := none
  mwait   : Bool := false
  deriving DecidableEq, Repr, Inhabited

/-- The sequencer's monitor (R174). -/
structure Monitor where
  addr  : BitVec 64 := 0
  ref   : BitVec 64 := 0
  armed : Bool := false
  deriving DecidableEq, Repr, Inhabited

/-- BARST (R327). -/
structure Barst where
  arr   : Bool := false
  entry : BitVec 4 := 0
  gen   : BitVec 16 := 0
  deriving DecidableEq, Repr, Inhabited

/-- Scheduler state of a sequencer (R34, R86). -/
structure Sched where
  hiLast : BitVec 3 := 7
  loLast : BitVec 3 := 7
  hiRun  : BitVec 5 := 0
  lowOwed : Bool := false
  deriving DecidableEq, Repr, Inhabited

/-- Trap and mode registers of a sequencer (R88, R89). -/
structure TrapRegs where
  vec   : BitVec 64 := 0
  cause : BitVec 8 := 0
  pc    : BitVec 12 := 0
  value : BitVec 64 := 0
  ls    : BitVec 64 := 0
  tm    : Bool := false
  lastc : BitVec 8 := 0
  be    : Bool := false
  ss    : Bool := false
  deriving DecidableEq, Repr, Inhabited

/-- What a sequencer waits for while it runs a firing: nothing, or an instruction that stays at issue. `stall` is 1 while
an instruction is held on memory, 2 while it waits for a port (counters 0x041, 0x042), 3 while it waits for a unit.
`lrec` is the launch record that a waiting LAUNCH or RLAUNCH read at issue (R279), `stab` the state table entries that a
waiting STAB read (R289). -/
structure SeqWait where
  hold   : Option Hold := none
  xfence : Option (BitVec 3 × BitVec 3 × BitVec 3) := none
  mwait  : Option (BitVec 5) := none
  bar    : Option (BitVec 3) := none
  lrec   : Option (BitVec 512) := none
  stab   : Option (List (BitVec 256)) := none
  stall  : BitVec 2 := 0
  deriving DecidableEq, Repr, Inhabited

/-- A control sequencer (R86, R88). `pc` is the word address of the next instruction. `dbg` is the debugger's halt, `stuck`
a unit that raised a graph fault, `pending` the pending-trap latch (R328), `budget` the counted ticks of R36. -/
structure Seq where
  g       : SMap (BitVec 64) := []
  p       : BitVec 8 := 1
  lk      : BitVec 64 := 0
  pc      : BitVec 12 := 0
  loopst  : BitVec 64 := 0
  actor   : BitVec 4 := 0
  running : Bool := false
  budget  : Nat := 0
  tr      : TrapRegs := {}
  sched   : Sched := {}
  wait    : SeqWait := {}
  mon     : Monitor := {}
  barst   : Barst := {}
  pending : Option (BitVec 8 × BitVec 64) := none
  dbg     : Bool := false
  stuck   : Bool := false
  deriving DecidableEq, Repr, Inhabited

/-- An actor slot (R33, R86, R88, R210). `spanOpen` tells whether a span is open (R305); `closing` that the firing took
the span's EOT; `sinkTook` the EOTs and DONEs taken at a sink port in this firing, with the port (R31). -/
structure Slot where
  valid    : Bool := false
  entry    : BitVec 12 := 0
  prio     : Bool := false
  take     : SMap Nat := []
  emit     : SMap Nat := []
  sinks    : List Nat := []
  a        : SMap (BitVec 64) := []
  taskxy   : BitVec 32 := 0
  spanid   : BitVec 64 := 0
  fires    : BitVec 64 := 0
  inq      : SMap (List Token) := []
  outq     : SMap (List Token) := []
  spanOpen : Bool := false
  closing  : Bool := false
  sinkTook : List (Nat × Token) := []
  deriving DecidableEq, Repr, Inhabited

/-- An element (R114). `out` holds results awaiting delivery with the destination codes still owed; `span` is the span
the element is in (R304). -/
structure Elem where
  word : BitVec 32 := 0
  k    : SMap (BitVec 32) := []
  in0  : Option Token := none
  in1  : Option Token := none
  in2  : Option Token := none
  out  : List (Token × List (BitVec 6)) := []
  span : Option (BitVec 64) := none
  deriving DecidableEq, Repr, Inhabited

/-- A router and endpoint map (R210, R211, R214, R230). Buffers are numbered 3 * port + vc, vc 2 being the back channel.
`inb` are the input buffers, `outb` the token that a switch word has moved to an output and that has not left yet, `used`
the places taken or reserved at the receiver of an output, `owed` the places freed here whose credit has not returned, `turn` the VC
that sends next on an output port. By store position: `phase` tells that a CARRY is in its LOOP phase, `absorb` which DONEs
a CARRY awaits (bit 0 loop, bit 1 control) and has absorbed (bits 2, 3), `ready` the branches a FORK still owes, `arrived`
the inputs of a STEER or MERGE at which DONE has arrived (bit 0 data or true arm, bit 1 control, bit 2 false arm). -/
structure Router where
  words   : List (BitVec 16) := []
  inb     : SMap (List Token) := []
  outb    : SMap (List Token) := []
  used    : SMap Nat := []
  owed    : SMap Nat := []
  turn    : SMap Bool := []
  phase   : SMap Bool := []
  absorb  : SMap (BitVec 4) := []
  ready   : SMap (BitVec 8) := []
  arrived : SMap (BitVec 3) := []
  epIn    : SMap (BitVec 8) := []
  epBin   : SMap (BitVec 8) := []
  epOut   : SMap (BitVec 10) := []
  deriving DecidableEq, Repr, Inhabited

/-- State of a stream block or matrix engine that every kind has: word, constants, inputs, output, span (R234). -/
structure Block where
  word : BitVec 32 := 0
  k    : SMap (BitVec 32) := []
  inq  : SMap (List Token) := []
  out  : List Token := []
  back : SMap (List Token) := []
  span : Option (BitVec 64) := none
  done : BitVec 4 := 0
  deriving DecidableEq, Repr, Inhabited

/-- Scanner window (R242). -/
inductive Win where
  | ready | opened | held
  deriving DecidableEq, Repr, Inhabited

/-- A level scanner's progress (R234): the parent's reference, the next entry and the one past the last, `active` that a fibre
is being emitted, `owed` the tokens to emit before it. -/
structure Scanner where
  parent  : BitVec 64 := 0
  next    : Nat := 0
  stop    : Nat := 0
  active  : Bool := false
  pend    : Bool := false
  win     : Win := .ready
  owed    : List Token := []
  deriving DecidableEq, Repr, Inhabited

/-- A merge unit's sides (R234). -/
structure Merge where
  lastA : Option (BitVec 32) := none
  lastB : Option (BitVec 32) := none
  seekA : BitVec 32 := 0
  seekB : BitVec 32 := 0
  fibre : Bool := false
  deriving DecidableEq, Repr, Inhabited

/-- A stored repeater entry (R249): COORD, REF, payload lane 0, PL and LMASK[0]. -/
structure RepEntry where
  coord : BitVec 32 := 0
  ref   : BitVec 64 := 0
  lane  : BitVec 32 := 0
  pl    : Bool := false
  mask0 : Bool := false
  deriving DecidableEq, Repr, Inhabited

/-- A repeater's store (R234). `replay` are the entries of the running replay not yet emitted, `loading` that a load is
in progress. -/
structure Rept where
  store   : List RepEntry := []
  loaded  : Bool := false
  loading : Bool := false
  pend    : Bool := false
  replay  : List RepEntry := []
  playing : Bool := false
  owed    : List Token := []
  deriving DecidableEq, Repr, Inhabited

/-- A reducer (R234). `acc` holds 16 lanes of 32 bits, `mask` the lanes reached. -/
structure Reduce where
  acc     : BitVec 512 := 0
  mask    : BitVec 16 := 0
  filled  : Bool := false
  any     : Bool := false
  fibre   : Bool := false
  rank    : List (BitVec 32 × BitVec 32) := []
  ordinal : BitVec 32 := 0
  run     : BitVec 32 := 0
  owed    : List Token := []
  deriving DecidableEq, Repr, Inhabited

/-- A level writer (R234). -/
structure LWriter where
  n     : BitVec 32 := 0
  p     : BitVec 32 := 0
  open_ : Bool := false
  buf   : BitVec 512 := 0
  word  : BitVec 32 := 0
  count : BitVec 32 := 0
  prev  : BitVec 32 := 0
  deriving DecidableEq, Repr, Inhabited

/-- A tile table entry (R306). -/
structure Tile where
  base  : BitVec 12 := 0
  size  : BitVec 13 := 0
  fmt   : BitVec 4 := 0
  state : BitVec 2 := 0
  mxm   : Bool := false
  deriving DecidableEq, Repr, Inhabited

/-- A channel queue (R212, R213): depth in tiles and its tokens; for a queue that a copy engine fills, the tokens left
of each tile begun, the tokens put into the open one, the poisoned ones by place, and the credit of R174. -/
structure ChanQ where
  depth  : Nat := 0
  toks   : List Token := []
  tiles  : List Nat := []
  opened : Option Nat := none
  poison : List Nat := []
  credit : Nat := 0
  deriving DecidableEq, Repr, Inhabited

/-- A copy command (R176), with its task and its destination kinds. -/
structure CopyCmd where
  src    : BitVec 64 := 0
  dst    : BitVec 64 := 0
  len    : Nat := 0
  expect : BitVec 32 := 0
  assay  : BitVec 2 := 0
  chain  : Bool := false
  last   : Bool := false
  retry  : Nat := 0
  queue  : Bool := false
  remote : Bool := false
  ws     : Bool := false
  issuer : Nat := 0
  seq    : BitVec 32 := 0
  span   : Option (BitVec 64) := none
  deriving DecidableEq, Repr, Inhabited

/-- A chain in execution (R174, R180): its commands so far, the place of the running one, pass, next payload block,
running assay, whether an acknowledgement of a remote block is awaited, whether poison ended it, the home's running value
(R398), whether the chain is discarded (R184), the stamps that are due in order once its payload is done, with the mark of
one whose tile is poisoned (R180, R183), and its flip (R401). -/
structure CopyRun where
  chain    : List CopyCmd := []
  idx      : Nat := 0
  pass     : Nat := 0
  block    : Nat := 0
  assay    : BitVec 32 := 0
  ack      : Bool := false
  poisoned : Bool := false
  remoteV  : BitVec 32 := 0
  dead     : Bool := false
  due      : List (CopyCmd × BitVec 64 × Bool) := []
  inj      : Option (Nat × Nat × Bool) := none
  deriving DecidableEq, Repr, Inhabited

/-- A copy engine (R173, R174, R401). `queue` are the commands not yet started, `runs` the chains begun by issuing cell,
`cur` the issuer whose command runs. -/
structure CopyEng where
  queue   : List CopyCmd := []
  runs    : SMap CopyRun := []
  cur     : Option Nat := none
  seq     : BitVec 32 := 1
  deriving DecidableEq, Repr, Inhabited

/-- A fill command (R185). -/
structure FillCmd where
  src    : BitVec 64 := 0
  index  : BitVec 64 := 0
  gather : Bool := false
  len    : Nat := 0
  rows   : Nat := 0
  tile   : Nat := 0
  seq    : BitVec 32 := 0
  issuer : Nat := 0
  span   : Option (BitVec 64) := none
  ms     : Bool := false
  deriving DecidableEq, Repr, Inhabited

/-- A fill engine (R174, R186): of the head command the next row, the packed bytes, the dropped rows, the tag taken from
the first row, and the poisoned payload block. -/
structure FillEng where
  queue   : List FillCmd := []
  row     : Nat := 0
  pos     : Nat := 0
  dropped : Nat := 0
  fmt     : Option (BitVec 4 × Bool) := none
  poison  : Option Nat := none
  seq     : BitVec 32 := 1
  deriving DecidableEq, Repr, Inhabited

/-- The memory sequencer (R273, R287). `busy` tells that the current state's action has not completed, `prog` the bytes
or pieces it has done, `issued` that its fill is queued, `ended` that an ACCEPT took its last token, `halted` that it stands in
a HALT, which only a STAB with START leaves. -/
structure MemSeq where
  table   : SMap (BitVec 256) := []
  cur     : BitVec 6 := 0
  cnt0    : BitVec 32 := 0
  cnt1    : BitVec 32 := 0
  busy    : Bool := false
  prog    : Nat := 0
  inq     : List Token := []
  out     : List Token := []
  span    : Option (BitVec 64) := none
  issued  : Bool := false
  ended   : Bool := false
  halted  : Bool := true
  deriving DecidableEq, Repr, Inhabited

/-- A weight plane (R139): rows of 32 decoded-format bytes as read, row scales, format and MX mode. -/
structure Plane where
  rows  : SMap (BitVec 512) := []
  scale : SMap (BitVec 16) := []
  fmt   : BitVec 4 := 0
  mxm   : Bool := false
  state : BitVec 2 := 0
  deriving DecidableEq, Repr, Inhabited

/-- What travels through the array of a D-cell (R145-R147): the column sums of a row at a position, a void row, which only
sets its ADDED bit, or an EOR, which is counted once every earlier row has reached its node. -/
inductive ArrayEntry where
  | row (p : Nat) (sums : List (BitVec 32))
  | void (p : Nat)
  | eor
  deriving DecidableEq, Repr, Inhabited

/-- What stands in the FIFO of one column: a sum, which takes one of its 8 places, or the mark of a void row or an EOR, which
takes none (R145-R147). -/
inductive ColEntry where
  | sum (p : Nat) (v : BitVec 32)
  | void (p : Nat)
  | eor
  deriving DecidableEq, Repr, Inhabited

/-- A D-cell's matrix state (R139). `act` tells which plane is active (false planeA). `load` is the REF and COORD of the
load in progress, `loadFmt` and `loadMxm` its format and MX mode, `loadRow` the next row. `stages` hold the entries of the tokens inside the array, one token a stage, `fifos`
those of each column that await its node, oldest first (R146). `nodes` are the partial sums of node j at position p under
32 * j + p. `doneW`, `doneQ` tell that DONE was taken at mx.w and mx.q, `doneX` that the DONE in front of mx.x has had its
effect and waits to be forwarded (R148). -/
structure Matrix where
  planeA : Plane := {}
  planeB : Plane := {}
  act    : Bool := false
  pend   : Bool := false
  load   : Option (Nat × Nat) := none
  loadRow : Nat := 0
  loadFmt : BitVec 4 := 0
  loadMxm : Bool := false
  stages : List (List ArrayEntry) := []
  fifos  : SMap (List ColEntry) := []
  nodes  : SMap (BitVec 32) := []
  added  : BitVec 32 := 0
  ec     : BitVec 8 := 0
  rc     : BitVec 26 := 0
  doneW  : Bool := false
  doneQ  : Bool := false
  doneX  : Bool := false
  deriving DecidableEq, Repr, Inhabited

/-- A line of a data cache: 64 bytes, the bytes that are dirty, and those of them written through a chunk of kind UN (R156,
R157, R195). -/
structure Line where
  data  : BitVec 512 := 0
  dirty : BitVec 64 := 0
  un    : BitVec 64 := 0
  deriving DecidableEq, Repr, Inhabited

/-- A chunk entry as a walk read it (R262, R263), with what the walk found of its tensor: whether a decoding path refuses
its format (R57, R262), and whether the tensor is a shadow window or sharded (R261). -/
structure ChunkTr where
  entry  : BitVec 64 := 0
  fmtBad : Bool := false
  shadow : Bool := false
  split  : Bool := false
  deriving DecidableEq, Repr, Inhabited

/-- A cached chunk entry (R262, R264): tensor, chunk, entry, the count of leases that hold it, whether an invalidation
removed it for all but its lease holders (R268), and the number that its leases bear. -/
structure TlbEntry where
  tensor : Nat := 0
  chunk  : Nat := 0
  tr     : ChunkTr := {}
  leases : Nat := 0
  stale  : Bool := false
  gen    : Nat := 0
  deriving DecidableEq, Repr, Inhabited

/-- A row of a shadow window in one read pass of a reader (R165): window, the reader's span, row, the place in the row after the
last byte read, the binding it is gathered under (backing base, index base, row size), and the row of the backing tensor that
its index gave, none for a tailing. -/
structure GathRow where
  tensor  : Nat := 0
  span    : Option (BitVec 64) := none
  row     : Nat := 0
  next    : Nat := 0
  backing : BitVec 64 := 0
  index   : BitVec 64 := 0
  size    : Nat := 8
  idx     : Option Nat := none
  deriving DecidableEq, Repr, Inhabited

/-- The cell parts that only M-cells use (R12). -/
structure MPart where
  sc0     : Scanner := {}
  sc1     : Scanner := {}
  lw      : LWriter := {}
  scratch : Mem := []
  poison  : List Nat := []
  tiles   : SMap Tile := []
  queues  : SMap ChanQ := []
  copy    : CopyEng := {}
  fill    : FillEng := {}
  ms      : MemSeq := {}
  deriving DecidableEq, Repr, Inhabited

/-- The cell parts that only S-cells use (R12). -/
structure SPart where
  mg   : Merge := {}
  rep  : Rept := {}
  red0 : Reduce := {}
  red1 : Reduce := {}
  deriving DecidableEq, Repr, Inhabited

/-- A cell (R11, R12). `blocks` are the stream blocks and matrix engines by unit number (16 sc0, 17 sc1, 18 lw, 19 m,
20 rpt, 21 red0, 22 red1, 23 mx.w, 24 mx.q, 25 mx.x, 26 mx.n, 27 mx.o). `stopped` are the stopped ports (R271), `ringed` those
of them whose access is held and walked again in ring mode (R272), `now` what each counter has
counted on this tick (R325), `leaseHeld` the tasks (launch, x, y) that wait until the launch scheduler's port 0x86 leases again
(R268), `gath` the rows in gathering by the reader's port (R165). -/
structure Cell where
  seq     : Seq := {}
  slots   : SMap Slot := []
  code    : Mem := []
  priv    : Mem := []
  dc      : SMap Line := []
  tlb     : List TlbEntry := []
  elems   : SMap Elem := []
  router  : Router := {}
  blocks  : SMap Block := []
  m       : MPart := {}
  s       : SPart := {}
  mx      : Matrix := {}
  cnt     : SMap (BitVec 64) := []
  now     : SMap (BitVec 64) := []
  stopped : List Nat := []
  ringed  : List Nat := []
  leaseHeld : List (Nat × Nat × Nat) := []
  gath    : SMap GathRow := []
  deriving DecidableEq, Repr, Inhabited

/-- A walk in progress or queued (R264, R265): the cell and port that wait, the address, its kind, the issuer's
span, of an engine with an affine pattern the base, block count and progress that it reports (R271), and whether only the
tensor's descriptor is wanted, as WBIND, WFREE and gathers want it (R165, R186, R187). -/
structure Walk where
  cell : Nat := 0
  port : Nat := 0
  va   : BitVec 64 := 0
  kind : AccKind := .read
  span : Option (BitVec 64) := none
  pat  : Option (Nat × Nat × Nat) := none
  desc : Bool := false
  deriving DecidableEq, Repr, Inhabited

/-- The state of a bay: translation caches, and the walks in the order in which their misses arrived (R259, R264). The
first four stand in the walkers. -/
structure Bay where
  tlb    : List TlbEntry := []
  desc   : List (Nat × BitVec 512) := []
  walks  : List Walk := []
  deriving DecidableEq, Repr, Inhabited

/-- A lease of a task: bay, tensor, chunk, the entry as leased, the mark after which no compare-and-swap is issued through
it (R266, R268), and the number of the cached entry it counts on. -/
structure LeaseEnt where
  bay    : Nat := 0
  tensor : Nat := 0
  chunk  : Nat := 0
  tr     : ChunkTr := {}
  noCas  : Bool := false
  gen    : Nat := 0
  deriving DecidableEq, Repr, Inhabited

/-- A shard entry that a task has used (R269, R317): the tensor with its descriptor and block geometry, the rows from
`first` to `last` - 1, their owner and its tensor. -/
structure ShardEnt where
  tensor : Nat := 0
  desc   : BitVec 512 := 0
  geo    : Option (Nat × Bool) := none
  first  : Nat := 0
  last   : Nat := 0
  owner  : Nat := 0
  ten    : Nat := 0
  deriving DecidableEq, Repr, Inhabited

/-- A task of a placed graph (R290, R294). `st` is the state code, `cerr` the copy-error mark, `regions` its region
records with their base in place of BASE0 and CUR, `eots` the sinks its EOT has reached, `acks` the classes that
acknowledged the drain, `leases` the entries it holds, `shards` the shard entries it
has used, `oldShards` the sharded tensors among them that an invalidation has named since (R268, R317), `wroteOn` the lines
that its writes were performed on with the die (4 * line + die, R300), `born` the partition's task edges before its release
(R187), `xid` its expert, `toks` the token indices of an expert's tile, `begun` that its span has entered. -/
structure Task where
  x      : Nat := 0
  y      : Nat := 0
  st     : BitVec 3 := 0
  cerr   : Bool := false
  span   : BitVec 64 := 0
  regions : List (BitVec 256) := []
  eots   : List Nat := []
  acks   : BitVec 6 := 0
  leases : List LeaseEnt := []
  shards : List ShardEnt := []
  oldShards : List Nat := []
  wroteOn : SMap Unit := []
  born   : Nat := 0
  xid    : Option Nat := none
  toks   : List (BitVec 32) := []
  begun  : Bool := false
  deriving DecidableEq, Repr, Inhabited

/-- A barrier entry (R327, R322 counter 0x013). -/
structure Barrier where
  grp      : BitVec 64 := 0
  n        : BitVec 16 := 0
  arrivals : BitVec 16 := 0
  gen      : BitVec 16 := 0
  used     : Bool := false
  deriving DecidableEq, Repr, Inhabited

/-- A launch queue entry (R273): record, id, arrival time and tie order, bypass count, image state (0 unchecked,
1 checking, 2 checked), the ragged records' address, its own adit, whether a yielded context waits for it, and the
predecessors live at enqueue with the status each ended with (R280, R296). -/
structure LqEntry where
  lrec   : BitVec 512 := 0
  lid    : Nat := 0
  age    : Nat := 0
  tie    : Nat := 0
  byp    : BitVec 4 := 0
  istate : BitVec 2 := 0
  ragged : Option (BitVec 64) := none
  adit   : Option Nat := none
  saved  : Bool := false
  preds  : List (Nat × Option (BitVec 4)) := []
  deriving DecidableEq, Repr, Inhabited

/-- A placed graph (R273, R290). `quantum` and `wdog` count ns, `expired` marks an expired quantum. `yreq` is the flag YREQ and
`yfor` the launch it was set for, `target` the origin of a compaction move asked for, `freeze` the first record raised, `named` the tasks that a host
stream has named, `aborted` the ended tasks of an RLAUNCH for INFO, `srcq` the tokens of its span source that have not
entered, `dropping` that a host span is being discarded (1 without count, 2 counted), `wrote` the write-set records of
ended tasks and `wroteOn` the lines and dies of their writes with the count of task edges at the end of the last, `halt` that it is
halted for a dump asked for (R341), `wdDue` the record of a watchdog that has reached its limit on this tick (R323), `seed` the free
number behind the spans of a device launch's tasks (log 36). -/
structure Graph where
  lid     : Nat := 0
  entry   : LqEntry := {}
  ox      : Nat := 0
  oy      : Nat := 0
  w       : Nat := 1
  h       : Nat := 1
  variant : Nat := 0
  imageId : BitVec 64 := 0
  quantum : Nat := 0
  wdog    : Nat := 0
  expired : Bool := false
  yreq    : Bool := false
  yfor    : Nat := 0
  target  : Option (Nat × Nat) := none
  loading : Bool := true
  freeze  : Option FaultRec := none
  frozen  : Bool := false
  fenced  : Bool := false
  low     : Nat := 0
  tasks   : List Task := []
  named   : List (Nat × Nat) := []
  doneSent : Bool := false
  doneSinks : List Nat := []
  aborted : Nat := 0
  templates : Option (List (BitVec 256)) := none
  barriers : SMap Barrier := []
  srcq    : List Token := []
  dropping : BitVec 2 := 0
  wrote   : List (BitVec 256) := []
  wroteOn : SMap Nat := []
  halt    : Bool := false
  wdDue   : Option FaultRec := none
  seed    : Nat := 0
  deriving DecidableEq, Repr, Inhabited

/-- A stream of a host launch in an adit queue (R275, R409): its launch, none while its opening token waits, and, where its
DONE was discarded, how many of its tokens are still queued. -/
structure Stream where
  lid  : Option Nat := none
  left : Option Nat := none
  deriving DecidableEq, Repr, Inhabited

/-- An adit (R275, R276, R346). `streams` are the host streams in its queue, oldest first, `named` the launch that reserved
it in word 0x38, `discard` that tokens up to DONE are discarded, `fencedOpen` that they are those of a fenced launch's own
stream, `broken` of R347. -/
structure Adit where
  queue   : List Token := []
  streams : List Stream := []
  broken  : Bool := false
  discard : Bool := false
  fencedOpen : Bool := false
  named   : Option Nat := none
  egbase  : BitVec 64 := 0
  eglen   : BitVec 64 := 0
  egdone  : BitVec 64 := 0
  egcount : Nat := 0
  deriving DecidableEq, Repr, Inhabited

/-- An entry of the expert residency table by its fields (R309); the table itself lies in HBM. -/
structure Ert where
  state  : BitVec 2 := 0
  dirty  : Bool := false
  v      : Bool := false
  fail   : Bool := false
  req    : Bool := false
  pin    : BitVec 8 := 0
  lease  : BitVec 16 := 0
  wait   : BitVec 32 := 0
  slot   : BitVec 12 := 0
  frame  : BitVec 23 := 0
  size   : BitVec 16 := 0
  lode   : BitVec 64 := 0
  last   : BitVec 64 := 0
  deriving DecidableEq, Repr, Inhabited

/-- The fetch progress of an expert (R311, R329, R334): the read errors in a row, the TBASE of an error after which the device
fetches again by itself, and the 64 KiB frames written. -/
structure XpProg where
  errs    : Nat := 0
  refetch : Option (BitVec 64) := none
  frames  : Nat := 0
  deriving DecidableEq, Repr, Inhabited

/-- A parked token (R313): launch, expert, record, token index. -/
structure Parked where
  lid : Nat := 0
  xid : Nat := 0
  ri  : Nat := 0
  tok : BitVec 32 := 0
  deriving DecidableEq, Repr, Inhabited

/-- An embedding entry (R318); `busy` and `age` are its update task's, and `cur` the apply engine's cursor while it runs: the
source, and of its slot the next record and the count, once its header is read. -/
structure Emb where
  w0      : BitVec 64 := 0
  w1      : BitVec 64 := 0
  applied : BitVec 64 := 0
  dropped : BitVec 32 := 0
  busy    : Bool := false
  age     : Nat := 0
  cur     : Option (Nat × Option (Nat × Nat)) := none
  deriving DecidableEq, Repr, Inhabited

/-- A shadow window's binding (R165, R187). -/
structure WinBind where
  backing : BitVec 64 := 0
  index   : BitVec 64 := 0
  row     : Nat := 8
  deriving DecidableEq, Repr, Inhabited

/-- A WBIND or WFREE of a window (R187, R188): the binding or none, the launch and task that issued it, the count of task
edges of the partition before its own, once its task has passed its edge, and the scopes with their issuing cell at which an
XFENCE from SEQ to GATH has made it visible. -/
structure WinVer where
  bind : Option WinBind := none
  cell : Nat := 0
  lid  : Nat := 0
  x    : Nat := 0
  y    : Nat := 0
  edge : Option Nat := none
  seen : List (BitVec 3 × Nat) := []
  deriving DecidableEq, Repr, Inhabited

/-- The saved context of a yielded launch (R329): graph record and the cells by cell-record index. -/
structure YieldCtx where
  graph : Graph := {}
  cells : List (Nat × Cell) := []
  deriving DecidableEq, Repr, Inhabited

/-- An image in a partition's list (R359): checked state, and the refusal code of checks 1-6 (0 none). -/
structure ImageEnt where
  img   : Image := {}
  state : BitVec 2 := 0
  code  : Nat := 0
  deriving DecidableEq, Repr, Inhabited

/-- A stamp watch (R350). -/
structure Watch where
  va     : BitVec 64 := 0
  vector : Nat := 0
  v      : Bool := false
  fresh  : Bool := false
  deriving DecidableEq, Repr, Inhabited

/-- An invalidation (R267, R268): tensor, first chunk, count, and whether its first stage is reported. -/
structure Inval where
  tensor : Nat := 0
  first  : Nat := 0
  count  : Nat := 0
  told   : Bool := false
  deriving DecidableEq, Repr, Inhabited

/-- A partition's fault store: queue, records waiting at their source, and the ring of ring mode (R210, R272). -/
structure FaultQ where
  queue    : List FaultRec := []
  waiting  : List FaultRec := []
  ring     : Bool := false
  ringBase : BitVec 64 := 0
  ringSize : Nat := 6
  head     : BitVec 32 := 0
  tail     : BitVec 32 := 0
  ringOut  : List (BitVec 256) := []
  ringWait : List (BitVec 256) := []
  deriving DecidableEq, Repr, Inhabited

/-- A partition's expert state (R308). `reqs` are the fetches that wait for a slot, `asked` those of them for which
an expert was evicted, `runs` those that hold one, oldest first; `blocked` the tokens of admissions that wait for room in the spill area (R313). -/
structure Experts where
  reqs    : List Nat := []
  asked   : List Nat := []
  runs    : List Nat := []
  prog    : SMap XpProg := []
  parked  : List Parked := []
  blocked : List Parked := []
  deriving DecidableEq, Repr, Inhabited

/-- A partition (R22, R259, R273, R308, R322, R328). `windows` are the bindings of each window, newest last, `tails` the
windows' tailings (counter 0x018), `edges` the task edges passed so far, `msix` the vectors raised, `msixTab` and `msixPend`
the MSI-X table and the pending vectors of its function (R344). -/
structure Part where
  loaded   : Bool := false
  fenced   : Bool := false
  swapped  : Bool := false
  cfg      : PartCfg := {}
  bypassMax : BitVec 4 := 4
  qdef     : BitVec 32 := 2000
  wdlim    : BitVec 32 := 10000000
  apFrame  : Nat := 0
  trace    : Bool := false
  traceBuf : List (BitVec 64 × BitVec 64 × BitVec 128) := []
  images   : List ImageEnt := []
  lqs      : SMap (List LqEntry) := []
  nextLid  : Nat := 1
  liveLids : List Nat := []
  graphs   : List Graph := []
  yields   : SMap YieldCtx := []
  adits    : SMap Adit := []
  fq       : FaultQ := {}
  xp       : Experts := {}
  emb      : SMap Emb := []
  windows  : SMap (List WinVer) := []
  tails    : SMap (BitVec 32) := []
  edges    : Nat := 0
  watches  : SMap Watch := []
  cnt      : SMap (BitVec 32) := []
  msix     : List Nat := []
  msixTab  : SMap (BitVec 128) := []
  msixPend : List Nat := []
  mail     : List (BitVec 64) := []
  inval    : List Inval := []
  deriving DecidableEq, Repr, Inhabited

/-- A section of a state dump (R342): partition tables, a bay, a cell, a scratchpad, counters, the fault queue. -/
inductive DumpSec where
  | tables (p : Part)
  | bay (b : Nat) (x : Bay)
  | cell (c : Nat) (x : Cell)
  | scratch (c : Nat) (m : Mem)
  | counters (m : SMap (BitVec 32))
  | faults (l : List FaultRec)
  deriving DecidableEq, Repr

/-- A state dump in a dump region (R341, R342): the 256 bytes of its header, the entries of its section table (type, unit,
offset, length), and the sections' contents. -/
structure Dump where
  head  : List Byte := []
  table : List (Nat × Nat × Nat × Nat) := []
  secs  : List DumpSec := []
  deriving DecidableEq, Repr

/-- A saved partition context in the caisson (R328, R329): its tables, bay parts and cells, and the cells that had failed in
service when it was saved (R335). -/
structure Caisson where
  part   : Part := {}
  bays   : List (Nat × Bay) := []
  cells  : List (Nat × Cell) := []
  failed : List Nat := []
  deriving DecidableEq, Repr, Inhabited

/-- A halt-swap in progress (R332, R333): the partition saved, the one restored, and whether the drain is done. -/
structure Swap where
  p       : Nat := 0
  q       : Option Nat := none
  drained : Bool := false
  deriving DecidableEq, Repr, Inhabited

/-- A Malyan link port (R353-R355): whether it is up, the SEQ it expects, the retransmissions that failed in a row, the SEQ
values asked for again, and the flits delivered. -/
structure LinkPort where
  up     : Bool := false
  expect : BitVec 8 := 0
  fails  : Nat := 0
  again  : List (BitVec 8) := []
  body   : List Flit := []
  deriving DecidableEq, Repr, Inhabited

/-- A completion word that waits for a path to its home (R280, R355): the partition, the launch's record and id, the status, INFO,
and whether the vector goes out with the word only. -/
structure OwedWord where
  part   : Nat := 0
  lrec   : BitVec 512 := 0
  lid    : Nat := 0
  status : Nat := 0
  info   : Nat := 0
  only   : Bool := false
  deriving DecidableEq, Repr, Inhabited

/-- The headframe and I/O die (R343, R346-R361): boot status, package id, ports, clock and power; `owed` are the completion words
that wait for a path (R355); `armed` are the flips armed
for the next chain of a cell's copy engine (R401): word, bit, every pass; `swaps` the halt-swap commands that wait (R332),
`dumpOf` the graph or partition halted for a dump asked for and `dumpAt` the TBASE of the halt (R341). -/
structure Headframe where
  boot     : Nat := 0
  bootUnits : List Nat := []
  booted   : Bool := false
  pkg      : BitVec 10 := 0
  pkgSet   : Bool := false
  lodeUp   : BitVec 4 := 0
  lodeRanges : List (Nat × Nat × Nat) := []
  links    : SMap LinkPort := []
  linkFit  : BitVec 18 := 0
  trained  : Bool := false
  point    : Nat := 0
  toPoint  : Option Nat := none
  cause    : Option DvfsCause := none
  watts    : Nat := 2600
  swap     : Option Swap := none
  mail     : List (BitVec 64) := []
  reports  : List (List Byte) := []
  reads    : List (List Byte) := []
  badBays  : List Nat := []
  armed    : SMap (Nat × Nat × Bool) := []
  swaps    : List (Nat × Option Nat) := []
  dumpOf   : Option (Nat × Option Nat) := none
  dumpAt   : BitVec 64 := 0
  owed     : List OwedWord := []
  deriving DecidableEq, Repr, Inhabited

/-- The memories of the package and those it reaches (R152): HBM by PA, poisoned 256-byte blocks by number, the weight
store by die * 6 + column and offset, the lode tier by its address, other packages' HBM by package and PA, host memory,
the four die caches, the frames exported to other packages, those other packages export to this one, and the packages that
the switch planes report in the domain (R355), and the bank groups in their refresh window (R161). `lodePoison` are the frames of
the lode tier that are answered with poison or not within 10 ms (R352), `unreach` the (port, package) pairs that a port's plane
cannot reach (R355), `homeRuns` the running assays of other packages' chains here, by package and chain, and `acks` the
acknowledgements sent to them: package, chain, value and, with a chain's last block, the result of the comparison (R398). -/
structure Mems where
  hbm      : Mem := []
  poison   : List Nat := []
  ws       : Mem := []
  wsPoison : List Nat := []
  lode     : Mem := []
  lodePoison : List Nat := []
  remote   : Mem := []
  remPoison : List Nat := []
  host     : Mem := []
  die      : SMap (SMap Line) := []
  exported : List (Nat × Nat) := []
  remExp   : List (Nat × Nat) := []
  domain   : List Nat := []
  unreach  : List (Nat × Nat) := []
  homeRuns : List ((Nat × Nat) × BitVec 32) := []
  acks     : List (Nat × Nat × BitVec 32 × Option Bool) := []
  refresh  : BitVec 16 := 1
  deriving DecidableEq, Repr, Inhabited

/-- What a step does: issue the next instruction of a cell's sequencer, fire a cell's element or block, move a token by
a switch word, or an event of the table. -/
inductive Act where
  | issue (cell : Nat)
  | fire (cell unit : Nat)
  | route (cell pos : Nat)
  | ev (i : Instr)
  deriving DecidableEq, Repr

/-- An entry of the agenda: the ns and ticks that pass before the step, and the step (the model's own; log 4). `fn` is the
function that a command comes from (R343): 0 for PF 0, n for VF n. -/
structure Due where
  ns    : Nat := 0
  ticks : Nat := 0
  act   : Act
  fn    : Nat := 0
  deriving DecidableEq, Repr

/-- Where the running step acts: a cell and a unit of it, and the function whose command it is (the model's own; log 4). -/
structure Focus where
  cell : Nat := 0
  unit : Nat := 0
  fn   : Nat := 0
  deriving DecidableEq, Repr, Inhabited

/-- The state of a package. `tick` counts the ticks passed (R1, R228). `agenda`, `focus`, `freeCtr` are the model's own: the
order of steps, the unit of the running step, and the counter of free values. -/
structure State where
  tbase   : BitVec 64 := 0
  tick    : BitVec 64 := 0
  hf      : Headframe := {}
  mem     : Mems := {}
  masks   : SMap (BitVec 64) := []
  failed  : List Nat := []
  parts   : SMap Part := []
  bays    : SMap Bay := []
  cells   : SMap Cell := []
  caisson : SMap (Option Caisson) := []
  dumps   : List (Nat × Dump) := []
  cnt     : SMap (BitVec 32) := []
  agenda  : List Due := []
  focus   : Focus := {}
  freeCtr : Nat := 0
  deriving DecidableEq, Repr

/-- The package right after reset: nothing started (R357), no item listed, so every register holds the value named for it
in INVENTORY.md; TBASE is 0 (R322). -/
def State.reset : State := {}

end Sys2Proof.Machine
end

