-- ==== Sys2Proof/Machine/Mem.lean ====
section
/-! DEFINITION. Byte memories (R2: little-endian) and cache lines. An unlisted byte of any memory reads as zero
(DESIGN CHOICE, log 1). -/

namespace Sys2Proof.Machine

/-- The byte at an address. -/
def memRead (m : Mem) (a : Nat) : Byte := SMap.get 0 m a

/-- Writes one byte, keeping the canonical form: a zero byte is not listed. -/
def memWrite (m : Mem) (a : Nat) (b : Byte) : Mem :=
  if b = 0 then m.filter (fun c => c.1 != a) else SMap.set m a b

/-- The form of a memory: addresses strictly rising and no zero byte listed. -/
def Memory.wf : Mem → Bool
  | [] => true
  | [(_, b)] => b != 0
  | (a, b) :: (a', b') :: m => b != 0 && decide (a < a') && Memory.wf ((a', b') :: m)

/-- `n` bytes from an address, lowest address first. -/
def memBytes (m : Mem) (a : Nat) : Nat → List Byte
  | 0 => []
  | n + 1 => memRead m a :: memBytes m (a + 1) n

/-- Writes bytes from an address upwards. -/
def memStore (m : Mem) (a : Nat) : List Byte → Mem
  | [] => m
  | b :: bs => memStore (memWrite m a b) (a + 1) bs

/-- The little-endian number of a byte list (R2). -/
def leNat : List Byte → Nat
  | [] => 0
  | b :: bs => b.toNat + 256 * leNat bs

/-- The `n` bytes of a number, lowest first (R2). -/
def natLe (v : Nat) : Nat → List Byte
  | 0 => []
  | n + 1 => BitVec.ofNat 8 v :: natLe (v / 256) n

/-- The little-endian value of `n` bytes at an address. -/
def memNat (m : Mem) (a n : Nat) : Nat := leNat (memBytes m a n)

/-- Byte `i` of a 512-bit value. -/
def byteOf (x : BitVec 512) (i : Nat) : Byte := x.extractLsb' (8 * i) 8

/-- A 512-bit value with byte `i` replaced. -/
def setByte (x : BitVec 512) (i : Nat) (b : Byte) : BitVec 512 :=
  (x &&& ~~~((0xFF#512) <<< (8 * i))) ||| ((b.zeroExtend 512) <<< (8 * i))

/-- The 512-bit value of up to 64 bytes, lowest first. -/
def bytes512 (bs : List Byte) : BitVec 512 := BitVec.ofNat 512 (leNat bs)

/-- The first `n` bytes of a 512-bit value. -/
def bytesOf512 (x : BitVec 512) (n : Nat) : List Byte := natLe x.toNat n

/-- The line of 64 bytes that a memory holds at a line number. -/
def memLine (m : Mem) (ln : Nat) : BitVec 512 := BitVec.ofNat 512 (memNat m (64 * ln) 64)

/-- Writes those bytes of a line whose mask bit is set. -/
def storeLine (m : Mem) (ln : Nat) (l : Line) : Mem :=
  (List.range 64).foldl (fun m i => if l.dirty.getLsbD i then memWrite m (64 * ln + i) (byteOf l.data i) else m) m

/-- Removes a number from a sparse map. -/
def smErase {α : Type} (m : SMap α) (i : Nat) : SMap α := m.filter (fun c => c.1 != i)

/-- Whether a number is listed. -/
def smHas {α : Type} (m : SMap α) (i : Nat) : Bool := m.any (fun c => c.1 == i)

end Sys2Proof.Machine
end

