-- ==== Sys2Proof/Machine/Float.lean ====
section
/-! DEFINITION. Number formats and exact arithmetic (R47-R61): floating formats, rounding, block formats, hashes and the
correctly rounded transcendental functions of R123. -/

namespace Sys2Proof.Machine

/-- An exact value of a floating-point computation: NaN, an infinity, or (-1)^s * m * 2^e. -/
inductive FVal where
  | nan
  | inf (s : Bool)
  | fin (s : Bool) (m : Nat) (e : Int)
  deriving DecidableEq, Repr

/-- How a format spends its top codes (R49). -/
inductive FTop where
  | ieee | e4m3 | none
  deriving DecidableEq, Repr

/-- A floating-point format: exponent and significand widths, and its top codes (R49). -/
structure FFmt where
  eb  : Nat
  mb  : Nat
  top : FTop
  deriving DecidableEq, Repr

def fF32 : FFmt := ⟨8, 23, .ieee⟩
def fF16 : FFmt := ⟨5, 10, .ieee⟩
def fBF16 : FFmt := ⟨8, 7, .ieee⟩
def fE4M3 : FFmt := ⟨4, 3, .e4m3⟩
def fE5M2 : FFmt := ⟨5, 2, .ieee⟩
def fE2M1 : FFmt := ⟨2, 1, .none⟩

/-- The exponent bias (R49). -/
def FFmt.bias (F : FFmt) : Int := 2 ^ (F.eb - 1) - 1
/-- The width in bits. -/
def FFmt.bits (F : FFmt) : Nat := 1 + F.eb + F.mb
/-- The sign bit in place. -/
def FFmt.sign (F : FFmt) (s : Bool) : Nat := if s then 2 ^ (F.eb + F.mb) else 0

/-- The canonical NaN (R49). -/
def FFmt.cnan (F : FFmt) : Nat :=
  match F.top with
  | .ieee => (2 ^ F.eb - 1) * 2 ^ F.mb + 2 ^ (F.mb - 1)
  | .e4m3 => 0x7F
  | .none => 0

/-- The largest finite encoding, without sign (R49). -/
def FFmt.maxEnc (F : FFmt) : Nat :=
  match F.top with
  | .ieee => (2 ^ F.eb - 1) * 2 ^ F.mb - 1
  | .e4m3 => 0x7E
  | .none => 2 ^ (F.eb + F.mb) - 1

/-- Reads an encoding (R49). -/
def FFmt.dec (F : FFmt) (x : Nat) : FVal :=
  let s := x / 2 ^ (F.eb + F.mb) % 2 == 1
  let E := x / 2 ^ F.mb % 2 ^ F.eb
  let M := x % 2 ^ F.mb
  if F.top == .ieee && E == 2 ^ F.eb - 1 then (if M == 0 then .inf s else .nan)
  else if F.top == .e4m3 && E == 15 && M == 7 then .nan
  else if E == 0 then .fin s M (1 - F.bias - F.mb)
  else .fin s (2 ^ F.mb + M) (E - F.bias - F.mb)

/-- The number of significant bits of a natural number. -/
def bitLen (n : Nat) : Nat := if n = 0 then 0 else Nat.log2 n + 1

/-- Rounds m / 2^k to a natural number by the mode (R58: 0 nearest even, 1 towards zero, 2 up, 3 down) under a sign. -/
def roundShift (m k : Nat) (s : Bool) (rm : BitVec 2) : Nat :=
  let q := m / 2 ^ k
  let r := m % 2 ^ k
  let half := 2 ^ k / 2
  let up :=
    if r == 0 then false
    else if rm == 0 then r > half || (r == half && q % 2 == 1)
    else if rm == 1 then false
    else if rm == 2 then !s
    else s
  if up then q + 1 else q

/-- round_fmt (R58): an exact value rounded once to an encoding. -/
def FFmt.round (F : FFmt) (v : FVal) (rm : BitVec 2) (sat : Bool) : Nat :=
  match v with
  | .nan => F.cnan
  | .inf s =>
    if sat then F.sign s + F.maxEnc
    else match F.top with
      | .ieee => F.sign s + (2 ^ F.eb - 1) * 2 ^ F.mb
      | _ => F.cnan
  | .fin s m e =>
    if m == 0 then F.sign s
    else
      let emin : Int := 1 - F.bias - F.mb
      let e' : Int := max (e + bitLen m - (F.mb + 1)) emin
      let q := if e' ≤ e then m * 2 ^ (e - e').toNat else roundShift m (e' - e).toNat s rm
      let (q, e') := if q == 2 ^ (F.mb + 1) then (2 ^ F.mb, e' + 1) else (q, e')
      let enc : Nat := if q < 2 ^ F.mb then q else ((e' + F.bias + F.mb).toNat) * 2 ^ F.mb + (q - 2 ^ F.mb)
      if enc > F.maxEnc then
        if sat then F.sign s + F.maxEnc
        else if F.top != .ieee then F.cnan
        else if rm == 1 || (rm == 2 && s) || (rm == 3 && !s) then F.sign s + F.maxEnc
        else F.sign s + (2 ^ F.eb - 1) * 2 ^ F.mb
      else F.sign s + enc

/-- A signed integer times a power of two, with the sign a zero takes. -/
def FVal.ofInt (x : Int) (e : Int) (zs : Bool) : FVal :=
  if x == 0 then .fin zs 0 0 else .fin (x < 0) x.natAbs e

/-- The signed significand of a finite value at a smaller exponent. -/
def scaled (s : Bool) (m : Nat) (e e' : Int) : Int :=
  let v : Int := (m * 2 ^ (e - e').toNat : Nat)
  if s then -v else v

/-- Exact sum; the sign of a zero follows R58. -/
def FVal.add (a b : FVal) (rm : BitVec 2) : FVal :=
  match a, b with
  | .nan, _ => .nan
  | _, .nan => .nan
  | .inf s, .inf t => if s == t then .inf s else .nan
  | .inf s, _ => .inf s
  | _, .inf t => .inf t
  | .fin s m e, .fin t n f =>
    let e' := min e f
    let x := scaled s m e e' + scaled t n f e'
    FVal.ofInt x e' (if s == t then s else rm == 3)

/-- Negation. -/
def FVal.neg : FVal → FVal
  | .nan => .nan
  | .inf s => .inf (!s)
  | .fin s m e => .fin (!s) m e

/-- Absolute value. -/
def FVal.abs : FVal → FVal
  | .nan => .nan
  | .inf _ => .inf false
  | .fin _ m e => .fin false m e

/-- Exact product; 0 times an infinity is NaN (R119). -/
def FVal.mul (a b : FVal) : FVal :=
  match a, b with
  | .nan, _ => .nan
  | _, .nan => .nan
  | .inf s, .inf t => .inf (s != t)
  | .inf s, .fin t n _ => if n == 0 then .nan else .inf (s != t)
  | .fin s m _, .inf t => if m == 0 then .nan else .inf (s != t)
  | .fin s m e, .fin t n f => .fin (s != t) (m * n) (e + f)

/-- Ordered comparison of two values that are not NaN: negative, zero or positive as a is below, equal to or above b;
zeros compare equal. -/
def FVal.cmp (a b : FVal) : Int :=
  match a, b with
  | .nan, _ => 0
  | _, .nan => 0
  | .inf s, .inf t => if s == t then 0 else if s then -1 else 1
  | .inf s, .fin .. => if s then -1 else 1
  | .fin .., .inf t => if t then 1 else -1
  | .fin s m e, .fin t n f =>
    let e' := min e f
    scaled s m e e' - scaled t n f e'

/-- The sign bit of a value. -/
def FVal.isNeg : FVal → Bool
  | .nan => false
  | .inf s => s
  | .fin s _ _ => s

/-- Equality, less than, and at most (R51): false with a NaN. -/
def FVal.eq (a b : FVal) : Bool := a != .nan && b != .nan && FVal.cmp a b == 0
def FVal.lt (a b : FVal) : Bool := a != .nan && b != .nan && FVal.cmp a b < 0
def FVal.le (a b : FVal) : Bool := a != .nan && b != .nan && FVal.cmp a b ≤ 0

/-- The lesser (R51): NaN if either is NaN, -0 below +0. -/
def FVal.min (a b : FVal) : FVal :=
  if a == .nan || b == .nan then .nan
  else if FVal.cmp a b < 0 then a
  else if FVal.cmp a b > 0 then b
  else if a.isNeg then a else b

/-- The greater (R51). -/
def FVal.max (a b : FVal) : FVal :=
  if a == .nan || b == .nan then .nan
  else if FVal.cmp a b < 0 then b
  else if FVal.cmp a b > 0 then a
  else if a.isNeg then b else a

/-- A finite or infinite value rounded to an integer by the mode; none for NaN; an infinity gives a huge integer. -/
def FVal.toInt (v : FVal) (rm : BitVec 2) : Option Int :=
  match v with
  | .nan => none
  | .inf s => some (if s then -(2 ^ 200) else 2 ^ 200)
  | .fin s m e =>
    let q : Int := if e ≥ 0 then ((m * 2 ^ e.toNat : Nat) : Int) else ((roundShift m (-e).toNat s rm : Nat) : Int)
    some (if s then -q else q)

/-- The integer square root, one bit at a time. -/
def isqrt (n : Nat) : Nat → Nat → Nat
  | 0, r => r
  | i + 1, r => isqrt n i (if (r + 2 ^ i) * (r + 2 ^ i) ≤ n then r + 2 ^ i else r)

/-- A value between q and q + 1 units (or q exactly), kept exact enough for any rounding (log 13). -/
def stickyVal (s : Bool) (q : Nat) (e : Int) (exact : Bool) : FVal :=
  .fin s (2 * q + (if exact then 0 else 1)) (e - 1)

/-- 1 / a (R123). -/
def FVal.rcp : FVal → FVal
  | .nan => .nan
  | .inf s => .fin s 0 0
  | .fin s m e =>
    if m == 0 then .inf s
    else
      let k := bitLen m + 200
      stickyVal s (2 ^ k / m) (-(k : Int) - e) (2 ^ k % m == 0)

/-- 1 / sqrt a (R123). -/
def FVal.rsq : FVal → FVal
  | .nan => .nan
  | .inf s => if s then .nan else .fin false 0 0
  | .fin s m e =>
    if m == 0 then .inf s
    else if s then .nan
    else
      let (m, e) := if e % 2 == 0 then (m, e) else (2 * m, e - 1)
      let n := 2 ^ 600 / m
      let r := isqrt n 301 0
      stickyVal false r (-300 - e / 2) (r * r * m == 2 ^ 600)

/-- The product of 2^(2^-i) over the set bits of a fraction of `len` bits, in 320 fractional bits. -/
def exp2Frac (frac : Nat) : Nat → Nat → Nat → Nat
  | 0, _, acc => acc
  | len + 1, r, acc =>
    let r' := isqrt (r * 2 ^ 320) 322 0
    exp2Frac frac len r' (if frac / 2 ^ len % 2 == 1 then acc * r' / 2 ^ 320 else acc)

/-- 2^a (R123, log 13). -/
def FVal.exp2 : FVal → FVal
  | .nan => .nan
  | .inf s => if s then .fin false 0 0 else .inf false
  | .fin s m e =>
    if m == 0 then .fin false 1 0
    else if e + bitLen m > 20 then .fin false 1 (if s then -(2 ^ 20) else 2 ^ 20)
    else if e ≥ 0 then .fin false 1 (scaled s m e 0)
    else
      let len := (-e).toNat
      let x : Int := if s then -(m : Int) else (m : Int)
      let n := x / 2 ^ len
      let f := (x % 2 ^ len).toNat
      if f == 0 then .fin false 1 n
      else stickyVal false (exp2Frac f len (2 * 2 ^ 320) (2 ^ 320)) (n - 320) false

/-- The fraction bits of log2 of a number in [1, 2) held in 512 fractional bits. -/
def log2Frac : Nat → Nat → Nat → Nat
  | 0, _, acc => acc
  | n + 1, y, acc =>
    let y := y * y / 2 ^ 512
    if y ≥ 2 ^ 513 then log2Frac n (y / 2) (2 * acc + 1) else log2Frac n y (2 * acc)

/-- log2 a (R123, log 13). -/
def FVal.log2 : FVal → FVal
  | .nan => .nan
  | .inf s => if s then .nan else .inf false
  | .fin s m e =>
    if m == 0 then .inf true
    else if s then .nan
    else
      let k := bitLen m - 1
      let E : Int := e + k
      if m == 2 ^ k then FVal.ofInt E 0 false
      else
        let t : Int := E * 2 ^ 200 + (log2Frac 200 (m * 2 ^ (512 - k)) 0 : Nat)
        FVal.ofInt (2 * t + 1) (-201) false

/-- decode_e5m3 (R52). -/
def decE5M3 (b : Nat) : FVal :=
  if b == 0xFF then .nan
  else if b == 0xFE then .inf false
  else
    let e := b / 8; let m := b % 8
    if e == 0 then .fin false m (-17) else .fin false (8 + m) (e - 18)

/-- decode_dx (R52): sign, selector, magnitude, log2 of mdiv, the two scales. -/
def decDx (s : Bool) (l : Bool) (m : Nat) (lg : Nat) (sc0 sc1 : Nat) : FVal :=
  let sc := decE5M3 (if l then sc1 else sc0)
  if s && m == 0 then .nan
  else match sc with
    | .nan => .nan
    | .inf _ => if m == 0 then .nan else .inf s
    | .fin _ q e => .fin s (q * m) (e - lg)

/-- decode_dx8 and decode_dx4 (R52). -/
def decDx8 (x sc0 sc1 : Nat) : FVal := decDx (x / 128 % 2 == 1) (x / 64 % 2 == 1) (x % 64) 6 sc0 sc1
def decDx4 (x sc0 sc1 : Nat) : FVal := decDx (x / 8 % 2 == 1) (x / 4 % 2 == 1) (x % 4) 2 sc0 sc1

/-- decode_mx of a non-void block (R54): element format, element, scale. -/
def decMx (F : FFmt) (x b : Nat) : FVal :=
  if b == 0xFF then .nan
  else match F.dec x with
    | .nan => .nan
    | .inf s => .inf s
    | .fin s m e => .fin s m (e + b - 127)

/-- Whether a code of R57 is a block format (R52, R54). -/
def fmtBlocked (f : Nat) : Bool := 10 ≤ f && f ≤ 14
/-- Whether a block format's elements take 4 bits (R52, R54). -/
def fmtNibble (f : Nat) : Bool := f == 12 || f == 14
/-- Whether a code is an MX format, whose blocks have one scale byte (R54). -/
def fmtMx (f : Nat) : Bool := 10 ≤ f && f ≤ 12

/-- Whether a block is void (R53, R55): format, skip-marked mode, the two scale bytes. -/
def blockVoid (f : Nat) (skip : Bool) (sc : Nat) : Bool :=
  if f == 13 || f == 14 then sc % 65536 == 0
  else if fmtMx f then skip && sc % 256 == 0
  else false

/-- An element of a matrix or stream format (R52, R54, R57): code, element bits, scale bytes. -/
def decElem (f : Nat) (x sc : Nat) : FVal :=
  match f with
  | 5 => fF32.dec x
  | 6 => fF16.dec x
  | 7 => fBF16.dec x
  | 8 => fE4M3.dec x
  | 9 => fE5M2.dec x
  | 10 => decMx fE4M3 x (sc % 256)
  | 11 => decMx fE5M2 x (sc % 256)
  | 12 => decMx fE2M1 x (sc % 256)
  | 13 => decDx8 x (sc % 256) (sc / 256 % 256)
  | 14 => decDx4 x (sc % 256) (sc / 256 % 256)
  | _ => .fin false 0 0

/-- F32 addition and fused multiply-add rounded to nearest even (R60). -/
def f32add (a b : BitVec 32) : BitVec 32 :=
  BitVec.ofNat 32 (fF32.round ((fF32.dec a.toNat).add (fF32.dec b.toNat) 0) 0 false)
def f32fma (w v acc : BitVec 32) : BitVec 32 :=
  BitVec.ofNat 32 (fF32.round (((fF32.dec w.toNat).mul (fF32.dec v.toNat)).add (fF32.dec acc.toNat) 0) 0 false)
/-- BF16 addition rounded to nearest even (R172). -/
def bf16add (a b : BitVec 16) : BitVec 16 :=
  BitVec.ofNat 16 (fBF16.round ((fBF16.dec a.toNat).add (fBF16.dec b.toNat) 0) 0 false)

/-- hash_lane (R61). -/
def hashLane (x : BitVec 32) : BitVec 32 :=
  let h := x * 0x9E3779B1#32
  let h := h ^^^ (h >>> 15)
  let h := h * 0x85EBCA77#32
  h ^^^ (h >>> 13)

/-- One bit of a CRC-32C step (R61). -/
def crcBit (c : BitVec 32) : BitVec 32 :=
  if c.getLsbD 0 then (c >>> 1) ^^^ 0x82F63B78#32 else c >>> 1
/-- One byte of a CRC-32C step (R61). -/
def crcByte (c : BitVec 32) (b : BitVec 8) : BitVec 32 :=
  (List.range 8).foldl (fun c _ => crcBit c) (c ^^^ b.zeroExtend 32)
/-- hash_crc (R61): one step over the four bytes of x. -/
def hashCrc (c x : BitVec 32) : BitVec 32 :=
  crcByte (crcByte (crcByte (crcByte c (x.extractLsb' 0 8)) (x.extractLsb' 8 8)) (x.extractLsb' 16 8)) (x.extractLsb' 24 8)

/-- hash_fold (R61). -/
def hashFold (x : BitVec 32) : BitVec 32 := x ^^^ (x >>> 16)

end Sys2Proof.Machine
end

