-- ==== Sys2Proof/Config.lean ====
section
/-! DEFINITION. What an implementation fixes and the free values: constants without a body, of which nothing can be
proved but that they have a value. Each is named in the assumption log. -/

namespace Sys2Proof.Config

/-- The value of a register that R35 leaves unspecified at a firing's entry; applied to the counter State.freeCtr. -/
opaque freeWord : Nat → BitVec 64
/-- The SPANID of a task of a device launch, by the free number that its graph's placement drew and the task's coordinates (R272,
R389 give none). -/
opaque freeSpan : Nat → Nat → Nat → BitVec 64
/-- The victim way of a full set of the cell data cache (R156 gives the two ways and no choice between them). -/
opaque freeWay : Nat → Bool
/-- The set of a translation cache that an entry of a tensor's chunk takes, by the cache's count of sets (R259 gives the ways
and no index). -/
opaque tlbSet : Nat → Nat → Nat → Nat
/-- A byte of a destination that overlaps its source's frames through two tensors (R177: unspecified), or that a
suppressed read returns (R295, R304: no value stated). -/
opaque freeByte : Nat → BitVec 8
/-- Whether a vector is raised for a watch written on the tick of its stamp (R350: may or may not). -/
opaque freeBool : Nat → Bool
/-- SHA-512 of a byte string (R81, R84, R357, R360 name the function; spec/ does not define it). -/
opaque sha512 : List Byte → BitVec 512
/-- Ed25519 verification: key, 64-byte message digest, signature (R84 names it; spec/ does not define it). -/
opaque ed25519Verify : BitVec 256 → BitVec 512 → BitVec 512 → Bool
/-- Ed25519 signing by the device identity key inside the headframe (R360). -/
opaque identitySign : BitVec 512 → BitVec 512
/-- The running firmware's digest (R360). -/
opaque firmwareDigest : BitVec 512
/-- The fuse record's digest, given the defect masks (R360). -/
opaque fuseDigest : List (Nat × BitVec 64) → BitVec 512
/-- The headframe error code of a partition fence record (R340: DETAIL of TYPE 11, no code listed). -/
opaque fenceCode : Nat → BitVec 64
/-- The bytes of a section of a state dump, by its type and unit number (R342 gives the order of its items and no layout). -/
opaque sectionBytes : Nat → Nat → Nat

end Sys2Proof.Config
end

