-- ==== Sys2Proof/WellFormed.lean ====
section
/-! DEFINITION. Which instruction terms stand for valid words: the checks of R68, R71, R74, R116, R137, R141, R144, R235,
R238, R244, R249, R251 and R255. A control word has no check here: a bad operand of one traps when it issues (R65). -/

namespace Sys2Proof

/-- A destination code that R68 assigns: an element slot, a local port, or no destination. -/
def destOk (c : BitVec 6) : Bool := c.toNat ≤ 0x33 || c == 0x3F

/-- Both destination codes are assigned, and DSTA is not left out where DSTB is given (R68). -/
def destsOk (a b : BitVec 6) : Bool := destOk a && destOk b && !(a == 0x3F && b != 0x3F)

/-- TY is a floating type: F32, BF16 or F16 (R116). -/
def tyFloat (t : BitVec 3) : Bool := t == 1 || t == 2 || t == 3

/-- TY is one of I32, F32, BF16, F16, BYTE, I16 (R116, first row). -/
def tyArith (t : BitVec 3) : Bool := t != 4 && t != 5

/-- TY is one of I32, BYTE, I16 (R116, shifts). -/
def tyInt (t : BitVec 3) : Bool := t == 0 || t == 6 || t == 7

/-- SHAPE is assigned (R71). -/
def shapeOk (h : BitVec 2) : Bool := h != 3

/-- A general arithmetic word: type of R116's first row, RM only with a floating type, assigned shape and destinations. -/
def arithOk (ty : BitVec 3) (rm : BitVec 2) (sh : BitVec 2) (da db : BitVec 6) : Bool :=
  tyArith ty && (tyFloat ty || rm == 0) && shapeOk sh && destsOk da db

/-- A word of floating types only (VFMA and the transcendental words, R116). -/
def floatOk (ty : BitVec 3) (sh : BitVec 2) (da db : BitVec 6) : Bool :=
  tyFloat ty && shapeOk sh && destsOk da db

/-- A word of any type without RM or SAT (R116). -/
def plainOk (sh : BitVec 2) (da db : BitVec 6) : Bool := shapeOk sh && destsOk da db

/-- A format of R140, by its code of R57. -/
def matrixFmt (f : Nat) : Bool := 6 ≤ f && f ≤ 14

/-- A REDUCE word's fields agree with R251. -/
def reduceOk (f32 sat vec vsrc grain zeros : BitVec 1) : Bool :=
  !(sat == 1 && f32 == 1) && !(vec == 1 && vsrc == 1) && !(grain == 1 && zeros == 1)

/-- A well-formed instruction term. -/
def Instr.wf : Instr → Bool
  | .vadd ty rm _ sh da db | .vsub ty rm _ sh da db | .vmul ty rm _ sh da db => arithOk ty rm sh da db
  | .vmin ty rm sh da db | .vmax ty rm sh da db => arithOk ty rm sh da db
  | .vnegNeg ty rm _ sh da db | .vnegAbs ty rm _ sh da db => arithOk ty rm sh da db
  | .vfma ty _ _ sh da db | .vrcp ty _ _ sh da db | .vrsq ty _ _ sh da db => floatOk ty sh da db
  | .vexp2 ty _ _ sh da db | .vlog2 ty _ _ sh da db => floatOk ty sh da db
  | .vand _ sh da db | .vor _ sh da db | .vxor _ sh da db | .vsel _ sh da db => plainOk sh da db
  | .vmov _ sh da db | .vconst _ sh _ da db => plainOk sh da db
  | .vshl ty sh da db | .vshrL ty sh da db | .vshrA ty sh da db => tyInt ty && plainOk sh da db
  | .vcmpEq ty sh da db | .vcmpNe ty sh da db => tyArith ty && plainOk sh da db
  | .vcmpLt ty sh da db | .vcmpLe ty sh da db => tyArith ty && plainOk sh da db
  | .vcvt _ _ _ sh da db => plainOk sh da db
  | .vsumAdd ty rm _ sh da db => arithOk ty rm sh da db && sh != 0
  | .vsumMin ty rm sh da db | .vsumMax ty rm sh da db => arithOk ty rm sh da db && sh != 0
  | .vshuf _ sh da db => plainOk sh da db && sh != 0
  | .vbcmp sh da db | .vbeqm sh da db => plainOk sh da db
  | .vhashLane sh da db | .vhashCrc sh da db | .vhashFold sh da db => plainOk sh da db
  | .eld _ sh _ da db | .est _ sh da db => plainOk sh da db
  | .hprobe da db | .hins da db => destsOk da db
  | .ecfg da => da.toNat < 0x10 || (0x30 ≤ da.toNat && da.toNat ≤ 0x33)
  | .scanD tv vf _ => vf != 0 || tv == 0
  | .scanC _ _ tv vf _ | .scanB _ _ tv vf _ => vf != 0 || tv == 0
  | .isect osel _ _ _ _ | .union osel _ => osel.toNat < 2
  | .rept newat span => span == 0 || newat == 0
  | .reduceSum f32 sat vec vsrc grain zeros => reduceOk f32 sat vec vsrc grain zeros
  | .reduceMin f32 vec vsrc grain zeros | .reduceMax f32 vec vsrc grain zeros => reduceOk f32 0 vec vsrc grain zeros
  | .reduceOr vec vsrc grain zeros => reduceOk 0 0 vec vsrc grain zeros
  | .reduceTopk _ _ topk => 1 ≤ topk.toNat && topk.toNat ≤ 256
  | .reduceWsum f32 sat vec vsrc wsrc grain zeros =>
    reduceOk f32 sat vec vsrc grain zeros && (wsrc == 0 || (vsrc == 1 && vec == 0))
  | .lwriteD _ vw => vw != 0
  | .lwriteC _ _ tv vw | .lwriteB _ _ tv vw => vw != 0 || tv == 0
  | .mload src dir tile wfmt mxm =>
    if src == 0 then wfmt == 0 && mxm == 0 else dir == 0 && tile == 0 && matrixFmt wfmt.toNat
  | .mstream afmt _ => matrixFmt afmt.toNat
  | .route _ mask _ => mask != 0
  | .routeB _ mask => mask != 0
  | .fork _ mask => mask != 0
  | .abut _ _ scope cls => scope != 7 && cls != 7
  | _ => true

end Sys2Proof
end

