-- ==== Sys2Proof/Decode.lean ====
section
/-! DEFINITION. The decoder of the three word classes (R62-R74) and the encoder, written from the encoding tables of
R63, R66, R67, R70 and R72. Decoding is total: a word that is no instruction of its class gives none. -/

namespace Sys2Proof

/-- What an operation word is: a step of the table, or one of the two matrix words that act inside other steps. -/
inductive OpWord where
  /-- A word with a row of its own. -/
  | instr (i : Instr)
  /-- ACCN (R147): COUNT. -/
  | accn (count : BitVec 8)
  /-- MSCALE (R149): multiplier constant, bias enable, bias constant. -/
  | mscale (mk : BitVec 3) (be : BitVec 1) (bk : BitVec 3)
  deriving DecidableEq, Repr

/-- What a switch word is: a step of the table, or one of the two words that act inside LINK_TOKEN_TRANSFER. -/
inductive SwWord where
  /-- A word with a row of its own. -/
  | instr (i : Instr)
  /-- TAP (R228): port and trace id. -/
  | tap (port : BitVec 3) (id : BitVec 9)
  /-- CLRR (R229). -/
  | clrr
  deriving DecidableEq, Repr

/-- The control word of R66, before any check: the form selectors and the unused fields of R65. -/
def rawControl (w : BitVec 32) : Option Instr :=
  match (w.extractLsb' 25 7).toNat with
  | 0 => some (.ill (w.extractLsb' 0 25))
  | 1 => if w.extractLsb' 0 25 == 0#25 then some (.nop)
    else none
  | 2 => if w.extractLsb' 0 10 == 0#10 then some (.addReg (w.extractLsb' 20 5) (w.extractLsb' 15 5) (w.extractLsb' 10 5))
    else none
  | 3 => some (.addImm (w.extractLsb' 20 5) (w.extractLsb' 15 5) (w.extractLsb' 0 15))
  | 4 => if w.extractLsb' 0 10 == 0#10 then some (.sub (w.extractLsb' 20 5) (w.extractLsb' 15 5) (w.extractLsb' 10 5))
    else none
  | 5 => if w.extractLsb' 0 10 == 0#10 then some (.mulLo (w.extractLsb' 20 5) (w.extractLsb' 15 5) (w.extractLsb' 10 5))
    else if w.extractLsb' 0 10 == 1#10 then some (.mulHs (w.extractLsb' 20 5) (w.extractLsb' 15 5) (w.extractLsb' 10 5))
    else if w.extractLsb' 0 10 == 2#10 then some (.mulHu (w.extractLsb' 20 5) (w.extractLsb' 15 5) (w.extractLsb' 10 5))
    else none
  | 6 => if w.extractLsb' 0 10 == 0#10 then some (.divS (w.extractLsb' 20 5) (w.extractLsb' 15 5) (w.extractLsb' 10 5))
    else if w.extractLsb' 0 10 == 1#10 then some (.divU (w.extractLsb' 20 5) (w.extractLsb' 15 5) (w.extractLsb' 10 5))
    else none
  | 7 => if w.extractLsb' 0 10 == 0#10 then some (.remS (w.extractLsb' 20 5) (w.extractLsb' 15 5) (w.extractLsb' 10 5))
    else if w.extractLsb' 0 10 == 1#10 then some (.remU (w.extractLsb' 20 5) (w.extractLsb' 15 5) (w.extractLsb' 10 5))
    else none
  | 8 => if w.extractLsb' 0 10 == 0#10 then some (.andReg (w.extractLsb' 20 5) (w.extractLsb' 15 5) (w.extractLsb' 10 5))
    else none
  | 9 => some (.andImm (w.extractLsb' 20 5) (w.extractLsb' 15 5) (w.extractLsb' 0 15))
  | 10 => if w.extractLsb' 0 10 == 0#10 then some (.orReg (w.extractLsb' 20 5) (w.extractLsb' 15 5) (w.extractLsb' 10 5))
    else none
  | 11 => some (.orImm (w.extractLsb' 20 5) (w.extractLsb' 15 5) (w.extractLsb' 0 15))
  | 12 => if w.extractLsb' 0 10 == 0#10 then some (.xorReg (w.extractLsb' 20 5) (w.extractLsb' 15 5) (w.extractLsb' 10 5))
    else none
  | 13 => some (.xorImm (w.extractLsb' 20 5) (w.extractLsb' 15 5) (w.extractLsb' 0 15))
  | 14 => if w.extractLsb' 0 10 == 0#10 then some (.shlR (w.extractLsb' 20 5) (w.extractLsb' 15 5) (w.extractLsb' 10 5))
    else if w.extractLsb' 10 5 == 0#5 && w.extractLsb' 0 4 == 1#4 then some (.shlI (w.extractLsb' 20 5) (w.extractLsb' 15 5) (w.extractLsb' 4 6))
    else none
  | 15 => if w.extractLsb' 0 10 == 0#10 then some (.shrLr (w.extractLsb' 20 5) (w.extractLsb' 15 5) (w.extractLsb' 10 5))
    else if w.extractLsb' 10 5 == 0#5 && w.extractLsb' 0 4 == 1#4 then some (.shrLi (w.extractLsb' 20 5) (w.extractLsb' 15 5) (w.extractLsb' 4 6))
    else if w.extractLsb' 0 10 == 2#10 then some (.shrAr (w.extractLsb' 20 5) (w.extractLsb' 15 5) (w.extractLsb' 10 5))
    else if w.extractLsb' 10 5 == 0#5 && w.extractLsb' 0 4 == 3#4 then some (.shrAi (w.extractLsb' 20 5) (w.extractLsb' 15 5) (w.extractLsb' 4 6))
    else none
  | 16 => if w.extractLsb' 0 10 == 0#10 then some (.minS (w.extractLsb' 20 5) (w.extractLsb' 15 5) (w.extractLsb' 10 5))
    else if w.extractLsb' 0 10 == 1#10 then some (.minU (w.extractLsb' 20 5) (w.extractLsb' 15 5) (w.extractLsb' 10 5))
    else none
  | 17 => if w.extractLsb' 0 10 == 0#10 then some (.maxS (w.extractLsb' 20 5) (w.extractLsb' 15 5) (w.extractLsb' 10 5))
    else if w.extractLsb' 0 10 == 1#10 then some (.maxU (w.extractLsb' 20 5) (w.extractLsb' 15 5) (w.extractLsb' 10 5))
    else none
  | 18 => if w.extractLsb' 23 2 == 0#2 && w.extractLsb' 0 10 == 0#10 then some (.cmpEq (w.extractLsb' 20 3) (w.extractLsb' 15 5) (w.extractLsb' 10 5))
    else if w.extractLsb' 23 2 == 0#2 && w.extractLsb' 0 10 == 1#10 then some (.cmpNe (w.extractLsb' 20 3) (w.extractLsb' 15 5) (w.extractLsb' 10 5))
    else if w.extractLsb' 23 2 == 0#2 && w.extractLsb' 0 10 == 2#10 then some (.cmpLt (w.extractLsb' 20 3) (w.extractLsb' 15 5) (w.extractLsb' 10 5))
    else if w.extractLsb' 23 2 == 0#2 && w.extractLsb' 0 10 == 3#10 then some (.cmpLe (w.extractLsb' 20 3) (w.extractLsb' 15 5) (w.extractLsb' 10 5))
    else if w.extractLsb' 23 2 == 0#2 && w.extractLsb' 0 10 == 4#10 then some (.cmpLtu (w.extractLsb' 20 3) (w.extractLsb' 15 5) (w.extractLsb' 10 5))
    else if w.extractLsb' 23 2 == 0#2 && w.extractLsb' 0 10 == 5#10 then some (.cmpLeu (w.extractLsb' 20 3) (w.extractLsb' 15 5) (w.extractLsb' 10 5))
    else none
  | 20 => if w.extractLsb' 8 2 == 0#2 && w.extractLsb' 0 4 == 0#4 then some (.sel (w.extractLsb' 20 5) (w.extractLsb' 15 5) (w.extractLsb' 10 5) (w.extractLsb' 7 1) (w.extractLsb' 4 3))
    else none
  | 21 => some (.ldi (w.extractLsb' 20 5) (w.extractLsb' 0 20))
  | 22 => if w.extractLsb' 0 15 == 0#15 then some (.bitcClz (w.extractLsb' 20 5) (w.extractLsb' 15 5))
    else if w.extractLsb' 0 15 == 1#15 then some (.bitcCtz (w.extractLsb' 20 5) (w.extractLsb' 15 5))
    else if w.extractLsb' 0 15 == 2#15 then some (.bitcPopc (w.extractLsb' 20 5) (w.extractLsb' 15 5))
    else none
  | 23 => if w.extractLsb' 12 3 == 0#3 then some (.extr (w.extractLsb' 20 5) (w.extractLsb' 15 5) (w.extractLsb' 6 6) (w.extractLsb' 0 6))
    else none
  | 24 => if w.extractLsb' 12 3 == 0#3 then some (.insr (w.extractLsb' 20 5) (w.extractLsb' 15 5) (w.extractLsb' 6 6) (w.extractLsb' 0 6))
    else none
  | 25 => if w.extractLsb' 8 2 == 0#2 && w.extractLsb' 0 4 == 0#4 then some (.ixa (w.extractLsb' 20 5) (w.extractLsb' 15 5) (w.extractLsb' 10 5) (w.extractLsb' 7 1) (w.extractLsb' 4 3))
    else none
  | 26 => if w.extractLsb' 23 2 == 0#2 && w.extractLsb' 18 2 == 0#2 && w.extractLsb' 13 2 == 0#2 && w.extractLsb' 0 10 == 0#10 then some (.plogAnd (w.extractLsb' 20 3) (w.extractLsb' 15 3) (w.extractLsb' 10 3))
    else if w.extractLsb' 23 2 == 0#2 && w.extractLsb' 18 2 == 0#2 && w.extractLsb' 13 2 == 0#2 && w.extractLsb' 0 10 == 1#10 then some (.plogOr (w.extractLsb' 20 3) (w.extractLsb' 15 3) (w.extractLsb' 10 3))
    else if w.extractLsb' 23 2 == 0#2 && w.extractLsb' 18 2 == 0#2 && w.extractLsb' 13 2 == 0#2 && w.extractLsb' 0 10 == 2#10 then some (.plogXor (w.extractLsb' 20 3) (w.extractLsb' 15 3) (w.extractLsb' 10 3))
    else if w.extractLsb' 23 2 == 0#2 && w.extractLsb' 18 2 == 0#2 && w.extractLsb' 13 2 == 0#2 && w.extractLsb' 0 10 == 3#10 then some (.plogAndn (w.extractLsb' 20 3) (w.extractLsb' 15 3) (w.extractLsb' 10 3))
    else none
  | 27 => if w.extractLsb' 0 15 == 0#15 then some (.hashsLane (w.extractLsb' 20 5) (w.extractLsb' 15 5))
    else if w.extractLsb' 0 10 == 1#10 then some (.hashsCrc (w.extractLsb' 20 5) (w.extractLsb' 15 5) (w.extractLsb' 10 5))
    else if w.extractLsb' 0 15 == 2#15 then some (.hashsFold (w.extractLsb' 20 5) (w.extractLsb' 15 5))
    else none
  | 32 => some (.br (w.extractLsb' 22 3) (w.extractLsb' 21 1) (w.extractLsb' 0 21))
  | 33 => some (.jmp (w.extractLsb' 0 25))
  | 34 => some (.jal (w.extractLsb' 0 25))
  | 35 => if w.extractLsb' 20 5 == 0#5 && w.extractLsb' 0 15 == 0#15 then some (.jr (w.extractLsb' 15 5))
    else none
  | 36 => if w.extractLsb' 20 5 == 0#5 && w.extractLsb' 6 9 == 0#9 then some (.loopH (w.extractLsb' 15 5) (w.extractLsb' 0 6))
    else none
  | 37 => if w.extractLsb' 0 25 == 0#25 then some (.fend)
    else none
  | 40 => if w.extractLsb' 12 3 == 0#3 then some (.ldB (w.extractLsb' 20 5) (w.extractLsb' 15 5) (w.extractLsb' 0 12))
    else if w.extractLsb' 12 3 == 1#3 then some (.ldBu (w.extractLsb' 20 5) (w.extractLsb' 15 5) (w.extractLsb' 0 12))
    else if w.extractLsb' 12 3 == 2#3 then some (.ldH (w.extractLsb' 20 5) (w.extractLsb' 15 5) (w.extractLsb' 0 12))
    else if w.extractLsb' 12 3 == 3#3 then some (.ldHu (w.extractLsb' 20 5) (w.extractLsb' 15 5) (w.extractLsb' 0 12))
    else if w.extractLsb' 12 3 == 4#3 then some (.ldW (w.extractLsb' 20 5) (w.extractLsb' 15 5) (w.extractLsb' 0 12))
    else if w.extractLsb' 12 3 == 5#3 then some (.ldWu (w.extractLsb' 20 5) (w.extractLsb' 15 5) (w.extractLsb' 0 12))
    else if w.extractLsb' 12 3 == 6#3 then some (.ldD (w.extractLsb' 20 5) (w.extractLsb' 15 5) (w.extractLsb' 0 12))
    else none
  | 41 => if w.extractLsb' 12 3 == 0#3 then some (.stB (w.extractLsb' 20 5) (w.extractLsb' 15 5) (w.extractLsb' 0 12))
    else if w.extractLsb' 12 3 == 2#3 then some (.stH (w.extractLsb' 20 5) (w.extractLsb' 15 5) (w.extractLsb' 0 12))
    else if w.extractLsb' 12 3 == 4#3 then some (.stW (w.extractLsb' 20 5) (w.extractLsb' 15 5) (w.extractLsb' 0 12))
    else if w.extractLsb' 12 3 == 6#3 then some (.stD (w.extractLsb' 20 5) (w.extractLsb' 15 5) (w.extractLsb' 0 12))
    else none
  | 42 => if w.extractLsb' 0 10 == 0#10 then some (.aaddW (w.extractLsb' 20 5) (w.extractLsb' 15 5) (w.extractLsb' 10 5))
    else if w.extractLsb' 0 10 == 1#10 then some (.aaddD (w.extractLsb' 20 5) (w.extractLsb' 15 5) (w.extractLsb' 10 5))
    else none
  | 43 => if w.extractLsb' 0 10 == 0#10 then some (.aminS (w.extractLsb' 20 5) (w.extractLsb' 15 5) (w.extractLsb' 10 5))
    else if w.extractLsb' 0 10 == 1#10 then some (.aminU (w.extractLsb' 20 5) (w.extractLsb' 15 5) (w.extractLsb' 10 5))
    else none
  | 44 => if w.extractLsb' 0 10 == 0#10 then some (.amaxS (w.extractLsb' 20 5) (w.extractLsb' 15 5) (w.extractLsb' 10 5))
    else if w.extractLsb' 0 10 == 1#10 then some (.amaxU (w.extractLsb' 20 5) (w.extractLsb' 15 5) (w.extractLsb' 10 5))
    else none
  | 45 => if w.extractLsb' 0 10 == 0#10 then some (.alogAnd (w.extractLsb' 20 5) (w.extractLsb' 15 5) (w.extractLsb' 10 5))
    else if w.extractLsb' 0 10 == 1#10 then some (.alogOr (w.extractLsb' 20 5) (w.extractLsb' 15 5) (w.extractLsb' 10 5))
    else if w.extractLsb' 0 10 == 2#10 then some (.alogXor (w.extractLsb' 20 5) (w.extractLsb' 15 5) (w.extractLsb' 10 5))
    else none
  | 46 => if w.extractLsb' 0 10 == 0#10 then some (.axch (w.extractLsb' 20 5) (w.extractLsb' 15 5) (w.extractLsb' 10 5))
    else none
  | 47 => if w.extractLsb' 0 10 == 0#10 then some (.acas (w.extractLsb' 20 5) (w.extractLsb' 15 5) (w.extractLsb' 10 5))
    else none
  | 48 => if w.extractLsb' 0 10 == 0#10 then some (.afaddF32 (w.extractLsb' 20 5) (w.extractLsb' 15 5) (w.extractLsb' 10 5))
    else if w.extractLsb' 0 10 == 1#10 then some (.afaddBf16x2 (w.extractLsb' 20 5) (w.extractLsb' 15 5) (w.extractLsb' 10 5))
    else none
  | 52 => if w.extractLsb' 5 10 == 0#10 then some (.take (w.extractLsb' 20 5) (w.extractLsb' 15 5) (w.extractLsb' 4 1) (w.extractLsb' 2 2) (w.extractLsb' 0 2))
    else none
  | 53 => if w.extractLsb' 8 7 == 0#7 then some (.peek (w.extractLsb' 20 5) (w.extractLsb' 15 5) (w.extractLsb' 5 3) (w.extractLsb' 4 1) (w.extractLsb' 2 2) (w.extractLsb' 0 2))
    else none
  | 54 => if w.extractLsb' 2 13 == 0#13 then some (.emit (w.extractLsb' 20 5) (w.extractLsb' 15 5) (w.extractLsb' 0 2))
    else none
  | 55 => if w.extractLsb' 2 8 == 0#8 then some (.emits (w.extractLsb' 20 5) (w.extractLsb' 15 5) (w.extractLsb' 10 5) (w.extractLsb' 0 2))
    else none
  | 56 => some (.copy (w.extractLsb' 20 5) (w.extractLsb' 15 5) (w.extractLsb' 10 5) (w.extractLsb' 9 1) (w.extractLsb' 8 1) (w.extractLsb' 7 1) (w.extractLsb' 4 3) (w.extractLsb' 3 1) (w.extractLsb' 2 1) (w.extractLsb' 0 2))
  | 57 => if w.extractLsb' 6 9 == 0#9 then some (.fillContiguous (w.extractLsb' 20 5) (w.extractLsb' 15 5) (w.extractLsb' 0 6))
    else if w.extractLsb' 6 4 == 1#4 then some (.fillGather (w.extractLsb' 20 5) (w.extractLsb' 15 5) (w.extractLsb' 10 5) (w.extractLsb' 0 6))
    else none
  | 58 => some (.wbind (w.extractLsb' 20 5) (w.extractLsb' 15 5) (w.extractLsb' 10 5) (w.extractLsb' 0 10))
  | 59 => if w.extractLsb' 20 5 == 0#5 && w.extractLsb' 0 15 == 0#15 then some (.wfree (w.extractLsb' 15 5))
    else none
  | 60 => if w.extractLsb' 12 3 == 6#3 then some (.marm (w.extractLsb' 20 5) (w.extractLsb' 15 5) (w.extractLsb' 0 12))
    else none
  | 61 => if w.extractLsb' 0 20 == 0#20 then some (.mwait (w.extractLsb' 20 5))
    else none
  | 62 => if w.extractLsb' 3 22 == 1#22 then some (.fenceRel (w.extractLsb' 0 3))
    else if w.extractLsb' 3 22 == 2#22 then some (.fenceAcq (w.extractLsb' 0 3))
    else if w.extractLsb' 3 22 == 3#22 then some (.fenceFull (w.extractLsb' 0 3))
    else none
  | 63 => if w.extractLsb' 9 16 == 0#16 then some (.xfence (w.extractLsb' 6 3) (w.extractLsb' 3 3) (w.extractLsb' 0 3))
    else none
  | 64 => if w.extractLsb' 3 12 == 0#12 then some (.bar (w.extractLsb' 20 5) (w.extractLsb' 15 5) (w.extractLsb' 0 3))
    else none
  | 65 => if w.extractLsb' 0 10 == 0#10 then some (.tileClaim (w.extractLsb' 20 5) (w.extractLsb' 15 5) (w.extractLsb' 10 5))
    else if w.extractLsb' 0 10 == 1#10 then some (.tileReady (w.extractLsb' 20 5) (w.extractLsb' 15 5) (w.extractLsb' 10 5))
    else if w.extractLsb' 0 15 == 2#15 then some (.tileDrain (w.extractLsb' 20 5) (w.extractLsb' 15 5))
    else if w.extractLsb' 0 15 == 3#15 then some (.tileFree (w.extractLsb' 20 5) (w.extractLsb' 15 5))
    else if w.extractLsb' 0 15 == 4#15 then some (.tileQuery (w.extractLsb' 20 5) (w.extractLsb' 15 5))
    else none
  | 66 => if w.extractLsb' 0 15 == 0#15 then some (.launch (w.extractLsb' 20 5) (w.extractLsb' 15 5))
    else none
  | 67 => if w.extractLsb' 0 10 == 0#10 then some (.rlaunch (w.extractLsb' 20 5) (w.extractLsb' 15 5) (w.extractLsb' 10 5))
    else none
  | 68 => if w.extractLsb' 0 15 == 0#15 then some (.regionAdd (w.extractLsb' 20 5) (w.extractLsb' 15 5))
    else if w.extractLsb' 20 5 == 0#5 && w.extractLsb' 0 10 == 1#10 then some (.regionShrink (w.extractLsb' 15 5) (w.extractLsb' 10 5))
    else if w.extractLsb' 6 9 == 0#9 && w.extractLsb' 0 4 == 2#4 then some (.regionQuery (w.extractLsb' 20 5) (w.extractLsb' 15 5) (w.extractLsb' 4 2))
    else none
  | 69 => if w.extractLsb' 0 15 == 0#15 then some (.xpref (w.extractLsb' 20 5) (w.extractLsb' 15 5))
    else none
  | 70 => if w.extractLsb' 0 15 == 0#15 then some (.xpinPin (w.extractLsb' 20 5) (w.extractLsb' 15 5))
    else if w.extractLsb' 0 15 == 1#15 then some (.xpinUnpin (w.extractLsb' 20 5) (w.extractLsb' 15 5))
    else none
  | 71 => if w.extractLsb' 0 15 == 0#15 then some (.xevict (w.extractLsb' 20 5) (w.extractLsb' 15 5))
    else none
  | 72 => if w.extractLsb' 6 9 == 0#9 && w.extractLsb' 0 4 == 0#4 then some (.xlook (w.extractLsb' 20 5) (w.extractLsb' 15 5) (w.extractLsb' 4 2))
    else none
  | 73 => if w.extractLsb' 7 8 == 0#8 then some (.cntr (w.extractLsb' 20 5) (w.extractLsb' 15 5) (w.extractLsb' 0 7))
    else none
  | 74 => if w.extractLsb' 7 8 == 0#8 then some (.cntw (w.extractLsb' 20 5) (w.extractLsb' 15 5) (w.extractLsb' 0 7))
    else none
  | 75 => if w.extractLsb' 20 5 == 0#5 && w.extractLsb' 0 10 == 0#10 then some (.stab (w.extractLsb' 15 5) (w.extractLsb' 10 5))
    else none
  | 80 => if w.extractLsb' 15 5 == 0#5 then some (.srr (w.extractLsb' 20 5) (w.extractLsb' 0 15))
    else none
  | 81 => if w.extractLsb' 20 5 == 0#5 then some (.srw (w.extractLsb' 15 5) (w.extractLsb' 0 15))
    else none
  | 82 => if w.extractLsb' 20 5 == 0#5 then some (.trapI (w.extractLsb' 0 20))
    else none
  | 83 => if w.extractLsb' 0 25 == 0#25 then some (.tret)
    else none
  | 84 => if w.extractLsb' 20 5 == 0#5 then some (.brk (w.extractLsb' 0 20))
    else none
  | _ => none

/-- The operation word of R70, before the checks of R71. -/
def rawOp (w : BitVec 32) : Option Instr :=
  match (w.extractLsb' 24 8).toNat with
  | 1 => if w.extractLsb' 12 4 == 0#4 then some (.vadd (w.extractLsb' 21 3) (w.extractLsb' 19 2) (w.extractLsb' 18 1) (w.extractLsb' 16 2) (w.extractLsb' 6 6) (w.extractLsb' 0 6))
    else none
  | 2 => if w.extractLsb' 12 4 == 0#4 then some (.vsub (w.extractLsb' 21 3) (w.extractLsb' 19 2) (w.extractLsb' 18 1) (w.extractLsb' 16 2) (w.extractLsb' 6 6) (w.extractLsb' 0 6))
    else none
  | 3 => if w.extractLsb' 12 4 == 0#4 then some (.vmul (w.extractLsb' 21 3) (w.extractLsb' 19 2) (w.extractLsb' 18 1) (w.extractLsb' 16 2) (w.extractLsb' 6 6) (w.extractLsb' 0 6))
    else none
  | 4 => if w.extractLsb' 12 4 == 0#4 then some (.vfma (w.extractLsb' 21 3) (w.extractLsb' 19 2) (w.extractLsb' 18 1) (w.extractLsb' 16 2) (w.extractLsb' 6 6) (w.extractLsb' 0 6))
    else none
  | 5 => if w.extractLsb' 18 1 == 0#1 && w.extractLsb' 12 4 == 0#4 then some (.vmin (w.extractLsb' 21 3) (w.extractLsb' 19 2) (w.extractLsb' 16 2) (w.extractLsb' 6 6) (w.extractLsb' 0 6))
    else none
  | 6 => if w.extractLsb' 18 1 == 0#1 && w.extractLsb' 12 4 == 0#4 then some (.vmax (w.extractLsb' 21 3) (w.extractLsb' 19 2) (w.extractLsb' 16 2) (w.extractLsb' 6 6) (w.extractLsb' 0 6))
    else none
  | 7 => if w.extractLsb' 12 4 == 0#4 then some (.vnegNeg (w.extractLsb' 21 3) (w.extractLsb' 19 2) (w.extractLsb' 18 1) (w.extractLsb' 16 2) (w.extractLsb' 6 6) (w.extractLsb' 0 6))
    else if w.extractLsb' 12 4 == 1#4 then some (.vnegAbs (w.extractLsb' 21 3) (w.extractLsb' 19 2) (w.extractLsb' 18 1) (w.extractLsb' 16 2) (w.extractLsb' 6 6) (w.extractLsb' 0 6))
    else none
  | 8 => if w.extractLsb' 18 3 == 0#3 && w.extractLsb' 12 4 == 0#4 then some (.vand (w.extractLsb' 21 3) (w.extractLsb' 16 2) (w.extractLsb' 6 6) (w.extractLsb' 0 6))
    else none
  | 9 => if w.extractLsb' 18 3 == 0#3 && w.extractLsb' 12 4 == 0#4 then some (.vor (w.extractLsb' 21 3) (w.extractLsb' 16 2) (w.extractLsb' 6 6) (w.extractLsb' 0 6))
    else none
  | 10 => if w.extractLsb' 18 3 == 0#3 && w.extractLsb' 12 4 == 0#4 then some (.vxor (w.extractLsb' 21 3) (w.extractLsb' 16 2) (w.extractLsb' 6 6) (w.extractLsb' 0 6))
    else none
  | 11 => if w.extractLsb' 18 3 == 0#3 && w.extractLsb' 12 4 == 0#4 then some (.vshl (w.extractLsb' 21 3) (w.extractLsb' 16 2) (w.extractLsb' 6 6) (w.extractLsb' 0 6))
    else none
  | 12 => if w.extractLsb' 18 3 == 0#3 && w.extractLsb' 12 4 == 0#4 then some (.vshrL (w.extractLsb' 21 3) (w.extractLsb' 16 2) (w.extractLsb' 6 6) (w.extractLsb' 0 6))
    else if w.extractLsb' 18 3 == 0#3 && w.extractLsb' 12 4 == 1#4 then some (.vshrA (w.extractLsb' 21 3) (w.extractLsb' 16 2) (w.extractLsb' 6 6) (w.extractLsb' 0 6))
    else none
  | 13 => if w.extractLsb' 18 3 == 0#3 && w.extractLsb' 12 4 == 0#4 then some (.vcmpEq (w.extractLsb' 21 3) (w.extractLsb' 16 2) (w.extractLsb' 6 6) (w.extractLsb' 0 6))
    else if w.extractLsb' 18 3 == 0#3 && w.extractLsb' 12 4 == 1#4 then some (.vcmpNe (w.extractLsb' 21 3) (w.extractLsb' 16 2) (w.extractLsb' 6 6) (w.extractLsb' 0 6))
    else if w.extractLsb' 18 3 == 0#3 && w.extractLsb' 12 4 == 2#4 then some (.vcmpLt (w.extractLsb' 21 3) (w.extractLsb' 16 2) (w.extractLsb' 6 6) (w.extractLsb' 0 6))
    else if w.extractLsb' 18 3 == 0#3 && w.extractLsb' 12 4 == 3#4 then some (.vcmpLe (w.extractLsb' 21 3) (w.extractLsb' 16 2) (w.extractLsb' 6 6) (w.extractLsb' 0 6))
    else none
  | 14 => if w.extractLsb' 18 3 == 0#3 && w.extractLsb' 12 4 == 0#4 then some (.vsel (w.extractLsb' 21 3) (w.extractLsb' 16 2) (w.extractLsb' 6 6) (w.extractLsb' 0 6))
    else none
  | 15 => if w.extractLsb' 12 4 == 0#4 then some (.vcvt (w.extractLsb' 21 3) (w.extractLsb' 19 2) (w.extractLsb' 18 1) (w.extractLsb' 16 2) (w.extractLsb' 6 6) (w.extractLsb' 0 6))
    else none
  | 16 => if w.extractLsb' 12 4 == 0#4 then some (.vrcp (w.extractLsb' 21 3) (w.extractLsb' 19 2) (w.extractLsb' 18 1) (w.extractLsb' 16 2) (w.extractLsb' 6 6) (w.extractLsb' 0 6))
    else none
  | 17 => if w.extractLsb' 12 4 == 0#4 then some (.vrsq (w.extractLsb' 21 3) (w.extractLsb' 19 2) (w.extractLsb' 18 1) (w.extractLsb' 16 2) (w.extractLsb' 6 6) (w.extractLsb' 0 6))
    else none
  | 18 => if w.extractLsb' 12 4 == 0#4 then some (.vexp2 (w.extractLsb' 21 3) (w.extractLsb' 19 2) (w.extractLsb' 18 1) (w.extractLsb' 16 2) (w.extractLsb' 6 6) (w.extractLsb' 0 6))
    else none
  | 19 => if w.extractLsb' 12 4 == 0#4 then some (.vlog2 (w.extractLsb' 21 3) (w.extractLsb' 19 2) (w.extractLsb' 18 1) (w.extractLsb' 16 2) (w.extractLsb' 6 6) (w.extractLsb' 0 6))
    else none
  | 20 => if w.extractLsb' 12 4 == 0#4 then some (.vsumAdd (w.extractLsb' 21 3) (w.extractLsb' 19 2) (w.extractLsb' 18 1) (w.extractLsb' 16 2) (w.extractLsb' 6 6) (w.extractLsb' 0 6))
    else if w.extractLsb' 18 1 == 0#1 && w.extractLsb' 12 4 == 1#4 then some (.vsumMin (w.extractLsb' 21 3) (w.extractLsb' 19 2) (w.extractLsb' 16 2) (w.extractLsb' 6 6) (w.extractLsb' 0 6))
    else if w.extractLsb' 18 1 == 0#1 && w.extractLsb' 12 4 == 2#4 then some (.vsumMax (w.extractLsb' 21 3) (w.extractLsb' 19 2) (w.extractLsb' 16 2) (w.extractLsb' 6 6) (w.extractLsb' 0 6))
    else none
  | 21 => if w.extractLsb' 18 3 == 0#3 && w.extractLsb' 12 4 == 0#4 then some (.vshuf (w.extractLsb' 21 3) (w.extractLsb' 16 2) (w.extractLsb' 6 6) (w.extractLsb' 0 6))
    else none
  | 22 => if w.extractLsb' 18 3 == 0#3 && w.extractLsb' 15 1 == 0#1 then some (.vconst (w.extractLsb' 21 3) (w.extractLsb' 16 2) (w.extractLsb' 12 3) (w.extractLsb' 6 6) (w.extractLsb' 0 6))
    else none
  | 23 => if w.extractLsb' 18 3 == 0#3 && w.extractLsb' 12 4 == 0#4 then some (.vmov (w.extractLsb' 21 3) (w.extractLsb' 16 2) (w.extractLsb' 6 6) (w.extractLsb' 0 6))
    else none
  | 24 => if w.extractLsb' 18 6 == 48#6 && w.extractLsb' 12 4 == 0#4 then some (.vbcmp (w.extractLsb' 16 2) (w.extractLsb' 6 6) (w.extractLsb' 0 6))
    else none
  | 25 => if w.extractLsb' 18 6 == 48#6 && w.extractLsb' 12 4 == 0#4 then some (.vbeqm (w.extractLsb' 16 2) (w.extractLsb' 6 6) (w.extractLsb' 0 6))
    else none
  | 26 => if w.extractLsb' 18 6 == 0#6 && w.extractLsb' 12 4 == 0#4 then some (.vhashLane (w.extractLsb' 16 2) (w.extractLsb' 6 6) (w.extractLsb' 0 6))
    else if w.extractLsb' 18 6 == 0#6 && w.extractLsb' 12 4 == 1#4 then some (.vhashCrc (w.extractLsb' 16 2) (w.extractLsb' 6 6) (w.extractLsb' 0 6))
    else if w.extractLsb' 18 6 == 0#6 && w.extractLsb' 12 4 == 2#4 then some (.vhashFold (w.extractLsb' 16 2) (w.extractLsb' 6 6) (w.extractLsb' 0 6))
    else none
  | 32 => if w.extractLsb' 18 3 == 0#3 && w.extractLsb' 13 3 == 0#3 then some (.eld (w.extractLsb' 21 3) (w.extractLsb' 16 2) (w.extractLsb' 12 1) (w.extractLsb' 6 6) (w.extractLsb' 0 6))
    else none
  | 33 => if w.extractLsb' 18 3 == 0#3 && w.extractLsb' 12 4 == 0#4 then some (.est (w.extractLsb' 21 3) (w.extractLsb' 16 2) (w.extractLsb' 6 6) (w.extractLsb' 0 6))
    else none
  | 34 => if w.extractLsb' 12 12 == 0#12 then some (.hprobe (w.extractLsb' 6 6) (w.extractLsb' 0 6))
    else none
  | 35 => if w.extractLsb' 12 12 == 0#12 then some (.hins (w.extractLsb' 6 6) (w.extractLsb' 0 6))
    else none
  | 48 => if w.extractLsb' 9 15 == 0#15 then some (.scanD (w.extractLsb' 3 6) (w.extractLsb' 1 2) (w.extractLsb' 0 1))
    else if w.extractLsb' 21 3 == 1#3 then some (.scanC (w.extractLsb' 15 6) (w.extractLsb' 9 6) (w.extractLsb' 3 6) (w.extractLsb' 1 2) (w.extractLsb' 0 1))
    else if w.extractLsb' 21 3 == 2#3 then some (.scanB (w.extractLsb' 15 6) (w.extractLsb' 9 6) (w.extractLsb' 3 6) (w.extractLsb' 1 2) (w.extractLsb' 0 1))
    else none
  | 49 => if w.extractLsb' 21 3 == 0#3 && w.extractLsb' 0 10 == 0#10 then some (.isect (w.extractLsb' 19 2) (w.extractLsb' 17 2) (w.extractLsb' 16 1) (w.extractLsb' 15 1) (w.extractLsb' 10 5))
    else none
  | 50 => if w.extractLsb' 21 3 == 0#3 && w.extractLsb' 0 17 == 0#17 then some (.union (w.extractLsb' 19 2) (w.extractLsb' 17 2))
    else none
  | 51 => if w.extractLsb' 21 3 == 0#3 && w.extractLsb' 0 17 == 0#17 then some (.rept (w.extractLsb' 18 3) (w.extractLsb' 17 1))
    else none
  | 52 => if w.extractLsb' 21 3 == 0#3 && w.extractLsb' 16 1 == 0#1 && w.extractLsb' 0 14 == 0#14 then some (.reduceSum (w.extractLsb' 20 1) (w.extractLsb' 19 1) (w.extractLsb' 18 1) (w.extractLsb' 17 1) (w.extractLsb' 15 1) (w.extractLsb' 14 1))
    else if w.extractLsb' 21 3 == 1#3 && w.extractLsb' 19 1 == 0#1 && w.extractLsb' 16 1 == 0#1 && w.extractLsb' 0 14 == 0#14 then some (.reduceMin (w.extractLsb' 20 1) (w.extractLsb' 18 1) (w.extractLsb' 17 1) (w.extractLsb' 15 1) (w.extractLsb' 14 1))
    else if w.extractLsb' 21 3 == 2#3 && w.extractLsb' 19 1 == 0#1 && w.extractLsb' 16 1 == 0#1 && w.extractLsb' 0 14 == 0#14 then some (.reduceMax (w.extractLsb' 20 1) (w.extractLsb' 18 1) (w.extractLsb' 17 1) (w.extractLsb' 15 1) (w.extractLsb' 14 1))
    else if w.extractLsb' 19 5 == 12#5 && w.extractLsb' 16 1 == 0#1 && w.extractLsb' 0 14 == 0#14 then some (.reduceOr (w.extractLsb' 18 1) (w.extractLsb' 17 1) (w.extractLsb' 15 1) (w.extractLsb' 14 1))
    else if w.extractLsb' 21 3 == 4#3 && w.extractLsb' 18 2 == 0#2 && w.extractLsb' 14 3 == 0#3 && w.extractLsb' 0 5 == 0#5 then some (.reduceTopk (w.extractLsb' 20 1) (w.extractLsb' 17 1) (w.extractLsb' 5 9))
    else if w.extractLsb' 21 3 == 5#3 && w.extractLsb' 0 14 == 0#14 then some (.reduceWsum (w.extractLsb' 20 1) (w.extractLsb' 19 1) (w.extractLsb' 18 1) (w.extractLsb' 17 1) (w.extractLsb' 16 1) (w.extractLsb' 15 1) (w.extractLsb' 14 1))
    else none
  | 53 => if w.extractLsb' 9 15 == 0#15 && w.extractLsb' 0 1 == 0#1 then some (.lwriteD (w.extractLsb' 3 6) (w.extractLsb' 1 2))
    else if w.extractLsb' 21 3 == 1#3 && w.extractLsb' 0 1 == 0#1 then some (.lwriteC (w.extractLsb' 15 6) (w.extractLsb' 9 6) (w.extractLsb' 3 6) (w.extractLsb' 1 2))
    else if w.extractLsb' 21 3 == 2#3 && w.extractLsb' 0 1 == 0#1 then some (.lwriteB (w.extractLsb' 15 6) (w.extractLsb' 9 6) (w.extractLsb' 3 6) (w.extractLsb' 1 2))
    else none
  | 64 => if w.extractLsb' 21 3 == 0#3 && w.extractLsb' 0 7 == 0#7 then some (.mload (w.extractLsb' 20 1) (w.extractLsb' 18 2) (w.extractLsb' 12 6) (w.extractLsb' 8 4) (w.extractLsb' 7 1))
    else none
  | 65 => if w.extractLsb' 21 3 == 0#3 && w.extractLsb' 0 19 == 0#19 then some (.mswap (w.extractLsb' 19 2))
    else none
  | 66 => if w.extractLsb' 21 3 == 0#3 && w.extractLsb' 0 16 == 0#16 then some (.mstream (w.extractLsb' 17 4) (w.extractLsb' 16 1))
    else none
  | 80 => if w.extractLsb' 12 12 == 0#12 && w.extractLsb' 0 6 == 63#6 then some (.ecfg (w.extractLsb' 6 6))
    else none
  | _ => none

/-- The switch word of R72, before the checks of R74. -/
def rawSwitch (w : BitVec 16) : Option Instr :=
  match (w.extractLsb' 12 4).toNat with
  | 0 => if w.extractLsb' 0 12 == 0#12 then some (.idle)
    else none
  | 1 => some (.route (w.extractLsb' 9 3) (w.extractLsb' 1 8) (w.extractLsb' 0 1))
  | 2 => if w.extractLsb' 0 1 == 0#1 then some (.routeB (w.extractLsb' 9 3) (w.extractLsb' 1 8))
    else none
  | 3 => some (.steer (w.extractLsb' 9 3) (w.extractLsb' 6 3) (w.extractLsb' 3 3) (w.extractLsb' 0 3))
  | 4 => some (.merge (w.extractLsb' 9 3) (w.extractLsb' 6 3) (w.extractLsb' 3 3) (w.extractLsb' 0 3))
  | 5 => some (.carry (w.extractLsb' 9 3) (w.extractLsb' 6 3) (w.extractLsb' 3 3) (w.extractLsb' 0 3))
  | 6 => if w.extractLsb' 0 1 == 0#1 then some (.fork (w.extractLsb' 9 3) (w.extractLsb' 1 8))
    else none
  | 7 => some (.abut (w.extractLsb' 9 3) (w.extractLsb' 6 3) (w.extractLsb' 3 3) (w.extractLsb' 0 3))
  | _ => none

/-- A control word (R63-R66). None: the word traps ILLOP at issue (R65). -/
def decodeControl (w : BitVec 32) : Option Instr := rawControl w

/-- An operation word with a row of the table: valid under R71. -/
def decodeOpInstr (w : BitVec 32) : Option Instr :=
  match rawOp w with
  | some i => if i.wf then some i else none
  | none => none

/-- An operation word (R67-R71). None: the word is invalid. ACCN needs COUNT 1-255 (R147). -/
def decodeOp (w : BitVec 32) : Option OpWord :=
  if w.extractLsb' 21 11 == 0b01000011000#11 then
    if w.extractLsb' 0 13 == 0#13 && w.extractLsb' 13 8 != 0#8 then some (.accn (w.extractLsb' 13 8)) else none
  else if w.extractLsb' 21 11 == 0b01000100000#11 then
    if w.extractLsb' 0 14 == 0#14 then
      some (.mscale (w.extractLsb' 18 3) (w.extractLsb' 17 1) (w.extractLsb' 14 3)) else none
  else (decodeOpInstr w).map .instr

/-- A switch word with a row of the table: valid under R74. -/
def decodeSwitchInstr (w : BitVec 16) : Option Instr :=
  match rawSwitch w with
  | some i => if i.wf then some i else none
  | none => none

/-- A switch word (R72, R74). None: the word is invalid. -/
def decodeSwitch (w : BitVec 16) : Option SwWord :=
  if w.extractLsb' 12 4 == 8#4 then some (.tap (w.extractLsb' 9 3) (w.extractLsb' 0 9))
  else if w == 0x9000#16 then some .clrr
  else (decodeSwitchInstr w).map .instr

/-- The classes of words (R62). -/
inductive WordClass where
  | control | op | switch | event
  deriving DecidableEq, Repr

/-- The control word of an instruction (R63, R66); zero for a term of another class. -/
def encodeControl : Instr → BitVec 32
  | .ill r => 0#7 ++ r
  | .nop => 1#7 ++ 0#25
  | .addReg d a b => 2#7 ++ d ++ a ++ b ++ 0#10
  | .addImm d a i => 3#7 ++ d ++ a ++ i
  | .sub d a b => 4#7 ++ d ++ a ++ b ++ 0#10
  | .mulLo d a b => 5#7 ++ d ++ a ++ b ++ 0#10
  | .mulHs d a b => 5#7 ++ d ++ a ++ b ++ 1#10
  | .mulHu d a b => 5#7 ++ d ++ a ++ b ++ 2#10
  | .divS d a b => 6#7 ++ d ++ a ++ b ++ 0#10
  | .divU d a b => 6#7 ++ d ++ a ++ b ++ 1#10
  | .remS d a b => 7#7 ++ d ++ a ++ b ++ 0#10
  | .remU d a b => 7#7 ++ d ++ a ++ b ++ 1#10
  | .andReg d a b => 8#7 ++ d ++ a ++ b ++ 0#10
  | .andImm d a i => 9#7 ++ d ++ a ++ i
  | .orReg d a b => 10#7 ++ d ++ a ++ b ++ 0#10
  | .orImm d a i => 11#7 ++ d ++ a ++ i
  | .xorReg d a b => 12#7 ++ d ++ a ++ b ++ 0#10
  | .xorImm d a i => 13#7 ++ d ++ a ++ i
  | .shlR d a b => 14#7 ++ d ++ a ++ b ++ 0#10
  | .shlI d a n => 14#7 ++ d ++ a ++ 0#5 ++ n ++ 1#4
  | .shrLr d a b => 15#7 ++ d ++ a ++ b ++ 0#10
  | .shrLi d a n => 15#7 ++ d ++ a ++ 0#5 ++ n ++ 1#4
  | .shrAr d a b => 15#7 ++ d ++ a ++ b ++ 2#10
  | .shrAi d a n => 15#7 ++ d ++ a ++ 0#5 ++ n ++ 3#4
  | .minS d a b => 16#7 ++ d ++ a ++ b ++ 0#10
  | .minU d a b => 16#7 ++ d ++ a ++ b ++ 1#10
  | .maxS d a b => 17#7 ++ d ++ a ++ b ++ 0#10
  | .maxU d a b => 17#7 ++ d ++ a ++ b ++ 1#10
  | .cmpEq p a b => 18#7 ++ 0#2 ++ p ++ a ++ b ++ 0#10
  | .cmpNe p a b => 18#7 ++ 0#2 ++ p ++ a ++ b ++ 1#10
  | .cmpLt p a b => 18#7 ++ 0#2 ++ p ++ a ++ b ++ 2#10
  | .cmpLe p a b => 18#7 ++ 0#2 ++ p ++ a ++ b ++ 3#10
  | .cmpLtu p a b => 18#7 ++ 0#2 ++ p ++ a ++ b ++ 4#10
  | .cmpLeu p a b => 18#7 ++ 0#2 ++ p ++ a ++ b ++ 5#10
  | .sel d a b n p => 20#7 ++ d ++ a ++ b ++ 0#2 ++ n ++ p ++ 0#4
  | .ldi d i => 21#7 ++ d ++ i
  | .bitcClz d a => 22#7 ++ d ++ a ++ 0#15
  | .bitcCtz d a => 22#7 ++ d ++ a ++ 1#15
  | .bitcPopc d a => 22#7 ++ d ++ a ++ 2#15
  | .extr d a lsb wid => 23#7 ++ d ++ a ++ 0#3 ++ lsb ++ wid
  | .insr d a lsb wid => 24#7 ++ d ++ a ++ 0#3 ++ lsb ++ wid
  | .ixa d a b w sh => 25#7 ++ d ++ a ++ b ++ 0#2 ++ w ++ sh ++ 0#4
  | .plogAnd d a b => 26#7 ++ 0#2 ++ d ++ 0#2 ++ a ++ 0#2 ++ b ++ 0#10
  | .plogOr d a b => 26#7 ++ 0#2 ++ d ++ 0#2 ++ a ++ 0#2 ++ b ++ 1#10
  | .plogXor d a b => 26#7 ++ 0#2 ++ d ++ 0#2 ++ a ++ 0#2 ++ b ++ 2#10
  | .plogAndn d a b => 26#7 ++ 0#2 ++ d ++ 0#2 ++ a ++ 0#2 ++ b ++ 3#10
  | .hashsLane d a => 27#7 ++ d ++ a ++ 0#15
  | .hashsCrc d a b => 27#7 ++ d ++ a ++ b ++ 1#10
  | .hashsFold d a => 27#7 ++ d ++ a ++ 2#15
  | .br p neg off => 32#7 ++ p ++ neg ++ off
  | .jmp off => 33#7 ++ off
  | .jal off => 34#7 ++ off
  | .jr a => 35#7 ++ 0#5 ++ a ++ 0#15
  | .loopH a len => 36#7 ++ 0#5 ++ a ++ 0#9 ++ len
  | .fend => 37#7 ++ 0#25
  | .ldB d b off => 40#7 ++ d ++ b ++ 0#3 ++ off
  | .ldBu d b off => 40#7 ++ d ++ b ++ 1#3 ++ off
  | .ldH d b off => 40#7 ++ d ++ b ++ 2#3 ++ off
  | .ldHu d b off => 40#7 ++ d ++ b ++ 3#3 ++ off
  | .ldW d b off => 40#7 ++ d ++ b ++ 4#3 ++ off
  | .ldWu d b off => 40#7 ++ d ++ b ++ 5#3 ++ off
  | .ldD d b off => 40#7 ++ d ++ b ++ 6#3 ++ off
  | .stB v b off => 41#7 ++ v ++ b ++ 0#3 ++ off
  | .stH v b off => 41#7 ++ v ++ b ++ 2#3 ++ off
  | .stW v b off => 41#7 ++ v ++ b ++ 4#3 ++ off
  | .stD v b off => 41#7 ++ v ++ b ++ 6#3 ++ off
  | .aaddW d a b => 42#7 ++ d ++ a ++ b ++ 0#10
  | .aaddD d a b => 42#7 ++ d ++ a ++ b ++ 1#10
  | .aminS d a b => 43#7 ++ d ++ a ++ b ++ 0#10
  | .aminU d a b => 43#7 ++ d ++ a ++ b ++ 1#10
  | .amaxS d a b => 44#7 ++ d ++ a ++ b ++ 0#10
  | .amaxU d a b => 44#7 ++ d ++ a ++ b ++ 1#10
  | .alogAnd d a b => 45#7 ++ d ++ a ++ b ++ 0#10
  | .alogOr d a b => 45#7 ++ d ++ a ++ b ++ 1#10
  | .alogXor d a b => 45#7 ++ d ++ a ++ b ++ 2#10
  | .axch d a b => 46#7 ++ d ++ a ++ b ++ 0#10
  | .acas d a b => 47#7 ++ d ++ a ++ b ++ 0#10
  | .afaddF32 d a b => 48#7 ++ d ++ a ++ b ++ 0#10
  | .afaddBf16x2 d a b => 48#7 ++ d ++ a ++ b ++ 1#10
  | .take d a pay part port => 52#7 ++ d ++ a ++ 0#10 ++ pay ++ part ++ port
  | .peek d a depth pay part port => 53#7 ++ d ++ a ++ 0#7 ++ depth ++ pay ++ part ++ port
  | .emit d a n => 54#7 ++ d ++ a ++ 0#13 ++ n
  | .emits a b c n => 55#7 ++ a ++ b ++ c ++ 0#8 ++ n
  | .copy a b c ws remote queue retry last chain assay => 56#7 ++ a ++ b ++ c ++ ws ++ remote ++ queue ++ retry ++ last ++ chain ++ assay
  | .fillContiguous a b tile => 57#7 ++ a ++ b ++ 0#9 ++ tile
  | .fillGather a b c tile => 57#7 ++ a ++ b ++ c ++ 1#4 ++ tile
  | .wbind a b c row => 58#7 ++ a ++ b ++ c ++ row
  | .wfree a => 59#7 ++ 0#5 ++ a ++ 0#15
  | .marm v b off => 60#7 ++ v ++ b ++ 6#3 ++ off
  | .mwait d => 61#7 ++ d ++ 0#20
  | .fenceRel scope => 62#7 ++ 1#22 ++ scope
  | .fenceAcq scope => 62#7 ++ 2#22 ++ scope
  | .fenceFull scope => 62#7 ++ 3#22 ++ scope
  | .xfence dst frm scope => 63#7 ++ 0#16 ++ dst ++ frm ++ scope
  | .bar a b scope => 64#7 ++ a ++ b ++ 0#12 ++ scope
  | .tileClaim d a b => 65#7 ++ d ++ a ++ b ++ 0#10
  | .tileReady d a b => 65#7 ++ d ++ a ++ b ++ 1#10
  | .tileDrain d a => 65#7 ++ d ++ a ++ 2#15
  | .tileFree d a => 65#7 ++ d ++ a ++ 3#15
  | .tileQuery d a => 65#7 ++ d ++ a ++ 4#15
  | .launch d a => 66#7 ++ d ++ a ++ 0#15
  | .rlaunch d a b => 67#7 ++ d ++ a ++ b ++ 0#10
  | .regionAdd d a => 68#7 ++ d ++ a ++ 0#15
  | .regionShrink a b => 68#7 ++ 0#5 ++ a ++ b ++ 1#10
  | .regionQuery d a w => 68#7 ++ d ++ a ++ 0#9 ++ w ++ 2#4
  | .xpref d a => 69#7 ++ d ++ a ++ 0#15
  | .xpinPin d a => 70#7 ++ d ++ a ++ 0#15
  | .xpinUnpin d a => 70#7 ++ d ++ a ++ 1#15
  | .xevict d a => 71#7 ++ d ++ a ++ 0#15
  | .xlook d a w => 72#7 ++ d ++ a ++ 0#9 ++ w ++ 0#4
  | .cntr d a n => 73#7 ++ d ++ a ++ 0#8 ++ n
  | .cntw d a n => 74#7 ++ d ++ a ++ 0#8 ++ n
  | .stab a b => 75#7 ++ 0#5 ++ a ++ b ++ 0#10
  | .srr d sel => 80#7 ++ d ++ 0#5 ++ sel
  | .srw a sel => 81#7 ++ 0#5 ++ a ++ sel
  | .trapI i => 82#7 ++ 0#5 ++ i
  | .tret => 83#7 ++ 0#25
  | .brk i => 84#7 ++ 0#5 ++ i
  | _ => 0#32

/-- The operation word of an instruction (R67, R70); zero for a term of another class. -/
def encodeOp : Instr → BitVec 32
  | .vadd ty rm sat sh da db => 1#8 ++ ty ++ rm ++ sat ++ sh ++ 0#4 ++ da ++ db
  | .vsub ty rm sat sh da db => 2#8 ++ ty ++ rm ++ sat ++ sh ++ 0#4 ++ da ++ db
  | .vmul ty rm sat sh da db => 3#8 ++ ty ++ rm ++ sat ++ sh ++ 0#4 ++ da ++ db
  | .vfma ty rm sat sh da db => 4#8 ++ ty ++ rm ++ sat ++ sh ++ 0#4 ++ da ++ db
  | .vmin ty rm sh da db => 5#8 ++ ty ++ rm ++ 0#1 ++ sh ++ 0#4 ++ da ++ db
  | .vmax ty rm sh da db => 6#8 ++ ty ++ rm ++ 0#1 ++ sh ++ 0#4 ++ da ++ db
  | .vnegNeg ty rm sat sh da db => 7#8 ++ ty ++ rm ++ sat ++ sh ++ 0#4 ++ da ++ db
  | .vnegAbs ty rm sat sh da db => 7#8 ++ ty ++ rm ++ sat ++ sh ++ 1#4 ++ da ++ db
  | .vand ty sh da db => 8#8 ++ ty ++ 0#3 ++ sh ++ 0#4 ++ da ++ db
  | .vor ty sh da db => 9#8 ++ ty ++ 0#3 ++ sh ++ 0#4 ++ da ++ db
  | .vxor ty sh da db => 10#8 ++ ty ++ 0#3 ++ sh ++ 0#4 ++ da ++ db
  | .vshl ty sh da db => 11#8 ++ ty ++ 0#3 ++ sh ++ 0#4 ++ da ++ db
  | .vshrL ty sh da db => 12#8 ++ ty ++ 0#3 ++ sh ++ 0#4 ++ da ++ db
  | .vshrA ty sh da db => 12#8 ++ ty ++ 0#3 ++ sh ++ 1#4 ++ da ++ db
  | .vcmpEq ty sh da db => 13#8 ++ ty ++ 0#3 ++ sh ++ 0#4 ++ da ++ db
  | .vcmpNe ty sh da db => 13#8 ++ ty ++ 0#3 ++ sh ++ 1#4 ++ da ++ db
  | .vcmpLt ty sh da db => 13#8 ++ ty ++ 0#3 ++ sh ++ 2#4 ++ da ++ db
  | .vcmpLe ty sh da db => 13#8 ++ ty ++ 0#3 ++ sh ++ 3#4 ++ da ++ db
  | .vsel ty sh da db => 14#8 ++ ty ++ 0#3 ++ sh ++ 0#4 ++ da ++ db
  | .vcvt ty rm sat sh da db => 15#8 ++ ty ++ rm ++ sat ++ sh ++ 0#4 ++ da ++ db
  | .vrcp ty rm sat sh da db => 16#8 ++ ty ++ rm ++ sat ++ sh ++ 0#4 ++ da ++ db
  | .vrsq ty rm sat sh da db => 17#8 ++ ty ++ rm ++ sat ++ sh ++ 0#4 ++ da ++ db
  | .vexp2 ty rm sat sh da db => 18#8 ++ ty ++ rm ++ sat ++ sh ++ 0#4 ++ da ++ db
  | .vlog2 ty rm sat sh da db => 19#8 ++ ty ++ rm ++ sat ++ sh ++ 0#4 ++ da ++ db
  | .vsumAdd ty rm sat sh da db => 20#8 ++ ty ++ rm ++ sat ++ sh ++ 0#4 ++ da ++ db
  | .vsumMin ty rm sh da db => 20#8 ++ ty ++ rm ++ 0#1 ++ sh ++ 1#4 ++ da ++ db
  | .vsumMax ty rm sh da db => 20#8 ++ ty ++ rm ++ 0#1 ++ sh ++ 2#4 ++ da ++ db
  | .vshuf ty sh da db => 21#8 ++ ty ++ 0#3 ++ sh ++ 0#4 ++ da ++ db
  | .vconst ty sh ki da db => 22#8 ++ ty ++ 0#3 ++ sh ++ 0#1 ++ ki ++ da ++ db
  | .vmov ty sh da db => 23#8 ++ ty ++ 0#3 ++ sh ++ 0#4 ++ da ++ db
  | .vbcmp sh da db => 24#8 ++ 48#6 ++ sh ++ 0#4 ++ da ++ db
  | .vbeqm sh da db => 25#8 ++ 48#6 ++ sh ++ 0#4 ++ da ++ db
  | .vhashLane sh da db => 26#8 ++ 0#6 ++ sh ++ 0#4 ++ da ++ db
  | .vhashCrc sh da db => 26#8 ++ 0#6 ++ sh ++ 1#4 ++ da ++ db
  | .vhashFold sh da db => 26#8 ++ 0#6 ++ sh ++ 2#4 ++ da ++ db
  | .eld ty sh gd da db => 32#8 ++ ty ++ 0#3 ++ sh ++ 0#3 ++ gd ++ da ++ db
  | .est ty sh da db => 33#8 ++ ty ++ 0#3 ++ sh ++ 0#4 ++ da ++ db
  | .hprobe da db => 34#8 ++ 0#12 ++ da ++ db
  | .hins da db => 35#8 ++ 0#12 ++ da ++ db
  | .ecfg da => 80#8 ++ 0#12 ++ da ++ 63#6
  | .scanD tv vf seek => 48#8 ++ 0#15 ++ tv ++ vf ++ seek
  | .scanC ta tb tv vf seek => 48#8 ++ 1#3 ++ ta ++ tb ++ tv ++ vf ++ seek
  | .scanB ta tb tv vf seek => 48#8 ++ 2#3 ++ ta ++ tb ++ tv ++ vf ++ seek
  | .isect osel pay ska skb thr => 49#8 ++ 0#3 ++ osel ++ pay ++ ska ++ skb ++ thr ++ 0#10
  | .union osel pay => 50#8 ++ 0#3 ++ osel ++ pay ++ 0#17
  | .rept newat span => 51#8 ++ 0#3 ++ newat ++ span ++ 0#17
  | .reduceSum f32 sat vec vsrc grain zeros => 52#8 ++ 0#3 ++ f32 ++ sat ++ vec ++ vsrc ++ 0#1 ++ grain ++ zeros ++ 0#14
  | .reduceMin f32 vec vsrc grain zeros => 52#8 ++ 1#3 ++ f32 ++ 0#1 ++ vec ++ vsrc ++ 0#1 ++ grain ++ zeros ++ 0#14
  | .reduceMax f32 vec vsrc grain zeros => 52#8 ++ 2#3 ++ f32 ++ 0#1 ++ vec ++ vsrc ++ 0#1 ++ grain ++ zeros ++ 0#14
  | .reduceOr vec vsrc grain zeros => 52#8 ++ 12#5 ++ vec ++ vsrc ++ 0#1 ++ grain ++ zeros ++ 0#14
  | .reduceTopk f32 vsrc topk => 52#8 ++ 4#3 ++ f32 ++ 0#2 ++ vsrc ++ 0#3 ++ topk ++ 0#5
  | .reduceWsum f32 sat vec vsrc wsrc grain zeros => 52#8 ++ 5#3 ++ f32 ++ sat ++ vec ++ vsrc ++ wsrc ++ grain ++ zeros ++ 0#14
  | .lwriteD tv vw => 53#8 ++ 0#15 ++ tv ++ vw ++ 0#1
  | .lwriteC ta tb tv vw => 53#8 ++ 1#3 ++ ta ++ tb ++ tv ++ vw ++ 0#1
  | .lwriteB ta tb tv vw => 53#8 ++ 2#3 ++ ta ++ tb ++ tv ++ vw ++ 0#1
  | .mload src dir tile wfmt mxm => 64#8 ++ 0#3 ++ src ++ dir ++ tile ++ wfmt ++ mxm ++ 0#7
  | .mswap trig => 65#8 ++ 0#3 ++ trig ++ 0#19
  | .mstream afmt mxm => 66#8 ++ 0#3 ++ afmt ++ mxm ++ 0#16
  | _ => 0#32

/-- The switch word of an instruction (R72); zero for a term of another class. -/
def encodeSwitch : Instr → BitVec 16
  | .idle => 0#4 ++ 0#12
  | .route src mask vc => 1#4 ++ src ++ mask ++ vc
  | .routeB src mask => 2#4 ++ src ++ mask ++ 0#1
  | .steer dat ctl outT outF => 3#4 ++ dat ++ ctl ++ outT ++ outF
  | .merge ctl inT inF out => 4#4 ++ ctl ++ inT ++ inF ++ out
  | .carry init lp ctl out => 5#4 ++ init ++ lp ++ ctl ++ out
  | .fork inp mask => 6#4 ++ inp ++ mask ++ 0#1
  | .abut inp out scope cls => 7#4 ++ inp ++ out ++ scope ++ cls
  | _ => 0#16

/-- The class of a term (R62). -/
def Instr.cls : Instr → WordClass
  | .ill .. => .control
  | .nop => .control
  | .addReg .. => .control
  | .addImm .. => .control
  | .sub .. => .control
  | .mulLo .. => .control
  | .mulHs .. => .control
  | .mulHu .. => .control
  | .divS .. => .control
  | .divU .. => .control
  | .remS .. => .control
  | .remU .. => .control
  | .andReg .. => .control
  | .andImm .. => .control
  | .orReg .. => .control
  | .orImm .. => .control
  | .xorReg .. => .control
  | .xorImm .. => .control
  | .shlR .. => .control
  | .shlI .. => .control
  | .shrLr .. => .control
  | .shrLi .. => .control
  | .shrAr .. => .control
  | .shrAi .. => .control
  | .minS .. => .control
  | .minU .. => .control
  | .maxS .. => .control
  | .maxU .. => .control
  | .cmpEq .. => .control
  | .cmpNe .. => .control
  | .cmpLt .. => .control
  | .cmpLe .. => .control
  | .cmpLtu .. => .control
  | .cmpLeu .. => .control
  | .sel .. => .control
  | .ldi .. => .control
  | .bitcClz .. => .control
  | .bitcCtz .. => .control
  | .bitcPopc .. => .control
  | .extr .. => .control
  | .insr .. => .control
  | .ixa .. => .control
  | .plogAnd .. => .control
  | .plogOr .. => .control
  | .plogXor .. => .control
  | .plogAndn .. => .control
  | .hashsLane .. => .control
  | .hashsCrc .. => .control
  | .hashsFold .. => .control
  | .br .. => .control
  | .jmp .. => .control
  | .jal .. => .control
  | .jr .. => .control
  | .loopH .. => .control
  | .fend => .control
  | .ldB .. => .control
  | .ldBu .. => .control
  | .ldH .. => .control
  | .ldHu .. => .control
  | .ldW .. => .control
  | .ldWu .. => .control
  | .ldD .. => .control
  | .stB .. => .control
  | .stH .. => .control
  | .stW .. => .control
  | .stD .. => .control
  | .aaddW .. => .control
  | .aaddD .. => .control
  | .aminS .. => .control
  | .aminU .. => .control
  | .amaxS .. => .control
  | .amaxU .. => .control
  | .alogAnd .. => .control
  | .alogOr .. => .control
  | .alogXor .. => .control
  | .axch .. => .control
  | .acas .. => .control
  | .afaddF32 .. => .control
  | .afaddBf16x2 .. => .control
  | .take .. => .control
  | .peek .. => .control
  | .emit .. => .control
  | .emits .. => .control
  | .copy .. => .control
  | .fillContiguous .. => .control
  | .fillGather .. => .control
  | .wbind .. => .control
  | .wfree .. => .control
  | .marm .. => .control
  | .mwait .. => .control
  | .fenceRel .. => .control
  | .fenceAcq .. => .control
  | .fenceFull .. => .control
  | .xfence .. => .control
  | .bar .. => .control
  | .tileClaim .. => .control
  | .tileReady .. => .control
  | .tileDrain .. => .control
  | .tileFree .. => .control
  | .tileQuery .. => .control
  | .launch .. => .control
  | .rlaunch .. => .control
  | .regionAdd .. => .control
  | .regionShrink .. => .control
  | .regionQuery .. => .control
  | .xpref .. => .control
  | .xpinPin .. => .control
  | .xpinUnpin .. => .control
  | .xevict .. => .control
  | .xlook .. => .control
  | .cntr .. => .control
  | .cntw .. => .control
  | .stab .. => .control
  | .srr .. => .control
  | .srw .. => .control
  | .trapI .. => .control
  | .tret => .control
  | .brk .. => .control
  | .vadd .. => .op
  | .vsub .. => .op
  | .vmul .. => .op
  | .vfma .. => .op
  | .vmin .. => .op
  | .vmax .. => .op
  | .vnegNeg .. => .op
  | .vnegAbs .. => .op
  | .vand .. => .op
  | .vor .. => .op
  | .vxor .. => .op
  | .vshl .. => .op
  | .vshrL .. => .op
  | .vshrA .. => .op
  | .vcmpEq .. => .op
  | .vcmpNe .. => .op
  | .vcmpLt .. => .op
  | .vcmpLe .. => .op
  | .vsel .. => .op
  | .vcvt .. => .op
  | .vrcp .. => .op
  | .vrsq .. => .op
  | .vexp2 .. => .op
  | .vlog2 .. => .op
  | .vsumAdd .. => .op
  | .vsumMin .. => .op
  | .vsumMax .. => .op
  | .vshuf .. => .op
  | .vconst .. => .op
  | .vmov .. => .op
  | .vbcmp .. => .op
  | .vbeqm .. => .op
  | .vhashLane .. => .op
  | .vhashCrc .. => .op
  | .vhashFold .. => .op
  | .eld .. => .op
  | .est .. => .op
  | .hprobe .. => .op
  | .hins .. => .op
  | .ecfg .. => .op
  | .scanD .. => .op
  | .scanC .. => .op
  | .scanB .. => .op
  | .isect .. => .op
  | .union .. => .op
  | .rept .. => .op
  | .reduceSum .. => .op
  | .reduceMin .. => .op
  | .reduceMax .. => .op
  | .reduceOr .. => .op
  | .reduceTopk .. => .op
  | .reduceWsum .. => .op
  | .lwriteD .. => .op
  | .lwriteC .. => .op
  | .lwriteB .. => .op
  | .mload .. => .op
  | .mswap .. => .op
  | .mstream .. => .op
  | .idle => .switch
  | .route .. => .switch
  | .routeB .. => .switch
  | .steer .. => .switch
  | .merge .. => .switch
  | .carry .. => .switch
  | .fork .. => .switch
  | .abut .. => .switch
  | _ => .event

/-- The word of a well-formed instruction, as a number of 32 or 16 bits; zero for an event. -/
def encode (i : Instr) : Nat :=
  match i.cls with
  | .control => (encodeControl i).toNat
  | .op => (encodeOp i).toNat
  | .switch => (encodeSwitch i).toNat
  | .event => 0

/-- How many bits an instruction's word has (R62); zero for an event. -/
def Instr.nbits (i : Instr) : Nat :=
  match i.cls with
  | .control => 32
  | .op => 32
  | .switch => 16
  | .event => 0

/-- The instruction of a table word. The three classes share their opcode numbers and a word does not say its class
(R62: the class is where it is held), so 16 bits are a switch word, and 32 bits are a control word where they are
one that issues, else an operation word, else ILL (log 5). -/
def decodeTableWord (nbits w : Nat) : Option Instr :=
  if nbits == 16 then decodeSwitchInstr (BitVec.ofNat 16 w)
  else if nbits == 32 then
    match decodeControl (BitVec.ofNat 32 w) with
    | some (.ill r) =>
      match decodeOpInstr (BitVec.ofNat 32 w) with
      | some i => some i
      | none => some (.ill r)
    | some i => some i
    | none => decodeOpInstr (BitVec.ofNat 32 w)
  else none

end Sys2Proof
end

