-- ==== Sys2Proof/Machine/Ops.lean ====
section
/-! DEFINITION. The named operations over the state that every family uses: where a cell stands (R7, R9, R10), reading
and writing items, registers (R86, R87), the end of an instruction and of a clause (R105), event records and freezes
(R337, R340), taking a trap (R109), and the return from one (R110). -/

namespace Sys2Proof.Machine

/-- The outcome of a step. -/
abbrev Out := Host.Outcome State Fault Refusal

/-! ### Cells and their places -/

/-- X and Y of a package cell index Y * 96 + X (R9, R271). -/
def cellX (c : Nat) : Nat := c % 96
def cellY (c : Nat) : Nat := c / 96
/-- The cell at (x, y). -/
def cellAt (x y : Nat) : Nat := y * 96 + x
/-- The bay index of a cell (R9). -/
def bayOf (c : Nat) : Nat := (cellY c / 8) * 12 + cellX c / 8
/-- The compute die of a cell (R7). -/
def dieOf (c : Nat) : Nat := cellX c / 48 + 2 * (cellY c / 48)
/-- The die of a bay. -/
def dieOfBay (b : Nat) : Nat := b % 12 / 6 + 2 * (b / 12 / 6)
/-- The die-local bay column of a cell (R9, R16). -/
def colOf (c : Nat) : Nat := cellX c / 8 % 6
/-- The kind of a cell (R10) by its code of R89: 0 M-cell, 1 S-cell, 2 D-cell. -/
def kindOf (c : Nat) : Nat :=
  let x := cellX c % 8
  let y := cellY c % 8
  if (x + y) % 2 == 0 then 0 else if (x == 1 || x == 5) && y % 2 == 0 then 2 else 1
/-- How many elements a cell has (R12). -/
def elemCount (c : Nat) : Nat := if kindOf c == 1 then 16 else 4
/-- The defect-mask bit of a cell in its bay (R19). -/
def maskBit (c : Nat) : Nat := (cellY c % 8) * 8 + cellX c % 8
/-- The neighbour of a cell through port 0 N, 1 E, 2 S, 3 W (R73), if the mesh has one. -/
def neighbour (c port : Nat) : Option Nat :=
  let x := cellX c
  let y := cellY c
  if port == 0 then (if y == 0 then none else some (c - 96))
  else if port == 1 then (if x == 95 then none else some (c + 1))
  else if port == 2 then (if y == 95 then none else some (c + 96))
  else if port == 3 then (if x == 0 then none else some (c - 1))
  else none

/-! ### Items of the state -/

def State.cell (s : State) (c : Nat) : Cell := SMap.get {} s.cells c
def State.setCell (s : State) (c : Nat) (x : Cell) : State := { s with cells := SMap.set s.cells c x }
def State.modCell (s : State) (c : Nat) (f : Cell → Cell) : State := s.setCell c (f (s.cell c))
def State.seqAt (s : State) (c : Nat) : Seq := (s.cell c).seq
def State.setSeqAt (s : State) (c : Nat) (q : Seq) : State := s.modCell c fun x => { x with seq := q }
/-- The sequencer of the cell a step acts on. -/
def State.seq (s : State) : Seq := s.seqAt s.focus.cell
def State.setSeq (s : State) (q : Seq) : State := s.setSeqAt s.focus.cell q
def State.part (s : State) (p : Nat) : Part := SMap.get {} s.parts p
def State.setPart (s : State) (p : Nat) (x : Part) : State := { s with parts := SMap.set s.parts p x }
def State.modPart (s : State) (p : Nat) (f : Part → Part) : State := s.setPart p (f (s.part p))
def State.bay (s : State) (b : Nat) : Bay := SMap.get {} s.bays b
def State.modBay (s : State) (b : Nat) (f : Bay → Bay) : State := { s with bays := SMap.set s.bays b (f (s.bay b)) }
def Cell.slot (x : Cell) (n : Nat) : Slot := SMap.get {} x.slots n
def Cell.setSlot (x : Cell) (n : Nat) (v : Slot) : Cell := { x with slots := SMap.set x.slots n v }
def Cell.elem (x : Cell) (n : Nat) : Elem := SMap.get {} x.elems n
def Cell.setElem (x : Cell) (n : Nat) (v : Elem) : Cell := { x with elems := SMap.set x.elems n v }
def Cell.block (x : Cell) (n : Nat) : Block := SMap.get {} x.blocks n
def Cell.setBlock (x : Cell) (n : Nat) (v : Block) : Cell := { x with blocks := SMap.set x.blocks n v }
def Cell.tile (x : Cell) (n : Nat) : Tile := SMap.get {} x.m.tiles n
def Cell.setTile (x : Cell) (n : Nat) (v : Tile) : Cell := { x with m := { x.m with tiles := SMap.set x.m.tiles n v } }
/-- The slot that runs (R88 ACTOR). -/
def Seq.slotNo (q : Seq) : Nat := (q.actor.extractLsb' 0 3).toNat
def State.runSlot (s : State) : Slot := (s.cell s.focus.cell).slot s.seq.slotNo
def State.modRunSlot (s : State) (f : Slot → Slot) : State :=
  s.modCell s.focus.cell fun x => x.setSlot s.seq.slotNo (f (x.slot s.seq.slotNo))
def FaultQ.setQueue (f : FaultQ) (l : List FaultRec) : FaultQ := { f with queue := l }

/-- Replaces the first element of a list that meets a test. -/
def modFirst {α : Type} (p : α → Bool) (f : α → α) : List α → List α
  | [] => []
  | a :: l => if p a then f a :: l else a :: modFirst p f l

/-- Adds to a counter of 64 bits, one of 32 bits in a partition, and one of 32 bits in the package (R322). -/
def State.bump (s : State) (c num n : Nat) : State :=
  s.modCell c fun x => { x with
    cnt := SMap.set x.cnt num (SMap.get 0 x.cnt num + BitVec.ofNat 64 n)
    now := SMap.set x.now num (SMap.get 0 x.now num + BitVec.ofNat 64 n) }
def State.bumpPart (s : State) (p num n : Nat) : State :=
  s.modPart p fun x => { x with cnt := SMap.set x.cnt num (SMap.get 0 x.cnt num + BitVec.ofNat 32 n) }
def State.bumpPkg (s : State) (num n : Nat) : State :=
  { s with cnt := SMap.set s.cnt num (SMap.get 0 s.cnt num + BitVec.ofNat 32 n) }

/-- A free value of 64 bits: the next value of Config.freeWord, and the state with the counter read (log 2). -/
def State.free (s : State) : Word × State := (Config.freeWord s.freeCtr, { s with freeCtr := s.freeCtr + 1 })
/-- `n` free bytes. -/
def State.freeBytes (s : State) (n : Nat) : List Byte × State :=
  ((List.range n).map fun i => Config.freeByte (s.freeCtr + i), { s with freeCtr := s.freeCtr + n })

/-! ### Partitions and graphs -/

/-- The loaded, resident partition that holds a bay (R22). -/
def State.partOfBay (s : State) (b : Nat) : Option Nat :=
  (s.parts.find? fun e => e.2.loaded && !e.2.swapped && e.2.cfg.bays.contains b).map (·.1)
def State.partOf (s : State) (c : Nat) : Option Nat := s.partOfBay (bayOf c)

/-- Whether a bay lies in a graph's rectangle. -/
def Graph.holdsBay (g : Graph) (b : Nat) : Bool :=
  g.ox ≤ b % 12 && b % 12 < g.ox + g.w && g.oy ≤ b / 12 && b / 12 < g.oy + g.h
def Graph.holds (g : Graph) (c : Nat) : Bool := g.holdsBay (bayOf c)
/-- The bays of a graph, in row-major order. -/
def Graph.bays (g : Graph) : List Nat :=
  (List.range g.h).flatMap fun j => (List.range g.w).map fun i => (g.oy + j) * 12 + (g.ox + i)
/-- The cells of a bay, in ascending package index. -/
def bayCells (b : Nat) : List Nat :=
  (List.range 8).flatMap fun y => (List.range 8).map fun x => cellAt (b % 12 * 8 + x) (b / 12 * 8 + y)
/-- The dies of a list of bays. -/
def diesOf (bs : List Nat) : List Nat := (List.range 4).filter fun d => bs.any fun b => dieOfBay b == d

/-- The placed graph that holds a cell, with its partition. -/
def State.graphAt (s : State) (c : Nat) : Option (Nat × Graph) :=
  match s.partOf c with
  | none => none
  | some p => ((s.part p).graphs.find? fun g => g.holds c).map fun g => (p, g)

/-- The placed graph of a launch id. -/
def State.graph (s : State) (p lid : Nat) : Option Graph := (s.part p).graphs.find? fun g => g.lid == lid
/-- The graph of a launch id, placed or yielded (R301, R329). -/
def State.graphAny (s : State) (p lid : Nat) : Option Graph :=
  match s.graph p lid with
  | some g => some g
  | none => ((s.part p).yields.find? fun e => e.2.graph.lid == lid).map (·.2.graph)
/-- Changes the graph of a launch id, placed or yielded. -/
def State.modGraph (s : State) (p lid : Nat) (f : Graph → Graph) : State :=
  s.modPart p fun x => { x with
    graphs := modFirst (fun g => g.lid == lid) f x.graphs
    yields := x.yields.map fun e => if e.2.graph.lid == lid then (e.1, { e.2 with graph := f e.2.graph }) else e }

/-- Whether a graph's units move: loaded, no freeze raised (R337), not halted for a dump (R341). -/
def Graph.live (g : Graph) : Bool := !g.loading && g.freeze.isNone && !g.frozen && !g.halt
/-- Whether a halt-swap (R332-R334), or a dump of the partition (R341), has halted a partition. -/
def State.swapping (s : State) (p : Nat) : Bool := (s.hf.swap.map (·.p)) == some p || s.hf.dumpOf == some (p, none)
/-- Whether a cell is halted for a halt-swap or a dump. -/
def State.halted (s : State) (c : Nat) : Bool :=
  ((s.partOf c).map s.swapping) == some true || (s.graphAt c).any fun g => g.2.halt
/-- Whether a cell may complete what it issued before a halt (R333): its clock runs and no freeze of its graph has been raised
(R337). -/
def State.mayAnswer (s : State) (c : Nat) : Bool :=
  match s.graphAt c with
  | none => false
  | some (_, g) => !g.loading && g.freeze.isNone && !g.frozen && s.hf.toPoint.isNone
/-- Whether a cell is defective by the mask of its bay (R19). -/
def State.defective (s : State) (c : Nat) : Bool := (SMap.get 0 s.masks (bayOf c)).getLsbD (maskBit c)
/-- Whether the units of a cell may act: it is not defective (R20), its graph is live, its partition not halted, no clock
change runs (R361). -/
def State.cellLive (s : State) (c : Nat) : Bool :=
  match s.graphAt c with
  | none => false
  | some (p, g) => !s.defective c && g.live && !s.swapping p && s.hf.toPoint.isNone

/-- The task of a graph that a SPANID names (R305). -/
def Graph.taskOf (g : Graph) (sp : Word) : Option Task :=
  g.tasks.find? fun t => t.span == sp && (t.st == 1 || t.st == 2 || t.st == 4)
def Graph.task (g : Graph) (x y : Nat) : Option Task := g.tasks.find? fun t => t.x == x && t.y == y
def Graph.modTask (g : Graph) (x y : Nat) (f : Task → Task) : Graph :=
  { g with tasks := modFirst (fun t => t.x == x && t.y == y) f g.tasks }

/-! ### Event records and freezes -/

/-- An event record (R340): LID, TYPE, SUB, CAUSE, task, VALUE, CELL, PC, PORT and the first two words of DETAIL. -/
def evRec (s : State) (lid type sub cause : Nat) (xy : Nat × Nat) (value cell pc port : Nat) (d0 d1 : Word) : FaultRec :=
  { w0 := BitVec.ofNat 64 (lid % 65536 + type % 16 * 2 ^ 16 + sub % 8 * 2 ^ 20 + 2 ^ 23 + cause % 256 * 2 ^ 24
      + xy.1 % 4096 * 2 ^ 32 + xy.2 % 4096 * 2 ^ 44)
    w1 := BitVec.ofNat 64 (value % 2 ^ 48 + cell % 16384 * 2 ^ 48)
    w2 := s.tbase
    w3 := BitVec.ofNat 64 (pc % 16384 + port % 256 * 2 ^ 16)
    w4 := d0
    w5 := d1 }

/-- A record goes to a partition's fault queue, or waits at its source while the queue is full (R210). -/
def State.pushRec (s : State) (p : Nat) (r : FaultRec) : State :=
  let fq := (s.part p).fq
  if fq.queue.length < 1024 then s.modPart p fun x => { x with fq := { fq with queue := fq.queue ++ [r] } }
  else (s.modPart p fun x => { x with fq := { fq with waiting := fq.waiting ++ [r] } }).bumpPart p 0x01E 1

/-- A freeze raised in a graph: the first record raised stands (R337). -/
def State.freezeGraph (s : State) (p lid : Nat) (r : FaultRec) : State :=
  s.modGraph p lid fun g => if g.freeze.isNone then { g with freeze := some r } else g

/-- The task coordinates of a span of a graph. -/
def Graph.spanXy (g : Graph) (sp : Option Word) : Nat × Nat :=
  match sp with
  | none => (0, 0)
  | some w => match g.taskOf w with
    | none => (0, 0)
    | some t => (t.x, t.y)

/-- A fault of a unit of a cell that freezes its graph (R336, R337). -/
def State.unitFault (s : State) (c type cause : Nat) (sp : Option Word) (value pc port : Nat) (d0 d1 : Word) : State :=
  match s.graphAt c with
  | none => s
  | some (p, g) => s.freezeGraph p g.lid (evRec s g.lid type 0 cause (g.spanXy sp) value c pc port d0 d1)

/-- An event record of a task. -/
def State.taskRec (s : State) (p lid type sub cause : Nat) (t : Task) (value : Nat) (d0 : Word) : State :=
  s.pushRec p (evRec s lid type sub cause (t.x, t.y) value 0 0 0 d0 0)

/-! ### Registers -/

/-- A general register; g0 reads zero (R87). -/
def Seq.getG (q : Seq) (r : BitVec 5) : Word := if r == 0 then 0 else SMap.get 0 q.g r.toNat
/-- A write of a general register; a write of g0 is discarded (R87). -/
def Seq.setG (q : Seq) (r : BitVec 5) (v : Word) : Seq := if r == 0 then q else { q with g := SMap.set q.g r.toNat v }
/-- A predicate; p0 reads true (R87). -/
def Seq.getP (q : Seq) (n : BitVec 3) : Bool := n == 0 || q.p.getLsbD n.toNat
/-- A write of a predicate; a write of p0 is discarded (R87). -/
def Seq.setP (q : Seq) (n : BitVec 3) (b : Bool) : Seq :=
  if n == 0 then q else { q with p := (q.p &&& ~~~(1#8 <<< n.toNat)) ||| (if b then 1#8 <<< n.toNat else 0#8) }

/-! ### Clauses and the end of an instruction -/

/-- The fields of LOOPST (R89). -/
def lsRemain (w : Word) : BitVec 32 := w.extractLsb' 0 32
def lsStart (w : Word) : Nat := (w.extractLsb' 32 12).toNat
def lsLen (w : Word) : Nat := (w.extractLsb' 44 6).toNat
def lsActive (w : Word) : Bool := w.getLsbD 63
/-- LOOPST with an active clause (R104). -/
def lsMake (remain : BitVec 32) (start : BitVec 12) (len : BitVec 6) : Word :=
  (1#1 ++ 0#13 ++ len ++ start ++ remain : BitVec 64)
/-- LOOPST without its reserved bits (R89). -/
def lsMask (w : Word) : Word := w &&& 0x8003FFFFFFFFFFFF#64

/-- The body of the active clause holds a word address (R105). -/
def lsHolds (w : Word) (pc : BitVec 12) : Bool := lsStart w ≤ pc.toNat && pc.toNat < lsStart w + lsLen w

/-- PC and LOOPST after the instruction at PC completes with no transfer of control (R105). -/
def nextPc (pc : BitVec 12) (ls : Word) : BitVec 12 × Word :=
  if lsActive ls && pc.toNat + 1 == lsStart ls + lsLen ls then
    if (lsRemain ls).toNat > 1 then
      (BitVec.ofNat 12 (lsStart ls), (ls &&& 0xFFFFFFFF00000000#64) ||| (lsRemain ls - 1).zeroExtend 64)
    else (pc + 1, 0)
  else (pc + 1, ls)

/-- The sequencer after its instruction completes with no transfer of control. -/
def Seq.stepPc (q : Seq) : Seq :=
  { q with pc := (nextPc q.pc q.loopst).1, loopst := (nextPc q.pc q.loopst).2, wait := {} }

/-- The sequencer after a taken transfer to a word address (R105). -/
def Seq.jumpTo (q : Seq) (t : BitVec 12) : Seq :=
  { q with pc := t, loopst := if lsActive q.loopst && !lsHolds q.loopst t then 0 else q.loopst, wait := {} }

/-- An instruction of the focused cell completes, leaving its sequencer as given. -/
def State.done (s : State) (q : Seq) : Out := .next (s.setSeq q.stepPc)
/-- An instruction completes with a general register written. -/
def State.doneG (s : State) (d : BitVec 5) (v : Word) : Out := s.done (s.seq.setG d v)
/-- An instruction stays at issue: 1 held on memory, 2 waiting for a port, 3 waiting for a unit. Nothing is removed or appended (R191, R220). -/
def State.stay (s : State) (k : BitVec 2) : Out :=
  .next (s.setSeq { s.seq with wait := { s.seq.wait with stall := k } })

/-! ### Traps -/

/-- An instruction word as a value. -/
def wordOf (i : Instr) : Word := BitVec.ofNat 64 (encode i)

/-- Trap entry (R109) on a cell's sequencer: cause, value, resume address, the LOOPST to save (R108), and the instruction
word for the record of an unhandled trap. -/
def State.trapOn (s : State) (c : Nat) (cause : BitVec 8) (value : Word) (resume : BitVec 12) (ls word : Word) : State :=
  let q := s.seqAt c
  if q.tr.tm || !q.tr.vec.getLsbD 0 then
    let sl := (s.cell c).slot q.slotNo
    (s.setSeqAt c { q with stuck := true, wait := {} }).unitFault c 1 cause.toNat
      (if sl.spanOpen then some sl.spanid else none) (value.extractLsb' 0 48).toNat (resume.toNat * 4) 0x80 word 0
  else
    s.setSeqAt c { q with
      tr := { q.tr with cause := cause, value := value, pc := resume, ls := ls, tm := true, lastc := cause }
      loopst := 0
      pc := q.tr.vec.extractLsb' 2 12
      wait := {} }

/-- The instruction at PC traps with itself as the resume address (R107). -/
def State.trapSelf (s : State) (cause : BitVec 8) (value word : Word) : Out :=
  .next (s.trapOn s.focus.cell cause value s.seq.pc s.seq.loopst word)

/-- ILLOP with the instruction word (R65). -/
def State.illop (s : State) (i : Instr) : Out := s.trapSelf 0x01 (wordOf i) (wordOf i)

/-- The return from trap mode (R110), STATUS.TM being 1. After FIRING the fresh budget counts from the next instruction's issue
(log 39). -/
def Seq.trapReturn (q : Seq) : Seq :=
  let ls := lsMask q.tr.ls
  { q with
    loopst := if lsActive ls && !lsHolds ls q.tr.pc then 0 else ls
    tr := { q.tr with tm := false }
    pc := q.tr.pc
    budget := if q.tr.cause == 0x07 then 0 else q.budget
    wait := {} }

/-! ### Tokens -/

def tkOf (k : BitVec 4) : Token := { kind := k }
def tkStop (lvl : BitVec 3) : Token := { kind := 1, level := lvl }
def tkDone : Token := { kind := 2 }
def tkEor : Token := { kind := 5 }
/-- The first 8 bytes of a token's head (R24). -/
def tkHead (t : Token) : Word :=
  (t.coord ++ t.lmask ++ 0#4 ++ BitVec.ofBool t.masked ++ BitVec.ofBool t.gv ++ BitVec.ofBool t.absent
    ++ BitVec.ofBool t.zero ++ BitVec.ofBool t.pl ++ t.level ++ t.kind : BitVec 64)
/-- A token from its head, REF and payload (R24); the reserved bits are forwarded as zero. -/
def tkOfHead (h ref : Word) (pay : BitVec 512) : Token :=
  { kind := h.extractLsb' 0 4, level := h.extractLsb' 4 3, pl := h.getLsbD 7, zero := h.getLsbD 8,
    absent := h.getLsbD 9, gv := h.getLsbD 10, masked := h.getLsbD 11, lmask := h.extractLsb' 16 16,
    coord := h.extractLsb' 32 32, ref := ref, payload := if h.getLsbD 7 then pay else 0 }
/-- SOT and EOT of a task (R25). -/
def tkSot (x y : Nat) (sp : Word) : Token :=
  { kind := 3, coord := BitVec.ofNat 32 (x % 4096 + y % 4096 * 65536), ref := sp }
def tkEot (x y : Nat) (sp : Word) : Token := { tkSot x y sp with kind := 4 }
/-- The value of a control token: a GUARD's GV, or what R43 and R224 read from a DATA. -/
def tkCtlVal (t : Token) : Bool :=
  if t.kind == 7 then t.gv
  else if t.pl then t.payload.extractLsb' 0 32 != 0 else t.ref.extractLsb' 0 32 != 0
/-- A token as a consumer forwards it: fields that R25 shows as 0 are written as zero. -/
def tkIsCtl (t : Token) : Bool := t.kind == 1 || t.kind == 2 || t.kind == 3 || t.kind == 4 || t.kind == 5

end Sys2Proof.Machine
end

