-- ==== Sys2Proof/Machine/Access.lean ====
section
/-! DEFINITION. Memory accesses: virtual addresses (R166, R260), the checks of an access (R153, R167, R293, R304), what a
cached translation allows (R264-R266), caches (R156, R157, R408), poison (R159), and reading, writing and atomics of every
path (R171, R194-R197). -/

namespace Sys2Proof.Machine

/-- The engine class of an access (R193). -/
inductive Cls where
  | seq | strm | copy | mtx | gath
  deriving DecidableEq, Repr

/-- Who makes an access: cell, open span, port code of R271, class. -/
structure Who where
  cell : Nat
  span : Option Word
  port : Nat
  cls  : Cls
  deriving DecidableEq, Repr

/-- What an access needs of a region (R293): read, write, an add or logic atomic, another atomic. -/
inductive Need where
  | rd | wr | add | rmw
  deriving DecidableEq, Repr

/-- Whether an access needs write permission (R167, R171). -/
def Need.writes : Need → Bool
  | .rd => false
  | _ => true

/-- Why an access is not performed: a trap or fault cause with the address of the first faulting part; a format that a
decoding path does not take, with the chunk entry (R57); a wait for a tile, a held port or a link (R355); a translation to
walk; or suppression after its task's abort (R295). -/
inductive AccFail where
  | bad (cause : BitVec 8) (va : Word)
  | fmt (va : Word) (entry : BitVec 64)
  | wait
  | walk (va : Word)
  | supp
  deriving DecidableEq, Repr

/-- Where the bytes of an access part lie. -/
inductive Loc where
  | priv (off : Nat)
  | scr (off : Nat)
  | hbm (pa : Nat) (ord : BitVec 2)
  | rem (pkg addr : Nat)
  deriving DecidableEq, Repr

/-! ### Addresses -/

/-- The tensor id and the byte offset of a virtual address (R260). -/
def vaTensor (va : Word) : Nat := (va.extractLsb' 48 16).toNat
def vaOff (va : Word) : Nat := (va.extractLsb' 0 48).toNat
/-- The address in a tensor at an offset, modulo 2^48. -/
def mkVa (tensor off : Nat) : Word := BitVec.ofNat 64 (tensor % 65536 * 2 ^ 48 + off % 2 ^ 48)
/-- va(base, off) of R166: the offset wraps within the tensor. -/
def vaPlus (base : Word) (off : BitVec 48) : Word := base.extractLsb' 48 16 ++ (base.extractLsb' 0 48 + off)

/-- The parts of an access: it is split at chunk boundaries (R170). The second argument is fuel. -/
def accParts (va : Word) (n : Nat) : Nat → List (Word × Nat)
  | 0 => []
  | f + 1 =>
    let room := 65536 - vaOff va % 65536
    if n ≤ room then [(va, n)]
    else (va, room) :: accParts (mkVa (vaTensor va) (vaOff va + room)) (n - room) f

def partsOf (va : Word) (n : Nat) : List (Word × Nat) := accParts va n (n / 65536 + 2)

/-! ### Chunk entries and descriptors -/

/-- Fields of a chunk entry (R262). -/
def ceV (e : BitVec 64) : Bool := e.getLsbD 0
def ceA (e : BitVec 64) : Bool := e.getLsbD 1
def ceD (e : BitVec 64) : Bool := e.getLsbD 2
def ceR (e : BitVec 64) : Bool := e.getLsbD 3
def ceW (e : BitVec 64) : Bool := e.getLsbD 4
def ceOrd (e : BitVec 64) : BitVec 2 := e.extractLsb' 5 2
def ceFmt (e : BitVec 64) : BitVec 4 := e.extractLsb' 7 4
def ceMxm (e : BitVec 64) : Bool := e.getLsbD 11
def ceGeo (e : BitVec 64) : BitVec 2 := e.extractLsb' 12 2
def ceRemote (e : BitVec 64) : Bool := e.getLsbD 14
def cePkg (e : BitVec 64) : Nat := (e.extractLsb' 15 10).toNat
def ceFrame (e : BitVec 64) : Nat := (e.extractLsb' 25 23).toNat

/-- A tensor descriptor (R261). -/
structure Desc where
  v       : Bool
  shadow  : Bool
  sharded : Bool
  esz     : Nat
  rank    : Nat
  order   : List Nat
  scale   : Option Nat
  ctb     : Nat
  nchunk  : Nat
  ext     : List Nat
  sht     : Nat
  nshard  : Nat
  sdim    : Nat
  ok      : Bool
  deriving DecidableEq, Repr

/-! ### Layout (R56, R164, R260) -/

/-- A block format's geometry and whether its elements take 4 bits, as a chunk entry gives them (R56, R57); none for a
format without blocks or an unassigned geometry. -/
def ceBlk (e : BitVec 64) : Option (Nat × Bool) :=
  let f := (ceFmt e).toNat
  if fmtBlocked f && ceGeo e != 3 then some ((ceGeo e).toNat, f == 12 || f == 14) else none
/-- The elements that a block spans along dimension 0 and dimension 1 (R56). -/
def blkSpan (geo : Nat) : Nat × Nat := if geo == 0 then (32, 1) else if geo == 1 then (1, 32) else (8, 4)
/-- The bytes of a block (R164). -/
def blkBytes (nib : Bool) : Nat := if nib then 16 else 32
/-- The place of an element in its block, from its indices along dimensions 0 and 1 (R56). -/
def blkElem (geo i0 i1 : Nat) : Nat := if geo == 0 then i0 % 32 else if geo == 1 then i1 % 32 else i0 % 8 + 8 * (i1 % 4)
/-- The indices along dimensions 0 and 1 of element k of the block (bx, by) (R56). -/
def blkIndex (geo bx by_ k : Nat) : Nat × Nat :=
  if geo == 0 then (32 * bx + k, by_) else if geo == 1 then (bx, 32 * by_ + k) else (8 * bx + k % 8, 4 * by_ + k / 8)

/-- Reads a descriptor from its 64 bytes; `ok` tells that no unassigned or reserved value stands in it (R261). -/
def descOf (b : BitVec 512) : Desc :=
  let w : Nat → BitVec 64 := fun i => b.extractLsb' (64 * i) 64
  let w0 := w 0
  let rank := (w0.extractLsb' 6 2).toNat + 1
  let order := (List.range rank).map fun k => (w0.extractLsb' (8 + 2 * k) 2).toNat
  let ext := [((w 3).extractLsb' 0 32).toNat, ((w 3).extractLsb' 32 32).toNat,
    ((w 4).extractLsb' 0 32).toNat, ((w 4).extractLsb' 32 32).toNat]
  let esz := (w0.extractLsb' 3 3).toNat
  { v := w0.getLsbD 0, shadow := w0.getLsbD 1, sharded := w0.getLsbD 2, esz := esz, rank := rank, order := order,
    scale := if w0.getLsbD 32 then some (w0.extractLsb' 16 16).toNat else none,
    ctb := ((w 1).extractLsb' 0 39).toNat, nchunk := ((w 2).extractLsb' 0 32).toNat, ext := ext,
    sht := ((w 5).extractLsb' 0 39).toNat, nshard := ((w 6).extractLsb' 0 11).toNat + 1,
    sdim := ((w 6).extractLsb' 16 2).toNat
    ok := w0.extractLsb' 33 31 == 0 && esz ≤ 5 && ((List.range rank).all fun d => order.contains d)
      && (w 1).extractLsb' 39 25 == 0 && (w 1).extractLsb' 0 3 == 0 && (w 2).extractLsb' 32 32 == 0
      && (w 5).extractLsb' 39 25 == 0 && (w 5).extractLsb' 0 3 == 0
      && (w 6).extractLsb' 11 5 == 0 && (w 6).extractLsb' 18 46 == 0 && w 7 == 0
      && ((w 6).extractLsb' 0 11).toNat < 1024
      && ((List.range 4).all fun k => if k < rank then ext.getD k 0 != 0 else ext.getD k 0 == 1) }

/-- A count of elements in bytes by a tensor's storage width (R260). -/
def eszBytes (esz l : Nat) : Nat := if esz == 0 then l / 2 else if esz == 5 then l * 64 else l * 2 ^ (esz - 1)
/-- The byte size of a tensor: the product of its extents in its storage width (R165). -/
def Desc.bytes (d : Desc) : Nat := eszBytes d.esz (d.ext.foldl (· * ·) 1)
/-- An extent. -/
def Desc.extent (d : Desc) (k : Nat) : Nat := d.ext.getD k 1
/-- The elements below one position of a tensor's layout. -/
def Desc.below (d : Desc) (dim : Nat) : Nat := (d.order.takeWhile (· != dim)).foldl (fun m k => m * d.extent k) 1
/-- The bytes of one row along the split dimension. -/
def Desc.rowBytes (d : Desc) : Nat := eszBytes d.esz (d.below d.sdim)

/-- The block grid's extents along dimensions 0 and 1, each rounded up to whole blocks (R56, R164). -/
def Desc.grid (d : Desc) (geo : Nat) : Nat × Nat :=
  let b := blkSpan geo
  ((d.extent 0 + b.1 - 1) / b.1, (d.extent 1 + b.2 - 1) / b.2)
/-- The number of the block that holds an element, dimension 0 fastest (R164). -/
def Desc.blockOf (d : Desc) (geo : Nat) (i : List Nat) : Nat :=
  let b := blkSpan geo
  let g := d.grid geo
  i.getD 0 0 / b.1 + g.1 * (i.getD 1 0 / b.2 + g.2 * (i.getD 2 0 + d.extent 2 * i.getD 3 0))
/-- The layout unit (R260): the byte of an element from its coordinates, by ORDER and extents, or by blocks for a block
format; none where a coordinate is out of bounds. -/
def Desc.byteOf (d : Desc) (blk : Option (Nat × Bool)) (i : List Nat) : Option Nat :=
  if !((List.range 4).all fun k => if k < d.rank then i.getD k 0 < d.extent k else i.getD k 0 == 0) then none
  else match blk with
    | some (geo, nib) =>
      let k := blkElem geo (i.getD 0 0) (i.getD 1 0)
      some (d.blockOf geo i * blkBytes nib + if nib then k / 2 else k)
    | none => some (eszBytes d.esz ((d.order.foldl (fun a k => (a.1 + i.getD k 0 * a.2, a.2 * d.extent k)) (0, 1)).1))
/-- The chunk and the offset in it of an element by coordinates, or BOUNDS (R260). -/
def Desc.place (d : Desc) (blk : Option (Nat × Bool)) (i : List Nat) : Except Nat (Nat × Nat) :=
  match d.byteOf blk i with
  | none => .error 4
  | some b => if b / 65536 ≥ d.nchunk then .error 4 else .ok (b / 65536, b % 65536)
/-- The coordinates of the element at a byte offset: the layout unit's inverse. -/
def Desc.coordsAt (d : Desc) (blk : Option (Nat × Bool)) (off : Nat) : List Nat :=
  match blk with
  | some (geo, nib) =>
    let g := d.grid geo
    let b := off / blkBytes nib
    let k := off % blkBytes nib * (if nib then 2 else 1)
    let q := blkIndex geo (b % g.1) (b / g.1 % g.2) k
    [q.1, q.2, b / (g.1 * g.2) % d.extent 2, b / (g.1 * g.2 * d.extent 2)]
  | none =>
    let l := if d.esz == 0 then off * 2 else if d.esz == 5 then off / 64 else off / 2 ^ (d.esz - 1)
    (List.range 4).map fun k => if k < d.rank then l / d.below k % d.extent k else 0
/-- The row of a byte offset along the split dimension (R269). -/
def Desc.rowAt (d : Desc) (blk : Option (Nat × Bool)) (off : Nat) : Nat := (d.coordsAt blk off).getD d.sdim 0
/-- The bytes from an offset on that lie in one row; a byte of two 4-bit elements lies in the row of its low one (log 98). -/
def Desc.rowRun (d : Desc) (blk : Option (Nat × Bool)) (off : Nat) : Nat :=
  let m := d.below d.sdim
  if blk.isSome then 1
  else if d.esz == 0 then (m - 2 * off % m + 1) / 2
  else if d.rowBytes == 0 then 1 else d.rowBytes - off % d.rowBytes
/-- The byte offset of the same element with its row counted from the owner's first row (R269), the layout being this
package's. -/
def Desc.fromRow (d : Desc) (blk : Option (Nat × Bool)) (off first : Nat) : Nat :=
  match blk with
  | none => if d.esz == 0 then (2 * off - first * d.below d.sdim) / 2 else off - first * d.rowBytes
  | some _ =>
    let i := d.coordsAt blk off
    (d.byteOf blk (i.set d.sdim (i.getD d.sdim 0 - first))).getD off
/-- Where the scales of block b stand in the scale tensor: offset and length (R164). -/
def scaleAt (fmt b : Nat) : Nat × Nat := if fmt == 13 || fmt == 14 then (2 * b, 2) else (b, 1)
/-- The address and length of the scale bytes of the block that holds an element (R164, R261). -/
def Desc.scaleVa (d : Desc) (fmt geo : Nat) (i : List Nat) : Option (Word × Nat) :=
  d.scale.map fun t => let q := scaleAt fmt (d.blockOf geo i); (mkVa t q.1, q.2)

/-! ### Home memory -/

/-- The die whose base die owns the stack of a physical address (R7, R158). -/
def homeDie (pa : Nat) : Nat := pa / 2 ^ 36 % 8 / 2
def State.dieCache (s : State) (d : Nat) : SMap Line := SMap.get [] s.mem.die d
def State.setDie (s : State) (d : Nat) (m : SMap Line) : State := { s with mem := { s.mem with die := SMap.set s.mem.die d m } }
def State.setHbm (s : State) (m : Mem) : State := { s with mem := { s.mem with hbm := m } }

/-- A byte as its home slice holds it: the home die's line if it holds one, else HBM (R197). -/
def State.homeByte (s : State) (pa : Nat) : Byte :=
  match (s.dieCache (homeDie pa)).find? fun e => e.1 == pa / 64 with
  | some e => byteOf e.2.data (pa % 64)
  | none => memRead s.mem.hbm pa
def State.homeBytes (s : State) (pa n : Nat) : List Byte := (List.range n).map fun i => s.homeByte (pa + i)
def State.homeNat (s : State) (pa n : Nat) : Nat := leNat (s.homeBytes pa n)

/-- A line with a byte written, by an access of kind UN or not. -/
def Line.put (l : Line) (i : Nat) (b : Byte) (un : Bool) : Line :=
  let m := 1#64 <<< i
  { data := setByte l.data i b, dirty := l.dirty ||| m, un := if un then l.un ||| m else l.un &&& ~~~m }
/-- A line that holds of its dirty bytes those outside a mask. -/
def Line.keep (l : Line) (gone : BitVec 64) : Line := { l with dirty := l.dirty &&& ~~~gone, un := l.un &&& ~~~gone }
/-- A line whose dirty bytes are those of a mask. -/
def Line.only (l : Line) (m : BitVec 64) : Line := { l with dirty := l.dirty &&& m, un := l.un &&& m }

/-- Writes a byte at its home slice. -/
def State.homeWrite (s : State) (pa : Nat) (b : Byte) : State :=
  let m := s.dieCache (homeDie pa)
  match m.find? fun e => e.1 == pa / 64 with
  | some e => s.setDie (homeDie pa) (SMap.set m (pa / 64) (e.2.put (pa % 64) b false))
  | none => s.setHbm (memWrite s.mem.hbm pa b)
def State.homeStore (s : State) (pa : Nat) : List Byte → State
  | [] => s
  | b :: bs => (s.homeWrite pa b).homeStore (pa + 1) bs

/-! ### Caches -/

/-- Writes a die's line back to HBM and drops it (R408). -/
def State.dieDrop (s : State) (d ln : Nat) : State :=
  match (s.dieCache d).find? fun e => e.1 == ln with
  | none => s
  | some e => (s.setHbm (storeLine s.mem.hbm ln e.2)).setDie d (smErase (s.dieCache d) ln)
/-- Writes a die's line back to HBM and keeps it clean. -/
def State.dieClean (s : State) (d ln : Nat) : State :=
  match (s.dieCache d).find? fun e => e.1 == ln with
  | none => s
  | some e => (s.setHbm (storeLine s.mem.hbm ln e.2)).setDie d (SMap.set (s.dieCache d) ln (e.2.keep (BitVec.allOnes 64)))
/-- Lines that a die cache holds: 64 MiB of 64 bytes (R16, R152). -/
def dieLines : Nat := 1048576
/-- Fills a die's line from HBM on a miss (R152). A full cache first evicts a line by a free choice (log 10). -/
def State.dieFill (s : State) (d ln : Nat) : State :=
  let m := s.dieCache d
  if smHas m ln then s
  else
    let s := if m.length < dieLines then s
      else ({ s with freeCtr := s.freeCtr + 1 }).dieDrop d ((m.map Prod.fst).getD ((Config.freeWord s.freeCtr).toNat % m.length) 0)
    s.setDie d (SMap.set (s.dieCache d) ln { data := memLine s.mem.hbm ln })
def State.dieLine (s : State) (d ln : Nat) : Line := SMap.get {} (s.dieCache d) ln

/-- The bytes of a line whose dirty bit is set, put into another line. -/
def Line.merge (l m : Line) : Line :=
  (List.range 64).foldl (fun a i => if m.dirty.getLsbD i then a.put i (byteOf m.data i) (m.un.getLsbD i) else a) l

/-- A line of a cell's data cache written back to its die's cache (R408). -/
def State.lineToDie (s : State) (c ln : Nat) (l : Line) : State :=
  if l.dirty == 0 then s
  else
    let s := s.dieFill (dieOf c) ln
    s.setDie (dieOf c) (SMap.set (s.dieCache (dieOf c)) ln ((s.dieLine (dieOf c) ln).merge l))

/-- Writes a cell's line back and drops it. -/
def State.cellDrop (s : State) (c ln : Nat) : State :=
  match (s.cell c).dc.find? fun e => e.1 == ln with
  | none => s
  | some e => (s.lineToDie c ln e.2).modCell c fun x => { x with dc := smErase x.dc ln }
/-- Writes a cell's line back and keeps it clean. -/
def State.cellClean (s : State) (c ln : Nat) : State :=
  match (s.cell c).dc.find? fun e => e.1 == ln with
  | none => s
  | some e => (s.lineToDie c ln e.2).modCell c fun x => { x with dc := SMap.set x.dc ln (e.2.keep (BitVec.allOnes 64)) }

/-- The dirty bytes of a line that a means at a scope covers: those of kind UN at partition scope or wider only (R195). -/
def Line.reached (l : Line) (wide : Bool) : BitVec 64 := if wide then l.dirty else l.dirty &&& ~~~l.un
/-- Writes the bytes of a die's line that a scope reaches back to HBM and keeps the line. -/
def State.dieRelease (s : State) (wide : Bool) (d ln : Nat) : State :=
  match (s.dieCache d).find? fun e => e.1 == ln with
  | none => s
  | some e => (s.setHbm (storeLine s.mem.hbm ln (e.2.only (e.2.reached wide)))).setDie d
      (SMap.set (s.dieCache d) ln (e.2.keep (e.2.reached wide)))
/-- Writes the bytes of a cell's line that a scope reaches back to its die and keeps the line. -/
def State.cellRelease (s : State) (wide : Bool) (c ln : Nat) : State :=
  match (s.cell c).dc.find? fun e => e.1 == ln with
  | none => s
  | some e => (s.lineToDie c ln (e.2.only (e.2.reached wide))).modCell c fun x =>
      { x with dc := SMap.set x.dc ln (e.2.keep (e.2.reached wide)) }
/-- A line with its dirty bytes over the bytes of another. -/
def Line.over (l : Line) (data : BitVec 512) : Line := ({ data := data } : Line).merge l
/-- Refreshes a die's line (R201, R203, R408): the bytes that the scope reaches are written back, and the line is dropped, or
where bytes out of the scope's reach are dirty, read again beneath them. -/
def State.dieRefresh (s : State) (wide : Bool) (d ln : Nat) : State :=
  let s := s.dieRelease wide d ln
  match (s.dieCache d).find? fun e => e.1 == ln with
  | none => s
  | some e => s.setDie d (if e.2.dirty == 0 then smErase (s.dieCache d) ln
      else SMap.set (s.dieCache d) ln (e.2.over (memLine s.mem.hbm ln)))
/-- A cell's line drops its clean bytes: a clean line leaves, another is read again from the die beneath its dirty bytes. -/
def State.cellRenew (s : State) (c ln : Nat) : State :=
  match (s.cell c).dc.find? fun e => e.1 == ln with
  | none => s
  | some e =>
    if e.2.dirty == 0 then s.modCell c fun x => { x with dc := smErase x.dc ln }
    else
      let s := s.dieFill (dieOf c) ln
      s.modCell c fun x => { x with dc := SMap.set x.dc ln (e.2.over (s.dieLine (dieOf c) ln).data) }
/-- Refreshes a cell's line in the same way from its die. -/
def State.cellRefresh (s : State) (wide : Bool) (c ln : Nat) : State := (s.cellRelease wide c ln).cellRenew c ln

/-- Brings a line into a cell's data cache: 64 sets of two ways; the victim of a full set is a free choice (log 9). -/
def State.cellFill (s : State) (c ln : Nat) : State :=
  let dc := (s.cell c).dc
  if smHas dc ln then s
  else
    let s := match (dc.filter fun e => e.1 % 64 == ln % 64) with
      | a :: b :: _ =>
        ({ s with freeCtr := s.freeCtr + 1 }).cellDrop c (if Config.freeWay s.freeCtr then a.1 else b.1)
      | _ => s
    let s := s.dieFill (dieOf c) ln
    s.modCell c fun x => { x with dc := SMap.set x.dc ln { data := (s.dieLine (dieOf c) ln).data } }

/-- Makes the bytes of a line of one die visible everywhere: every die writes it back and drops it, that die last. -/
def State.lineOut (s : State) (d ln : Nat) : State :=
  (((List.range 4).filter (· != d)).foldl (fun s e => s.dieDrop e ln) s).dieDrop d ln

/-- The lines that a byte range touches. -/
def linesOf (pa n : Nat) : List Nat :=
  if n == 0 then [] else (List.range ((pa + n - 1) / 64 - pa / 64 + 1)).map (· + pa / 64)

/-! ### Poison (R159) -/

/-- The 256-byte blocks of a range. -/
def blocksOf (a n : Nat) : List Nat :=
  if n == 0 then [] else (List.range ((a + n - 1) / 256 - a / 256 + 1)).map (· + a / 256)
/-- The first byte of a range that lies in a poisoned block. -/
def poisonAt (ps : List Nat) (a n : Nat) : Option Nat :=
  ((blocksOf a n).find? fun b => ps.contains b).map fun b => max a (256 * b)
/-- The poisoned blocks left after a write: a write that covers a whole block clears its marker. -/
def poisonAfter (ps : List Nat) (a n : Nat) : List Nat :=
  ps.filter fun b => !(a ≤ 256 * b && 256 * b + 256 ≤ a + n)

/-! ### Regions and windows -/

/-- Whether a region kind permits an access (R293): 0 read, 1 write, 2 read-write, 3 commutative-add. -/
def kindPermits (k : BitVec 2) : Need → Bool
  | .rd => k == 0 || k == 2
  | .wr => k == 1 || k == 2
  | .add => k == 2 || k == 3
  | .rmw => k == 2

/-- Fields of a region record (R291); its words are numbered from the lowest. -/
def rgWord (r : BitVec 256) (i : Nat) : BitVec 64 := r.extractLsb' (64 * i) 64
def rgBase (r : BitVec 256) : Nat := (r.extractLsb' 0 48).toNat
def rgTensor (r : BitVec 256) : Nat := (r.extractLsb' 48 16).toNat
def rgExtent (r : BitVec 256) : Nat := (r.extractLsb' 64 40).toNat
def rgKind (r : BitVec 256) : BitVec 2 := r.extractLsb' 104 2
def rgLazy (r : BitVec 256) : Bool := r.getLsbD 106
def rgFwd (r : BitVec 256) : Bool := r.getLsbD 107

/-- Whether bytes lo to hi - 1 lie wholly in regions that permit the access (R293, log 22). The first argument is fuel,
the number of records. -/
def covered (rs : List (BitVec 256)) (need : Need) (tensor hi : Nat) : Nat → Nat → Bool
  | 0, lo => hi ≤ lo
  | f + 1, lo =>
    if hi ≤ lo then true
    else match rs.find? fun r => rgTensor r == tensor && kindPermits (rgKind r) need && rgBase r ≤ lo
        && lo < rgBase r + rgExtent r with
      | none => false
      | some r => covered rs need tensor hi f (rgBase r + rgExtent r)

/-- The task an access belongs to (R305): its graph's task with the issuer's open span. -/
def State.taskFor (s : State) (w : Who) : Option Task :=
  match s.graphAt w.cell, w.span with
  | some (_, g), some sp => g.taskOf sp
  | _, _ => none

/-- Whether the accesses of an issuer's span are suppressed, its task having been aborted (R295). -/
def State.suppressed (s : State) (w : Who) : Bool := ((s.taskFor w).map (·.st)) == some 4

/-- Scratchpad offset where channel-queue storage begins (R155, R212). -/
def Cell.queueBase (x : Cell) : Nat := 0x40000 - (x.m.queues.foldl (fun n e => n + e.2.depth) 0) * 1280

/-- Whether a sized tile that is not READY holds a byte of a range (R153, R306). -/
def Cell.tileBusy (x : Cell) (a n : Nat) : Bool :=
  x.m.tiles.any fun e => e.2.size != 0 && e.2.state != 2 && e.2.base.toNat * 64 < a + n
    && a < e.2.base.toNat * 64 + e.2.size.toNat * 64

/-- A part of an access to a cell-local window (R153). -/
def State.window (s : State) (w : Who) (va : Word) (n : Nat) : Except AccFail Loc :=
  let off := vaOff va
  if vaTensor va == 0xFFFF then
    if w.cls == .seq && off + n ≤ 0x4000 then .ok (.priv off) else .error (.bad 0x05 va)
  else
    let x := s.cell w.cell
    if kindOf w.cell == 0 && (w.cls == .seq || w.cls == .strm || w.cls == .copy) && off + n ≤ x.queueBase then
      (if x.tileBusy off n then .error .wait else .ok (.scr off))
    else .error (.bad 0x05 va)

/-! ### Translations in use -/

/-- A tensor's descriptor, from the bay's descriptor cache or the table (R264). -/
def State.desc (s : State) (p b tensor : Nat) : Desc :=
  match (s.bay b).desc.find? fun e => e.1 == tensor with
  | some e => descOf e.2
  | none => descOf (BitVec.ofNat 512 (s.homeNat ((s.part p).cfg.ttbase.toNat + 64 * tensor) 64))

/-- The descriptor in a bay's cache, if it is there. -/
def State.cachedDesc (s : State) (b tensor : Nat) : Option Desc :=
  ((s.bay b).desc.find? fun e => e.1 == tensor).map fun e => descOf e.2

/-- The lease of a task that serves a chunk at a cell. -/
def leaseFor (c : Nat) (t : Option Task) (tensor chunk : Nat) : Option LeaseEnt :=
  t.bind fun t => t.leases.find? fun l => l.bay == bayOf c && l.tensor == tensor && l.chunk == chunk

/-- The cached entry that an access of a task meets (R264, R268): the task's lease, the cell cache, the bay cache; with the
mark of R266 that no compare-and-swap is issued through it. -/
def State.cachedEntry (s : State) (c : Nat) (t : Option Task) (tensor chunk : Nat) : Option (ChunkTr × Bool) :=
  match leaseFor c t tensor chunk with
  | some l => some (l.tr, l.noCas)
  | none =>
    match (s.cell c).tlb.find? fun e => e.tensor == tensor && e.chunk == chunk with
    | some e => some (e.tr, false)
    | none =>
      ((s.bay (bayOf c)).tlb.find? fun e => e.tensor == tensor && e.chunk == chunk && !e.stale).map fun e => (e.tr, false)

/-- Whether an entry's permissions allow an access (R262, R266). -/
def permits (e : BitVec 64) (n : Need) : Bool := if n.writes then ceW e else ceR e
/-- The bits that a walk sets in an entry for an access: A for a read where A is clear, A and D for a write where D is clear
(R266). -/
def adBits (e : BitVec 64) (n : Need) : BitVec 64 :=
  if n.writes then (if ceD e then 0 else 6) else if ceA e then 0 else 2
/-- Whether an entry serves an access with no walk: permission given, and A or D set or not to be set (R265, R266). -/
def entryServes (e : BitVec 64) (noCas : Bool) (need : Need) : Bool :=
  permits e need && (noCas || adBits e need == 0)

/-- Whether a decoding path takes an entry's format (R57, R262): code and geometry assigned, and a block-format chunk
agrees with chunk 0. -/
def fmtOk (e e0 : BitVec 64) : Bool :=
  let blk := fmtBlocked (ceFmt e).toNat
  ceFmt e != 15 && !(blk && ceGeo e == 3)
    && !((blk || fmtBlocked (ceFmt e0).toNat) && (ceFmt e != ceFmt e0 || ceGeo e != ceGeo e0))
/-- Whether a class decodes (R57): SEQ and COPY move raw bytes. -/
def Cls.decodes (c : Cls) : Bool := c == .strm || c == .mtx || c == .gath

/-! ### Shards (R269, R317) -/

/-- The entries of a shard table as (FIRST, OWNER, owner's tensor), or none for one that breaks a rule of R269: a reserved
bit, a first row that is not 0, or rows that do not ascend strictly. The last argument counts the entries left. -/
def State.shardRows (s : State) (sht k prev : Nat) : Nat → Option (List (Nat × Nat × Nat))
  | 0 => some []
  | f + 1 =>
    let w0 := s.homeNat (sht + 16 * k) 8
    let w1 := s.homeNat (sht + 16 * k + 8) 8
    let first := w0 % 2 ^ 32
    if w0 / 2 ^ 42 != 0 || w1 / 2 ^ 16 != 0 || (if k == 0 then first != 0 else first ≤ prev) then none
    else (s.shardRows sht (k + 1) first f).map fun l => (first, w0 / 2 ^ 32 % 1024, w1 % 65536) :: l
/-- The shard table of a descriptor with each entry's last row. -/
def State.shards (s : State) (tensor : Nat) (raw : BitVec 512) (geo : Option (Nat × Bool)) : Option (List ShardEnt) :=
  let d := descOf raw
  (s.shardRows d.sht 0 0 d.nshard).map fun l =>
    (l.zip ((l.drop 1).map (·.1) ++ [d.extent d.sdim])).map fun e =>
      { tensor := tensor, desc := raw, geo := geo, first := e.1.1, last := e.2, owner := e.1.2.1, ten := e.1.2.2 }

def ShardEnt.row (h : ShardEnt) (off : Nat) : Nat := (descOf h.desc).rowAt h.geo off
/-- Whether a shard entry owns the row of a byte offset. -/
def ShardEnt.holdsOff (h : ShardEnt) (off : Nat) : Bool := h.first ≤ h.row off && h.row off < h.last
/-- The shard entry that a task holds for a byte offset of a tensor. -/
def Task.shardAt (t : Task) (tensor off : Nat) : Option ShardEnt :=
  t.shards.find? fun h => h.tensor == tensor && h.holdsOff off

/-- Cuts an access into pieces, each in one row of a sharded tensor (R269). The last argument is fuel. -/
def rowPieces (h : ShardEnt) (va : Word) (n : Nat) : Nat → List (Word × Nat)
  | 0 => [(va, n)]
  | f + 1 =>
    let k := (descOf h.desc).rowRun h.geo (vaOff va)
    if n ≤ k || k == 0 then [(va, n)] else (va, k) :: rowPieces h (mkVa (vaTensor va) (vaOff va + k)) (n - k) f
/-- The parts of an access, those of a tensor whose shard entries the task holds cut at its rows; a window is never cut. -/
def State.shardParts (s : State) (w : Who) (ps : List (Word × Nat)) : List (Word × Nat) :=
  match s.taskFor w with
  | none => ps
  | some t => ps.flatMap fun p =>
    if vaTensor p.1 ≥ 0xFFFE then [p]
    else match t.shards.find? fun h => h.tensor == vaTensor p.1 with
      | none => [p]
      | some h => rowPieces h p.1 p.2 p.2

/-! ### Homes in other packages (R269, R355) -/

/-- Whether a package belongs to the domain, as the planes report it. -/
def State.inDomain (s : State) (pkg : Nat) : Bool := s.mem.domain.contains pkg || s.mem.remExp.any fun e => e.1 == pkg
/-- The link ports that are up, in ascending order (R353, R355). -/
def State.liveLinks (s : State) : List Nat := (List.range 18).filter fun k => (SMap.get {} s.hf.links k).up
/-- The port on which the flits of a cell to another package travel; none while no port is up (R355). -/
def State.linkPort (s : State) (c dst : Nat) : Option Nat :=
  let live := s.liveLinks
  live[(hashFold (BitVec.ofNat 32 c ^^^ BitVec.ofNat 32 dst)).toNat % live.length]?

/-- Whether a port that is up reaches a package (R355). -/
def State.reaches (s : State) (pkg : Nat) : Bool := s.liveLinks.any fun k => !s.mem.unreach.contains (k, pkg)

/-- Address of another package's tensor in the memory of other packages (R269, log 15). -/
def remTensor (pkg tensor off : Nat) : Nat := pkg * 2 ^ 80 + 2 ^ 79 + tensor * 2 ^ 48 + off

/-- An access of a cell that leaves for another package: refused where the planes know no such package, waiting while no path
stands (R355). -/
def State.viaLink (s : State) (c pkg : Nat) (va : Word) (l : Loc) : Except AccFail Loc :=
  if !s.inDomain pkg then .error (.bad 0x05 va) else if (s.linkPort c pkg).isNone || !s.reaches pkg then .error .wait
  else .ok l

/-- A frame as an entry names it: a local frame, or one of another package that exports it to this one (R269); the home checks
that, so an access without a path waits first (R355). -/
def State.frameLoc (s : State) (c : Nat) (e : BitVec 64) (va : Word) : Except AccFail Loc :=
  let o := vaOff va % 65536
  if ceRemote e then
    match s.viaLink c (cePkg e) va (.rem (cePkg e) (cePkg e * 2 ^ 80 + ceFrame e * 65536 + o)) with
    | .error f => .error f
    | .ok l => if s.mem.remExp.contains (cePkg e, ceFrame e) then .ok l else .error (.bad 0x05 va)
  else .ok (.hbm (ceFrame e * 65536 + o) (ceOrd e))

/-- A part through its chunk entry (R263): a miss, a permission or a bit that the entry lacks, and a use that the tensor's
descriptor does not allow are left to a walk. -/
def State.locateChunk (s : State) (w : Who) (t : Option Task) (need : Need) (va : Word) (owned : Bool) :
    Except AccFail (Loc × BitVec 64) :=
  match s.cachedEntry w.cell t (vaTensor va) (vaOff va / 65536) with
  | none => .error (.walk va)
  | some (x, noCas) =>
    if !entryServes x.entry noCas need || x.shadow || (x.split && !owned) then .error (.walk va)
    else if w.cls.decodes && x.fmtBad then .error (.fmt va x.entry)
    else (s.frameLoc w.cell x.entry va).map fun l => (l, x.entry)

/-- Where a part of a translated access lies (R264-R269): by the shard entry that its task holds for the row, else by its
chunk entry. -/
def State.translate (s : State) (w : Who) (need : Need) (va : Word) : Except AccFail (Loc × BitVec 64) :=
  let t := s.taskFor w
  match t.bind fun t => t.shardAt (vaTensor va) (vaOff va) with
  | some h =>
    if h.owner != s.hf.pkg.toNat then
      (s.viaLink w.cell h.owner va (.rem h.owner (remTensor h.owner h.ten ((descOf h.desc).fromRow h.geo (vaOff va) h.first)))).map
        fun l => (l, 0x4001)
    else s.locateChunk w t need va true
  | none => s.locateChunk w t need va false

/-- Why a part of an access is not made at all: its task is aborted (R295), or the part is undeclared (R153, R304). -/
def State.undeclared (s : State) (w : Who) (need : Need) (p : Word × Nat) : Option AccFail :=
  if vaTensor p.1 ≥ 0xFFFE then (if s.suppressed w then some .supp else none)
  else
    match s.taskFor w with
    | none => some (.bad 0x04 p.1)
    | some t =>
      if t.st == 4 then some .supp
      else if !covered t.regions need (vaTensor p.1) (vaOff p.1 + p.2) (t.regions.length + 1) (vaOff p.1) then some (.bad 0x04 p.1)
      else none
/-- Where a declared part of an access lies: in a window of the cell, or by translation. -/
def State.whereIs (s : State) (w : Who) (need : Need) (va : Word) (n : Nat) : Except AccFail (Loc × BitVec 64) :=
  if vaTensor va ≥ 0xFFFE then (s.window w va n).map fun l => (l, 0) else s.translate w need va
/-- Where a part of an access lies, or why it is not performed (R167, R264-R269, R304). -/
def State.locate (s : State) (w : Who) (need : Need) (va : Word) (n : Nat) : Except AccFail (Loc × BitVec 64) :=
  match s.undeclared w need (va, n) with
  | some f => .error f
  | none => s.whereIs w need va n

/-- Where the declared parts of an access lie, in order. -/
def State.locateList (s : State) (w : Who) (need : Need) : List (Word × Nat) → Except AccFail (List (Word × Nat × Loc × BitVec 64))
  | [] => .ok []
  | (va, n) :: ps =>
    match s.whereIs w need va n with
    | .error f => .error f
    | .ok (l, e) => (s.locateList w need ps).map fun r => (va, n, l, e) :: r
/-- The parts of an access in order, each in one chunk and in one owner's rows: every part is checked against the task's regions
before any is translated (R304), and all before any is performed (R170). -/
def State.locateAll (s : State) (w : Who) (need : Need) (ps : List (Word × Nat)) :
    Except AccFail (List (Word × Nat × Loc × BitVec 64)) :=
  match ps.findSome? (s.undeclared w need) with
  | some f => .error f
  | none => s.locateList w need (s.shardParts w ps)

/-! ### Performing an access -/

/-- The first poisoned byte that a read part meets (R159, R183). -/
def State.partPoison (s : State) (w : Who) (n : Nat) : Loc → Option Nat
  | .priv _ => none
  | .scr off => (poisonAt (s.cell w.cell).m.poison off n).map (· - off)
  | .hbm pa _ => (poisonAt s.mem.poison pa n).map (· - pa)
  | .rem _ a => (poisonAt s.mem.remPoison a n).map (· - a)

/-- The address of the first poisoned byte of an access. -/
def State.firstPoison (s : State) (w : Who) : List (Word × Nat × Loc × BitVec 64) → Option Word
  | [] => none
  | (va, n, l, _) :: ps =>
    match s.partPoison w n l with
    | some d => some (mkVa (vaTensor va) (vaOff va + d))
    | none => s.firstPoison w ps

/-- Reads one byte of HBM on a path (R156, R195): SO at its home; a SEQ read through the cell's data cache; other paths
through the die's cache. -/
def State.readHbm (s : State) (w : Who) (ord : BitVec 2) (pa : Nat) : Byte × State :=
  if ord == 0 then (s.homeByte pa, s)
  else if w.cls == .seq then
    let s := s.cellFill w.cell (pa / 64)
    (byteOf (SMap.get {} (s.cell w.cell).dc (pa / 64)).data (pa % 64), s)
  else
    let s := s.dieFill (dieOf w.cell) (pa / 64)
    (byteOf (s.dieLine (dieOf w.cell) (pa / 64)).data (pa % 64), s)

/-- Writes one byte of HBM on a path. -/
def State.writeHbm (s : State) (w : Who) (ord : BitVec 2) (pa : Nat) (b : Byte) : State :=
  if ord == 0 then s.homeWrite pa b
  else if w.cls == .seq then
    let s := s.cellFill w.cell (pa / 64)
    s.modCell w.cell fun x =>
      { x with dc := SMap.set x.dc (pa / 64) ((SMap.get {} x.dc (pa / 64)).put (pa % 64) b (ord == 2)) }
  else
    let d := dieOf w.cell
    let s := s.dieFill d (pa / 64)
    s.setDie d (SMap.set (s.dieCache d) (pa / 64) ((s.dieLine d (pa / 64)).put (pa % 64) b (ord == 2)))

def State.readHbmN (s : State) (w : Who) (ord : BitVec 2) (pa : Nat) : Nat → List Byte × State
  | 0 => ([], s)
  | n + 1 =>
    let (b, s) := s.readHbm w ord pa
    let (bs, s) := s.readHbmN w ord (pa + 1) n
    (b :: bs, s)

def State.writeHbmN (s : State) (w : Who) (ord : BitVec 2) (pa : Nat) : List Byte → State
  | [] => s
  | b :: bs => (s.writeHbm w ord pa b).writeHbmN w ord (pa + 1) bs

/-- Reads a part where it lies. -/
def State.readLoc (s : State) (w : Who) (l : Loc) (n : Nat) : List Byte × State :=
  match l with
  | .priv off => (memBytes (s.cell w.cell).priv off n, s)
  | .scr off => (memBytes (s.cell w.cell).m.scratch off n, s)
  | .hbm pa ord => s.readHbmN w ord pa n
  | .rem _ a => (memBytes s.mem.remote a n, s)

/-- The die on which a write of a kind by a unit is performed: its home's for SO, else the unit's own (R157, R195). -/
def performedOn (w : Who) (ord : BitVec 2) (pa : Nat) : Nat := if ord == 0 then homeDie pa else dieOf w.cell
/-- A task's write to lines of HBM is noted with the die it is performed on (R300). -/
def State.noteWrite (s : State) (w : Who) (d pa n : Nat) : State :=
  match s.graphAt w.cell, s.taskFor w with
  | some (p, g), some t => s.modGraph p g.lid fun g => g.modTask t.x t.y fun t =>
      { t with wroteOn := (linesOf pa n).foldl (fun m ln => SMap.set m (4 * ln + d) ()) t.wroteOn }
  | _, _ => s

/-- Writes a part where it lies, clearing the poison of blocks it covers whole (R159). -/
def State.writeLoc (s : State) (w : Who) (l : Loc) (bs : List Byte) : State :=
  match l with
  | .priv off => s.modCell w.cell fun x => { x with priv := memStore x.priv off bs }
  | .scr off => s.modCell w.cell fun x => { x with m := { x.m with
      scratch := memStore x.m.scratch off bs, poison := poisonAfter x.m.poison off bs.length } }
  | .hbm pa ord =>
    let s := (s.writeHbmN w ord pa bs).noteWrite w (performedOn w ord pa) pa bs.length
    { s with mem := { s.mem with poison := poisonAfter s.mem.poison pa bs.length } }
  | .rem _ a => { s with mem := { s.mem with
      remote := memStore s.mem.remote a bs, remPoison := poisonAfter s.mem.remPoison a bs.length } }

def State.readParts (s : State) (w : Who) : List (Word × Nat × Loc × BitVec 64) → List Byte × State
  | [] => ([], s)
  | (_, n, l, _) :: ps =>
    let (bs, s) := s.readLoc w l n
    let (cs, s) := s.readParts w ps
    (bs ++ cs, s)

/-- Whether a place begins where n bytes at another end, in the same memory. -/
def Loc.follows (l : Loc) (n : Nat) : Loc → Bool
  | .priv a => l == .priv (a + n)
  | .scr a => l == .scr (a + n)
  | .hbm a ord => l == .hbm (a + n) ord
  | .rem k a => l == .rem k (a + n)
/-- The parts of a write, those that lie on end in one memory put together: a write that covers a poisoned block in several rows
covers it whole (R159). -/
def joinParts (ps : List (Word × Nat × Loc × BitVec 64)) : List (Word × Nat × Loc × BitVec 64) :=
  ps.foldr (fun p r => match r with
    | q :: t => if q.2.2.1.follows p.2.1 p.2.2.1 then (p.1, p.2.1 + q.2.1, p.2.2) :: t else p :: r
    | [] => [p]) []

def State.writeParts (s : State) (w : Who) : List (Word × Nat × Loc × BitVec 64) → List Byte → State
  | [], _ => s
  | (_, n, l, _) :: ps, bs => (s.writeLoc w l (bs.take n)).writeParts w ps (bs.drop n)

/-- A read of n bytes: the bytes and the state after, or why it is not performed. A suppressed read returns free bytes
(log 23). -/
def State.readVa (s : State) (w : Who) (va : Word) (n : Nat) : Except AccFail (List Byte × State) :=
  match s.locateAll w .rd (partsOf va n) with
  | .error .supp => .ok (s.freeBytes n)
  | .error f => .error f
  | .ok ps =>
    match s.firstPoison w ps with
    | some v => .error (.bad 0x06 v)
    | none => .ok (s.readParts w ps)

/-- A write of bytes (R167, R170). -/
def State.writeVa (s : State) (w : Who) (va : Word) (bs : List Byte) : Except AccFail State :=
  match s.locateAll w .wr (partsOf va bs.length) with
  | .error .supp => .ok s
  | .error f => .error f
  | .ok ps => .ok (s.writeParts w (joinParts ps) bs)

/-- The chunk entry under which the first byte of a read lies (R185, R263); 0 for a window. -/
def State.entryAt (s : State) (w : Who) (va : Word) : BitVec 64 :=
  match s.locate w .rd va 1 with
  | .ok (_, e) => e
  | .error _ => 0

/-- Brings a line home for an atomic (R156, R408): the cell's line to its die, then the home die's and its die's line to
HBM. -/
def State.lineHome (s : State) (c ln : Nat) : State :=
  ((s.cellDrop c ln).dieDrop (homeDie (64 * ln)) ln).dieDrop (dieOf c) ln

/-- An atomic of n bytes (R171): `f` gives the new value, or none for no write. The old value and the state after. -/
def State.atomicVa (s : State) (w : Who) (need : Need) (va : Word) (n : Nat) (f : Nat → Option Nat) :
    Except AccFail (Nat × State) :=
  match s.locate w need va n with
  | .error .supp => let (v, s) := s.free; .ok (v.toNat % 2 ^ (8 * n), s)
  | .error e => .error e
  | .ok (l, _) =>
    match s.partPoison w n l with
    | some d => .error (.bad 0x06 (mkVa (vaTensor va) (vaOff va + d)))
    | none =>
      let s := match l with
        | .hbm pa _ => s.lineHome w.cell (pa / 64)
        | _ => s
      match l with
      | .hbm pa _ =>
        let old := s.homeNat pa n
        .ok (old, match f old with
          | some v => (s.homeStore pa (natLe v n)).noteWrite w (homeDie pa) pa n
          | none => s)
      | l =>
        let (bs, s) := s.readLoc w l n
        .ok (leNat bs, match f (leNat bs) with
          | some v => s.writeLoc w l (natLe v n)
          | none => s)

/-! ### Ports -/

/-- A walk joins its bay's queue (R264), with the pattern that its port would report (R271); `desc` for a descriptor alone. -/
def State.addWalk (s : State) (w : Who) (va : Word) (kind : AccKind) (pat : Option (Nat × Nat × Nat) := none)
    (desc : Bool := false) : State :=
  s.modBay (bayOf w.cell) fun b => { b with walks := b.walks ++
    [{ cell := w.cell, port := w.port, va := va, kind := kind, span := w.span, pat := pat, desc := desc }] }

/-- Whether a port is stopped (R271) or waits for a walk. -/
def State.portBusy (s : State) (c port : Nat) : Bool :=
  (s.cell c).stopped.contains port || (s.bay (bayOf c)).walks.any fun k => k.cell == c && k.port == port

/-- The kind of an access as records give it (R270). -/
def Need.kind (n : Need) (c : Cls) : AccKind :=
  match n with
  | .rd => if c == .gath then .gather else .read
  | .wr => .write
  | _ => .atomic

/-- The sequencer of a cell as an issuer; its span is the open span of the running slot (R305). -/
def State.seqWho (s : State) (c : Nat) : Who :=
  let q := s.seqAt c
  let sl := (s.cell c).slot q.slotNo
  { cell := c, span := if sl.spanOpen then some sl.spanid else none, port := 0x80, cls := .seq }

/-- A SEQ access of the focused cell that is not performed (R167): a trap at once, a hold until the tile is ready, or a
hold with a walk; poison comes with the response, so it traps when the response is taken. -/
def State.seqFail (s : State) (i : Instr) (need : Need) (va : Word) (f : AccFail) : Out :=
  let mw := match i with
    | .mwait _ => true
    | _ => false
  match f with
  | .bad cause v =>
    if cause == 0x06 then
      .next (s.setSeq { s.seq with wait := { hold := some { va := v, kind := need.kind .seq, trap := some (0x06, v), mwait := mw }, stall := 1 } })
    else s.trapSelf cause v (wordOf i)
  | .fmt v _ => s.trapSelf 0x05 v (wordOf i)
  | .wait => s.stay 1
  | .walk v =>
    .next ((s.setSeq { s.seq with wait := { hold := some { va := va, kind := need.kind .seq, mwait := mw }, stall := 1 } }).addWalk
      (s.seqWho s.focus.cell) v (need.kind .seq))
  | .supp => s.done s.seq

end Sys2Proof.Machine
end

