-- ==== Sys2Proof/Machine/Operands.lean ====
section
/-! DEFINITION. Operand forms: immediates of control words (R64, R94), the load and store sizes (R168, R169), branch
targets (R64, R101), and the lanes of element operands (R115, R38). -/

namespace Sys2Proof.Machine

/-- sext(imm15, 15) (R95). -/
def immS15 (i : BitVec 15) : Word := i.signExtend 64
/-- sext(imm20, 20) << 12 (R99). -/
def immLdi (i : BitVec 20) : Word := (i.signExtend 64) <<< 12
/-- sext(off12, 12) as a 48-bit offset (R166). -/
def offS12 (o : BitVec 12) : BitVec 48 := o.signExtend 48

/-- The word address of a branch target: PC plus the signed word offset, modulo the store (R64, R101). -/
def target21 (pc : BitVec 12) (off : BitVec 21) : BitVec 12 := pc + off.setWidth 12
def target25 (pc : BitVec 12) (off : BitVec 25) : BitVec 12 := pc + off.setWidth 12

/-- The second operand of IXA (R99). -/
def ixaOperand (b : Word) (w : BitVec 1) : Word := if w == 1 then (b.setWidth 32).signExtend 64 else b

/-- An extracted field, zero-extended (R99): lsb and width. -/
def extractField (v : Word) (lsb width : Nat) : Word := (v >>> lsb) &&& (BitVec.ofNat 64 (2 ^ width - 1))
/-- A value with a field replaced by the low bits of another (R99). -/
def insertField (v x : Word) (lsb width : Nat) : Word :=
  let m := BitVec.ofNat 64 (2 ^ width - 1)
  (v &&& ~~~(m <<< lsb)) ||| ((x &&& m) <<< lsb)

/-- A loaded value of n bytes, sign- or zero-extended (R168). -/
def loadValue (bs : List Byte) (signed : Bool) : Word :=
  let v := leNat bs
  let n := bs.length
  if signed && 0 < n && n < 8 && 2 ^ (8 * n - 1) ≤ v then BitVec.ofNat 64 (2 ^ 64 + v - 2 ^ (8 * n)) else BitVec.ofNat 64 v

/-- sext(x, 32) of a word (R172). -/
def sext32 (v : Nat) : Word := (BitVec.ofNat 32 v).signExtend 64

end Sys2Proof.Machine
end

