-- ==== Sys2Proof/Machine/Flags.lean ====
section
/-! DEFINITION. What predicates and the two fields of STATUS are computed from. The machine has no arithmetic flags: a
comparison writes a predicate (R97), PLOG combines predicates (R98), and STATUS holds TM, LA and LASTC (R89). -/

namespace Sys2Proof.Machine

/-- The comparisons of CMP (R97). -/
def cmpEq (a b : Word) : Bool := a == b
def cmpNe (a b : Word) : Bool := a != b
def cmpLt (a b : Word) : Bool := a.slt b
def cmpLe (a b : Word) : Bool := a.sle b
def cmpLtu (a b : Word) : Bool := a.ult b
def cmpLeu (a b : Word) : Bool := a.ule b

/-- A predicate XOR a negation bit (R98, R102). -/
def predTrue (p : Bool) (neg : BitVec 1) : Bool := p != (neg == 1)

/-- STATUS (R89): TM, LA as a copy of LOOPST.ACTIVE, and LASTC. -/
def statusOf (q : Seq) : Word :=
  (q.tr.lastc ++ 0#6 ++ BitVec.ofBool (lsActive q.loopst) ++ BitVec.ofBool q.tr.tm : BitVec 16).zeroExtend 64

/-- Leading zeros, trailing zeros and the count of 1 bits (R100): bits looked at, from the top or the bottom. -/
def clzGo (v : Word) : Nat → Nat
  | 0 => 64
  | n + 1 => if v.getLsbD n then 63 - n else clzGo v n
def ctzGo (v : Word) (i : Nat) : Nat → Nat
  | 0 => 64
  | n + 1 => if v.getLsbD i then i else ctzGo v (i + 1) n
def popGo (v : Word) : Nat → Nat
  | 0 => 0
  | n + 1 => (if v.getLsbD n then 1 else 0) + popGo v n

/-- Quotients and remainders (R48): a zero divisor gives all ones and the dividend. -/
def divSV (a b : Word) : Word := if b == 0 then BitVec.allOnes 64 else BitVec.sdiv a b
def divUV (a b : Word) : Word := if b == 0 then BitVec.allOnes 64 else a / b
def remSV (a b : Word) : Word := if b == 0 then a else BitVec.srem a b
def remUV (a b : Word) : Word := if b == 0 then a else a % b

/-- The high half of a product (R95). -/
def mulHighS (a b : Word) : Word := ((a.signExtend 128 * b.signExtend 128).extractLsb' 64 64)
def mulHighU (a b : Word) : Word := ((a.zeroExtend 128 * b.zeroExtend 128).extractLsb' 64 64)

end Sys2Proof.Machine
end

