-- ==== Sys2Proof/Machine/Alu.lean ====
section
/-! DEFINITION. The integer and predicate instructions of the sequencer (R94-R100). -/

namespace Sys2Proof.Machine

/-- g[d] := f(g[a], g[b]) and the instruction completes (R94). -/
def State.alu3 (s : State) (d a b : BitVec 5) (f : Word → Word → Word) : Out := s.doneG d (f (s.seq.getG a) (s.seq.getG b))
/-- g[d] := f(g[a]) and the instruction completes (R94). -/
def State.alu2 (s : State) (d a : BitVec 5) (f : Word → Word) : Out := s.doneG d (f (s.seq.getG a))
/-- p[d] := f(g[a], g[b]) and the instruction completes (R97). -/
def State.cmp3 (s : State) (p : BitVec 3) (a b : BitVec 5) (f : Word → Word → Bool) : Out :=
  s.done (s.seq.setP p (f (s.seq.getG a) (s.seq.getG b)))
/-- p[d] := f(p[a], p[b]) and the instruction completes (R98). -/
def State.plog3 (s : State) (d a b : BitVec 3) (f : Bool → Bool → Bool) : Out :=
  s.done (s.seq.setP d (f (s.seq.getP a) (s.seq.getP b)))

/-- NOP (R95). -/
def execNop (s : State) : Out := s.done s.seq

/-- ADD of two registers (R95). -/
def execAddReg (d a b : BitVec 5) (s : State) : Out := s.alu3 d a b fun x y => x + y

/-- SUB (R95). -/
def execSub (d a b : BitVec 5) (s : State) : Out := s.alu3 d a b fun x y => x - y

/-- MUL.LO (R95). -/
def execMulLo (d a b : BitVec 5) (s : State) : Out := s.alu3 d a b fun x y => x * y

/-- MUL.HS (R95). -/
def execMulHs (d a b : BitVec 5) (s : State) : Out := s.alu3 d a b fun x y => mulHighS x y

/-- MUL.HU (R95). -/
def execMulHu (d a b : BitVec 5) (s : State) : Out := s.alu3 d a b fun x y => mulHighU x y

/-- DIV.S (R48, R95). -/
def execDivS (d a b : BitVec 5) (s : State) : Out := s.alu3 d a b fun x y => divSV x y

/-- DIV.U (R48, R95). -/
def execDivU (d a b : BitVec 5) (s : State) : Out := s.alu3 d a b fun x y => divUV x y

/-- REM.S (R48, R95). -/
def execRemS (d a b : BitVec 5) (s : State) : Out := s.alu3 d a b fun x y => remSV x y

/-- REM.U (R48, R95). -/
def execRemU (d a b : BitVec 5) (s : State) : Out := s.alu3 d a b fun x y => remUV x y

/-- AND of two registers (R95). -/
def execAndReg (d a b : BitVec 5) (s : State) : Out := s.alu3 d a b fun x y => x &&& y

/-- OR of two registers (R95). -/
def execOrReg (d a b : BitVec 5) (s : State) : Out := s.alu3 d a b fun x y => x ||| y

/-- XOR of two registers (R95). -/
def execXorReg (d a b : BitVec 5) (s : State) : Out := s.alu3 d a b fun x y => x ^^^ y

/-- SHL.R: the count is g[b][5:0] (R96). -/
def execShlR (d a b : BitVec 5) (s : State) : Out := s.alu3 d a b fun x y => x <<< (y.toNat % 64)

/-- SHR.LR (R96). -/
def execShrLr (d a b : BitVec 5) (s : State) : Out := s.alu3 d a b fun x y => x >>> (y.toNat % 64)

/-- SHR.AR (R96). -/
def execShrAr (d a b : BitVec 5) (s : State) : Out := s.alu3 d a b fun x y => x.sshiftRight (y.toNat % 64)

/-- MIN.S (R95). -/
def execMinS (d a b : BitVec 5) (s : State) : Out := s.alu3 d a b fun x y => if y.slt x then y else x

/-- MIN.U (R95). -/
def execMinU (d a b : BitVec 5) (s : State) : Out := s.alu3 d a b fun x y => if y.ult x then y else x

/-- MAX.S (R95). -/
def execMaxS (d a b : BitVec 5) (s : State) : Out := s.alu3 d a b fun x y => if x.slt y then y else x

/-- MAX.U (R95). -/
def execMaxU (d a b : BitVec 5) (s : State) : Out := s.alu3 d a b fun x y => if x.ult y then y else x

/-- HASHS.CRC (R61, R100). -/
def execHashsCrc (d a b : BitVec 5) (s : State) : Out := s.alu3 d a b fun x y => (hashCrc (x.setWidth 32) (y.setWidth 32)).zeroExtend 64

/-- ADD with an immediate (R95). -/
def execAddImm (d a : BitVec 5) (i : BitVec 15) (s : State) : Out := s.alu2 d a fun x => x + immS15 i

/-- AND with an immediate (R95). -/
def execAndImm (d a : BitVec 5) (i : BitVec 15) (s : State) : Out := s.alu2 d a fun x => x &&& immS15 i

/-- OR with an immediate (R95). -/
def execOrImm (d a : BitVec 5) (i : BitVec 15) (s : State) : Out := s.alu2 d a fun x => x ||| immS15 i

/-- XOR with an immediate (R95). -/
def execXorImm (d a : BitVec 5) (i : BitVec 15) (s : State) : Out := s.alu2 d a fun x => x ^^^ immS15 i

/-- SHL.I (R96). -/
def execShlI (d a : BitVec 5) (n : BitVec 6) (s : State) : Out := s.alu2 d a fun x => x <<< n.toNat

/-- SHR.LI (R96). -/
def execShrLi (d a : BitVec 5) (n : BitVec 6) (s : State) : Out := s.alu2 d a fun x => x >>> n.toNat

/-- SHR.AI (R96). -/
def execShrAi (d a : BitVec 5) (n : BitVec 6) (s : State) : Out := s.alu2 d a fun x => x.sshiftRight n.toNat

/-- CMP.EQ (R97). -/
def execCmpEq (p : BitVec 3) (a b : BitVec 5) (s : State) : Out := s.cmp3 p a b cmpEq

/-- CMP.NE (R97). -/
def execCmpNe (p : BitVec 3) (a b : BitVec 5) (s : State) : Out := s.cmp3 p a b cmpNe

/-- CMP.LT (R97). -/
def execCmpLt (p : BitVec 3) (a b : BitVec 5) (s : State) : Out := s.cmp3 p a b cmpLt

/-- CMP.LE (R97). -/
def execCmpLe (p : BitVec 3) (a b : BitVec 5) (s : State) : Out := s.cmp3 p a b cmpLe

/-- CMP.LTU (R97). -/
def execCmpLtu (p : BitVec 3) (a b : BitVec 5) (s : State) : Out := s.cmp3 p a b cmpLtu

/-- CMP.LEU (R97). -/
def execCmpLeu (p : BitVec 3) (a b : BitVec 5) (s : State) : Out := s.cmp3 p a b cmpLeu

/-- SEL (R98). -/
def execSel (d a b : BitVec 5) (n : BitVec 1) (p : BitVec 3) (s : State) : Out :=
  s.alu3 d a b fun x y => if predTrue (s.seq.getP p) n then x else y

/-- LDI (R99). -/
def execLdi (d : BitVec 5) (i : BitVec 20) (s : State) : Out := s.doneG d (immLdi i)

/-- BITC.CLZ (R100). -/
def execBitcClz (d a : BitVec 5) (s : State) : Out := s.alu2 d a fun x => BitVec.ofNat 64 (clzGo x 64)

/-- BITC.CTZ (R100). -/
def execBitcCtz (d a : BitVec 5) (s : State) : Out := s.alu2 d a fun x => BitVec.ofNat 64 (ctzGo x 0 64)

/-- BITC.POPC (R100). -/
def execBitcPopc (d a : BitVec 5) (s : State) : Out := s.alu2 d a fun x => BitVec.ofNat 64 (popGo x 64)

/-- HASHS.LANE (R61, R100). -/
def execHashsLane (d a : BitVec 5) (s : State) : Out := s.alu2 d a fun x => (hashLane (x.setWidth 32)).zeroExtend 64

/-- HASHS.FOLD (R61, R100). -/
def execHashsFold (d a : BitVec 5) (s : State) : Out := s.alu2 d a fun x => (hashFold (x.setWidth 32)).zeroExtend 64

/-- EXTR: lsb + width above 64 traps ILLOP (R99). -/
def execExtr (d a : BitVec 5) (lsb wid : BitVec 6) (s : State) : Out :=
  if lsb.toNat + wid.toNat + 1 > 64 then s.illop (.extr d a lsb wid)
  else s.alu2 d a fun x => extractField x lsb.toNat (wid.toNat + 1)

/-- INSR: lsb + width above 64 traps ILLOP (R99). -/
def execInsr (d a : BitVec 5) (lsb wid : BitVec 6) (s : State) : Out :=
  if lsb.toNat + wid.toNat + 1 > 64 then s.illop (.insr d a lsb wid)
  else s.alu3 d d a fun x y => insertField x y lsb.toNat (wid.toNat + 1)

/-- IXA (R99). -/
def execIxa (d a b : BitVec 5) (w : BitVec 1) (sh : BitVec 3) (s : State) : Out :=
  s.alu3 d a b fun x y => x + (ixaOperand y w <<< sh.toNat)

/-- PLOG.AND (R98). -/
def execPlogAnd (d a b : BitVec 3) (s : State) : Out := s.plog3 d a b fun x y => x && y

/-- PLOG.OR (R98). -/
def execPlogOr (d a b : BitVec 3) (s : State) : Out := s.plog3 d a b fun x y => x || y

/-- PLOG.XOR (R98). -/
def execPlogXor (d a b : BitVec 3) (s : State) : Out := s.plog3 d a b fun x y => x != y

/-- PLOG.ANDN (R98). -/
def execPlogAndn (d a b : BitVec 3) (s : State) : Out := s.plog3 d a b fun x y => x && !y

end Sys2Proof.Machine
end

