-- ==== Sys2Proof/Machine/Walk.lean ====
section
/-! DEFINITION. Walks of the translation tables (R259-R266), leases (R268), and the records of translation faults in
both modes (R270-R272). Fault classes are the codes of R270. -/

namespace Sys2Proof.Machine

/-- Whether a frame lies in the partition's table range (R259). -/
def inTable (k : PartCfg) (f : Nat) : Bool := k.tableBase ≤ f && f < k.tableBase + k.tableLen

/-- The class of a malformed or missing chunk entry, if any (R262): TABLE, or 2 for V = 0, which is LAZY inside a lazy
region and MISSING outside (R270). -/
def entryFault (own : Nat) (k : PartCfg) (e : BitVec 64) : Option Nat :=
  if !ceV e then some 2
  else if ceOrd e == 3 || e.extractLsb' 48 16 != 0 || (ceRemote e && cePkg e == own)
      || (!ceRemote e && inTable k (ceFrame e)) then some 7
  else none

/-- The bytes of a tensor's descriptor in the partition's table (R259, R264). -/
def State.rawDesc (s : State) (p tensor : Nat) : BitVec 512 :=
  BitVec.ofNat 512 (s.homeNat ((s.part p).cfg.ttbase.toNat + 64 * tensor) 64)
/-- The descriptor that a walk reads: from the bay's cache, or past every cache (R265). -/
def State.walkDesc (s : State) (p b tensor : Nat) (fresh : Bool) : BitVec 512 :=
  match (s.bay b).desc.find? fun e => e.1 == tensor with
  | some e => if fresh then s.rawDesc p tensor else e.2
  | none => s.rawDesc p tensor

/-- What a walk reads: the descriptor, the shard entry of the row where the tensor is sharded, and where this package translates
the row the chunk entry with its address, or its fault class. -/
structure WalkRes where
  desc  : BitVec 512
  shard : Option ShardEnt
  chunk : Option (Except Nat (Nat × ChunkTr))

/-- The chunk entry of a descriptor at its address, or a fault class (R260, R262). -/
def State.walkChunk (s : State) (p : Nat) (d : Desc) (chunk : Nat) : Except Nat (Nat × ChunkTr) :=
  if chunk ≥ d.nchunk then .error 4
  else
    let pa := d.ctb + 8 * chunk
    let e := BitVec.ofNat 64 (s.homeNat pa 8)
    match entryFault s.hf.pkg.toNat (s.part p).cfg e with
    | some f => .error f
    | none => .ok (pa, { entry := e, fmtBad := !fmtOk e (BitVec.ofNat 64 (s.homeNat d.ctb 8)), shadow := d.shadow, split := d.sharded })

/-- A walk's reads (R260-R264, R269): the descriptor, the shard table before the chunk table, the chunk entry; or a fault
class of the descriptor or the shard table. `held` is the shard entry that the issuer's task holds for the row (R317), `fresh`
reads past every cache. -/
def State.walkRead (s : State) (p b tensor off : Nat) (held : Option ShardEnt) (fresh : Bool) : Except Nat WalkRes :=
  let raw := s.walkDesc p b tensor fresh
  let d := descOf raw
  let row := fun (h : ShardEnt) =>
    ({ desc := raw, shard := some h,
       chunk := if h.owner == s.hf.pkg.toNat then some (s.walkChunk p d (off / 65536)) else none } : WalkRes)
  if !d.v then .error 1
  else if !d.ok then .error 7
  else if !d.sharded then .ok { desc := raw, shard := none, chunk := some (s.walkChunk p d (off / 65536)) }
  else match held with
    | some h => .ok (row h)
    | none => match s.shards tensor raw (ceBlk (BitVec.ofNat 64 (s.homeNat d.ctb 8))) with
      | none => .error 7
      | some l => match l.find? fun h => h.holdsOff off with
        | none => .error 4
        | some h => if h.owner == s.hf.pkg.toNat || s.inDomain h.owner then .ok (row h) else .error 3

/-- The chunk entry of a tensor and its address, whoever asks: the tables as a walk reads them. -/
def State.walkEntry (s : State) (p b tensor chunk : Nat) : Except Nat (Nat × BitVec 64) :=
  match s.walkRead p b tensor (chunk * 65536) none false with
  | .error f => .error f
  | .ok r => match r.chunk with
    | none => .error 3
    | some c => c.map fun c => (c.1, c.2.entry)

/-! ### Caches (R259, R264) -/

/-- The set of a cache that a chunk takes: a free one (log 24). -/
def tlbSetOf (sets tensor chunk : Nat) : Nat := Config.tlbSet sets tensor chunk % sets

/-- Puts an entry into a cache in place of the one of the same chunk. Of a set with more than `ways` entries one without a
lease leaves, by a free choice; the set of a chunk is free too (log 24). Leased entries stay (R268). -/
def tlbPut (l : List TlbEntry) (sets ways pick : Nat) (x : TlbEntry) : List TlbEntry :=
  let same := fun (e : TlbEntry) => e.tensor == x.tensor && e.chunk == x.chunk
  let cur := l.find? fun e => same e && !e.stale
  let gen := match cur with
    | some e => e.gen
    | none => l.foldl (fun n e => if same e then max n (e.gen + 1) else n) 0
  let y := { x with leases := x.leases + cur.elim 0 (·.leases), gen := gen }
  let kept := l.filter fun e => !(same e && !e.stale)
  let mates := kept.filter fun e => !e.stale && tlbSetOf sets e.tensor e.chunk == tlbSetOf sets x.tensor x.chunk
  let out := mates.filter fun e => e.leases == 0
  if kept.length < ways || mates.length < ways || out.isEmpty then kept ++ [y]
  else
    let victim := out.getD ((Config.freeWord pick).toNat % out.length) {}
    kept.filter (fun e => !(e.tensor == victim.tensor && e.chunk == victim.chunk && !e.stale)) ++ [y]

/-- Fills the caches of a cell (32 sets of 4) and its bay (256 sets of 8). -/
def State.fillTlb (s : State) (c tensor chunk : Nat) (x : ChunkTr) : State :=
  let e : TlbEntry := { tensor := tensor, chunk := chunk, tr := x }
  let n := s.freeCtr
  (({ s with freeCtr := n + 2 }).modCell c fun k => { k with tlb := tlbPut k.tlb 32 4 n e }).modBay (bayOf c) fun b =>
    { b with tlb := tlbPut b.tlb 256 8 (n + 1) e }

/-- Keeps a descriptor in a bay's cache of 64, in place of an older copy; only one with V = 1 is kept (R259, R264). -/
def State.fillDesc (s : State) (b tensor : Nat) (raw : BitVec 512) : State :=
  if !raw.getLsbD 0 then s
  else s.modBay b fun x =>
    let l := x.desc.filter (fun e => e.1 != tensor) ++ [(tensor, raw)]
    { x with desc := if l.length > 64 then l.drop 1 else l }

/-! ### A walk for an access (R264-R266) -/

/-- Two copies of one entry, whatever A and D show. -/
def sameEntry (a b : BitVec 64) : Bool := (a ||| 6) == (b ||| 6)

/-- Updates the leases that a task of the graph at a cell holds on a chunk. -/
def State.modLease (s : State) (c : Nat) (t : Task) (tensor chunk : Nat) (f : LeaseEnt → LeaseEnt) : State :=
  match s.graphAt c with
  | none => s
  | some (p, g) => s.modGraph p g.lid fun g => g.modTask t.x t.y fun t =>
    { t with leases := t.leases.map fun l =>
        if l.bay == bayOf c && l.tensor == tensor && l.chunk == chunk then f l else l }
/-- A task keeps a shard entry that it has used (R317). -/
def State.holdShard (s : State) (c : Nat) (t : Option Task) (h : Option ShardEnt) : State :=
  match s.graphAt c, t, h with
  | some (p, g), some t, some h => s.modGraph p g.lid fun g => g.modTask t.x t.y fun t =>
      if t.shards.contains h then t else { t with shards := t.shards ++ [h] }
  | _, _, _ => s

/-- Whether a chunk entry allows an access: its permission, and of a shadow window only the reads of a stream port (R165). -/
def ChunkTr.allows (x : ChunkTr) (need : Need) (gath : Bool) : Bool := permits x.entry need && (!x.shadow || gath)
/-- Whether a walk's outcome refuses an access. -/
def walkRefuses (need : Need) (gath : Bool) : Except Nat WalkRes → Bool
  | .error f => f == 3
  | .ok { chunk := some (.ok c), .. } => !c.2.allows need gath
  | .ok _ => false

/-- A walk for a descriptor alone, which the bay's cache then holds, or its fault class (R261, R264). -/
def State.walkTensor (s : State) (p b tensor : Nat) : Except Nat State :=
  let raw := s.walkDesc p b tensor false
  if !(descOf raw).v then .error 1 else if !(descOf raw).ok then .error 7 else .ok (s.fillDesc b tensor raw)

/-- A walk for an access (R264-R266): the state with A or D set and the caches filled, or the fault class. A refusal, by a
cached entry or by the walk, is confirmed by a walk past every cache. A task that holds a lease on the entry goes on through
the leased entry when memory has been rewritten; a row whose shard entry it does not hold yet is looked up all the same (R269).
The reader of a shadow window learns of it by the entry (R165). -/
def State.walkAccess (s : State) (p : Nat) (k : Walk) (need : Need) : Except Nat State :=
  let c := k.cell
  let tensor := vaTensor k.va
  let chunk := vaOff k.va / 65536
  let gath := k.kind == AccKind.read && k.port < 0x80
  let t := s.taskFor { cell := c, span := k.span, port := k.port, cls := .seq }
  let lease := leaseFor c t tensor chunk
  let held := t.bind fun t => t.shardAt tensor (vaOff k.va)
  let first := s.walkRead p (bayOf c) tensor (vaOff k.va) held false
  let refused := (match s.cachedEntry c t tensor chunk with
    | none => false
    | some (x, _) => !permits x.entry need) || walkRefuses need gath first
  let res := if refused then s.walkRead p (bayOf c) tensor (vaOff k.va) held true else first
  let leased := fun (s : State) (ok : LeaseEnt → Bool) (f : Nat) => match t, lease with
    | some t, some l =>
      if l.tr.allows need gath && ok l then Except.ok (s.modLease c t tensor chunk fun l => { l with noCas := true }) else .error f
    | _, _ => .error f
  match res with
  | .error f => leased s (fun l => !l.tr.split || held.isSome) f
  | .ok r =>
    let s := (s.fillDesc (bayOf c) tensor r.desc).holdShard c t r.shard
    match r.chunk with
    | none => .ok s
    | some (.error f) => leased s (fun _ => true) f
    | some (.ok (pa, x)) =>
      let y := { x with entry := x.entry ||| adBits x.entry need }
      let set := fun (s : State) => if y.entry == x.entry then s else s.homeStore pa (natLe y.entry.toNat 8)
      match t, lease with
      | some t, some l =>
        if l.tr.allows need gath && !sameEntry x.entry l.tr.entry then .ok (s.modLease c t tensor chunk fun l => { l with noCas := true })
        else if x.allows need gath then
          .ok (((set s).modLease c t tensor chunk fun l => { l with tr := y }).fillTlb c tensor chunk y)
        else .error 3
      | _, _ => if x.allows need gath then .ok ((set s).fillTlb c tensor chunk y) else .error 3
/-- What a walk does: for an access, or for a descriptor alone. -/
def State.doWalk (s : State) (p : Nat) (k : Walk) (need : Need) : Except Nat State :=
  if k.desc then s.walkTensor p (bayOf k.cell) (vaTensor k.va) else s.walkAccess p k need

/-- The need of an access kind as a walk sees it. -/
def kindNeed : AccKind → Need
  | .read => .rd
  | .gather => .rd
  | .write => .wr
  | .atomic => .rmw

/-- The code of an access kind (R270). -/
def kindCode : AccKind → Nat
  | .read => 0
  | .write => 1
  | .atomic => 2
  | .gather => 3

/-- A translation record of 64 bytes (R271): class, kind, port, chunk, cell, base, stride and count of an engine that has
a pattern. -/
def xlRec (tensor cls kind port chunk cell base s0 n0 i0 : Nat) : FaultRec :=
  { w0 := BitVec.ofNat 64 (tensor % 65536 + cls % 16 * 2 ^ 16 + kind % 8 * 2 ^ 20 + port % 256 * 2 ^ 24 + chunk % 2 ^ 32 * 2 ^ 32)
    w1 := BitVec.ofNat 64 (base % 2 ^ 48 + cell % 16384 * 2 ^ 48)
    w2 := BitVec.ofNat 64 s0
    w5 := BitVec.ofNat 64 (n0 % 2 ^ 32 + 2 ^ 32)
    w6 := BitVec.ofNat 64 (1 + i0 % 2 ^ 32 * 2 ^ 32) }

/-- A ring record of 32 bytes at the ring's tail, or waiting while the ring is full (R210, R272). -/
def State.pushRing (s : State) (p : Nat) (r : BitVec 256) : State :=
  let fq := (s.part p).fq
  if (fq.tail - fq.head).toNat < 2 ^ fq.ringSize then
    s.modPart p fun x => { x with fq := { fq with ringOut := fq.ringOut ++ [r], tail := fq.tail + 1 } }
  else (s.modPart p fun x => { x with fq := { fq with ringWait := fq.ringWait ++ [r] } }).bumpPart p 0x01E 1

/-- Raises an MSI-X vector of a partition's function (R349). -/
def State.raiseVec (s : State) (p v : Nat) : State := s.modPart p fun x => { x with msix := x.msix ++ [v] }

/-- A command's answer in the mailbox of PF 0; the word's layout is the model's (log 37). Status 0 done, 1 PERM, 2 refused. -/
def State.answerPf (s : State) (cmd status : Nat) : State :=
  { s with hf := { s.hf with mail := s.hf.mail ++ [BitVec.ofNat 64 (cmd * 256 + status)] } }
/-- A command's answer in a partition's mailbox, with vector 3 (R349). -/
def State.answerVf (s : State) (p cmd status : Nat) : State :=
  (s.modPart p fun q => { q with mail := q.mail ++ [BitVec.ofNat 64 (cmd * 256 + status)] }).raiseVec p 3
/-- The answer to a command in the mailbox of the function that gave it. -/
def State.answer (s : State) (cmd status : Nat) : State :=
  if s.focus.fn == 0 then s.answerPf cmd status else s.answerVf (s.focus.fn - 1) cmd status

/-- A record to the fault queue, raising vector 0 when the queue becomes non-empty (R349). -/
def State.record (s : State) (p : Nat) (r : FaultRec) : State :=
  let s' := s.pushRec p r
  if (s.part p).fq.queue.isEmpty then s'.raiseVec p 0 else s'

/-- A translation fault of a port is reported in the partition's current mode, and the port stops (R271, R272). The
pattern of a copy engine is its stride, block count and progress. -/
def State.reportXl (s : State) (p c port cls kind : Nat) (va : Word) (span : Option Word) (pat : Option (Nat × Nat × Nat)) :
    State :=
  let add := fun (l : List Nat) => if l.contains port then l else l ++ [port]
  let ring := (s.part p).fq.ring
  let s := s.modCell c fun x => { x with stopped := add x.stopped, ringed := if ring then add x.ringed else x.ringed }
  let chunk := vaOff va / 65536
  if (s.part p).fq.ring then
    let r := xlRec (vaTensor va) cls kind port chunk c (vaOff va) 0 1 0
    s.pushRing p (BitVec.ofNat 64 ((span.getD 0).toNat % 2 ^ 32) ++ s.tbase ++ r.w1 ++ r.w0)
  else
    match pat with
    | some (base, n, i) => s.record p (xlRec (vaTensor va) cls kind port chunk c base 256 n i)
    | none => s.record p (xlRec (vaTensor va) cls kind port chunk c (vaOff va) 0 1 0)

/-! ### Leases (R268) -/

/-- The leased entries of a bay (counter 0x014). -/
def Bay.leased (b : Bay) : Nat := (b.tlb.filter fun e => e.leases != 0).length

/-- The rows that a chunk's bytes can meet along the split dimension. -/
def Desc.rowsOf (d : Desc) (blk : Option (Nat × Bool)) (chunk : Nat) : Nat × Nat :=
  if blk.isNone && d.order.getLast? == some d.sdim then (d.rowAt none (65536 * chunk), d.rowAt none (65536 * chunk + 65535))
  else (0, d.extent d.sdim)
/-- The chunk entry of a chunk that a lease holds, or a fault class; 8 for a chunk all of whose rows other packages own, which
is not translated here (R269). -/
def State.leaseEntry (s : State) (p b tensor chunk : Nat) : Except Nat (BitVec 512 × ChunkTr) :=
  let raw := s.walkDesc p b tensor false
  let d := descOf raw
  let blk := ceBlk (BitVec.ofNat 64 (s.homeNat d.ctb 8))
  if !d.v then .error 1
  else if !d.ok then .error 7
  else
    let own := !d.sharded || match s.shards tensor raw blk with
      | none => true
      | some l => l.any fun h => h.owner == s.hf.pkg.toNat && h.first ≤ (d.rowsOf blk chunk).2 && (d.rowsOf blk chunk).1 < h.last
    if d.sharded && (s.shards tensor raw blk).isNone then .error 7
    else if !own then .error 8
    else (s.walkChunk p d chunk).map fun c => (raw, c.2)

/-- Takes a lease on a chunk in a bay: a wait (none) while 1,536 entries are leased, or a fault class. -/
def State.takeLease (s : State) (p b tensor chunk : Nat) : Except (Option Nat) (LeaseEnt × State) :=
  let x := s.bay b
  match x.tlb.find? fun e => e.tensor == tensor && e.chunk == chunk && !e.stale with
  | some e =>
    if e.leases == 0 && x.leased ≥ 1536 then .error none
    else .ok ({ bay := b, tensor := tensor, chunk := chunk, tr := e.tr, gen := e.gen },
      s.modBay b fun x => { x with tlb := x.tlb.map fun o =>
        if o.tensor == tensor && o.chunk == chunk && !o.stale then { o with leases := o.leases + 1 } else o })
  | none =>
    if x.leased ≥ 1536 then .error none
    else match s.leaseEntry p b tensor chunk with
      | .error f => .error (some f)
      | .ok (raw, e) =>
        let s := (s.fillDesc b tensor raw).modBay b fun x =>
          { x with tlb := tlbPut x.tlb 256 8 s.freeCtr { tensor := tensor, chunk := chunk, tr := e, leases := 1 } }
        let gen := ((s.bay b).tlb.find? fun e => e.tensor == tensor && e.chunk == chunk && !e.stale).elim 0 (·.gen)
        .ok ({ bay := b, tensor := tensor, chunk := chunk, tr := e, gen := gen }, { s with freeCtr := s.freeCtr + 1 })

/-- Whether an invalidation names a chunk (R267). -/
def Inval.names (i : Inval) (tensor chunk : Nat) : Bool :=
  tensor == i.tensor && (i.count == 0 || (i.first ≤ chunk && chunk < i.first + i.count))

/-- Reports a stage of an invalidation in the partition's mailbox (R268, R349); the word's layout is the model's (log 37). -/
def State.tellInval (s : State) (p stage : Nat) (i : Inval) : State :=
  (s.modPart p fun q => { q with mail := q.mail ++ [BitVec.ofNat 64 (stage * 2 ^ 48 + i.tensor)] }).raiseVec p 3

/-- Whether a task keeps the shard entries of a tensor until its edge: it holds a lease on it, or its release walked a region
there whose rows other packages own (R317, R321). -/
def Task.keepsShards (t : Task) (tensor : Nat) : Bool :=
  t.leases.any (fun l => l.tensor == tensor) || t.regions.any fun r => rgTensor r == tensor && !rgLazy r
/-- The graphs of a partition, placed and yielded (R301). -/
def Part.allGraphs (q : Part) : List Graph := q.graphs ++ q.yields.map fun e => e.2.graph
/-- The tasks of a partition, those of yielded launches among them. -/
def Part.tasks (q : Part) : List Task := q.allGraphs.flatMap (·.tasks)

/-- The second stage of invalidations whose removed entries are leased no more, chunk entries and shard entries (R268,
R317). -/
def State.invalDone (s : State) (p : Nat) : State :=
  let held := fun (i : Inval) => ((s.part p).cfg.bays.any fun b =>
      (s.bay b).tlb.any fun e => e.stale && e.leases != 0 && i.names e.tensor e.chunk)
    || (s.part p).tasks.any fun t => t.oldShards.contains i.tensor
  let done := (s.part p).inval.filter fun i => i.told && !held i
  done.foldl (fun s i => s.tellInval p 2 i)
    (s.modPart p fun q => { q with inval := q.inval.filter fun i => !(i.told && !held i) })

/-- Releases a lease; a removed entry leaves with its last lease. -/
def State.dropLease (s : State) (l : LeaseEnt) : State :=
  let s := s.modBay l.bay fun x => { x with tlb :=
    (modFirst (fun e => e.tensor == l.tensor && e.chunk == l.chunk && e.leases != 0 && e.gen == l.gen)
      (fun e => { e with leases := e.leases - 1 }) x.tlb).filter fun e => !(e.stale && e.leases == 0) }
  match s.partOfBay l.bay with
  | none => s
  | some p => if (s.part p).inval.isEmpty then s else s.invalDone p

/-- The chunks of a region that are leased: at most its first 1,536 (R268). -/
def rgChunks (r : BitVec 256) : List Nat :=
  if rgLazy r then []
  else ((List.range ((rgBase r + rgExtent r - 1) / 65536 - rgBase r / 65536 + 1)).take 1536).map (· + rgBase r / 65536)

/-- Takes the leases of a list of (bay, tensor, chunk); on a failure the state is as before. A chunk past the tensor's table
is not leased. -/
def State.takeLeases (s : State) (p : Nat) : List (Nat × Nat × Nat) → Except (Option Nat × Word) (List LeaseEnt × State)
  | [] => .ok ([], s)
  | (b, t, k) :: ls =>
    match s.takeLease p b t k with
    | .error none => .error (none, mkVa t (k * 65536))
    | .error (some f) =>
      if f == 1 || f == 2 || f == 7 then .error (some (if f == 2 then 1 else f), mkVa t (k * 65536)) else s.takeLeases p ls
    | .ok (l, s) => (s.takeLeases p ls).map fun r => (l :: r.1, r.2)

/-- The leases that a region needs on a graph's bays. -/
def Graph.leaseList (g : Graph) (rs : List (BitVec 256)) : List (Nat × Nat × Nat) :=
  (g.bays.flatMap fun b => rs.flatMap fun r => (rgChunks r).map fun k => (b, rgTensor r, k)).eraseDups

end Sys2Proof.Machine
end

