-- ==== Sys2Proof/Machine/TaskOps.lean ====
section
/-! DEFINITION. Operations over launches and tasks that several families share: the fields of a launch record (R274),
sinks (R30), the end of a task (R294, R295, R315), dependency aborts and release conditions (R296, R302), and the
regions of a task (R292). -/

namespace Sys2Proof.Machine

/-! ### The launch record (R274) -/

def lrWord (r : BitVec 512) (i : Nat) : BitVec 64 := r.extractLsb' (64 * i) 64
def lrField (r : BitVec 512) (i lo n : Nat) : Nat := ((lrWord r i).extractLsb' lo n).toNat
def lrImage (r : BitVec 512) : BitVec 64 := lrWord r 0
def lrGw (r : BitVec 512) : Nat := lrField r 1 0 12 + 1
def lrGh (r : BitVec 512) : Nat := lrField r 1 12 12 + 1
def lrPrio (r : BitVec 512) : Nat := lrField r 1 24 3
def lrQueue (r : BitVec 512) : Nat := lrField r 1 27 6
def lrNpred (r : BitVec 512) : Nat := lrField r 1 33 3
def lrIrq (r : BitVec 512) : Bool := (lrWord r 1).getLsbD 36
def lrVector (r : BitVec 512) : Nat := lrField r 1 37 11
def lrNreg (r : BitVec 512) : Nat := lrField r 1 48 5
def lrStencil (r : BitVec 512) : BitVec 48 := (lrWord r 2).extractLsb' 0 48
def lrPred (r : BitVec 512) (i : Nat) : Nat := lrField r 3 (16 * i) 16
def lrRegva (r : BitVec 512) : BitVec 64 := lrWord r 4
def lrDoneva (r : BitVec 512) : BitVec 64 := lrWord r 5
def lrQuantum (r : BitVec 512) : Nat := lrField r 6 0 32
def lrNrec (r : BitVec 512) : Nat := lrField r 6 32 32
/-- Adit byte k of word 0x38 (0-2 are IN1-IN3, 3-6 are EG0-EG3): the adit it names, if valid. -/
def lrAdit (r : BitVec 512) (k : Nat) : Option Nat :=
  let b := lrField r 7 (8 * k) 8
  if 128 ≤ b then some (b % 64) else none
/-- Every adit that word 0x38 names. -/
def lrAdits (r : BitVec 512) : List Nat := (List.range 7).filterMap (lrAdit r)
/-- The stencil offsets of a mask (R278). -/
def stencilOffs (m : BitVec 48) : List (Int × Int) :=
  ((List.range 48).filter fun b => m.getLsbD b).map fun b =>
    let k := if b < 24 then b else b + 1
    (((k % 7 : Nat) : Int) - 3, ((k / 7 : Nat) : Int) - 3)

/-- Whether a record is malformed (R274). -/
def lrMalformed (r : BitVec 512) : Bool :=
  let b := fun k => lrField r 7 (8 * k) 8
  (lrWord r 1).extractLsb' 53 11 != 0 || (lrWord r 2).extractLsb' 48 16 != 0 || lrField r 7 56 8 != 0
    || lrNpred r > 4 || (List.range 4).any (fun i => lrNpred r ≤ i && lrPred r i != 0)
    || lrNreg r > 16 || lrNrec r > 4096
    || (lrIrq r && lrVector r < 4)
    || (List.range 7).any (fun k => b k / 64 % 2 == 1 || (b k < 128 && b k != 0))
    || (lrAdits r).eraseDups.length != (lrAdits r).length

/-! ### Images and sinks -/

/-- An image of a partition's list (R359). -/
def State.imageOf (s : State) (p : Nat) (id : BitVec 64) : Option Image :=
  ((s.part p).images.find? fun e => e.img.id == id).map (·.img)
def State.graphImage (s : State) (p : Nat) (g : Graph) : Image := (s.imageOf p g.imageId).getD {}
/-- The variant that a graph was placed with (R283). -/
def State.graphVariant (s : State) (p : Nat) (g : Graph) : Variant := ((s.graphImage p g).variants[g.variant]?).getD {}

/-- A cell's place in a graph's rectangle. -/
def Graph.rel (g : Graph) (c : Nat) : Nat × Nat := (cellX c - 8 * g.ox, cellY c - 8 * g.oy)
/-- The cell at a place of a graph's rectangle. -/
def Graph.cellOf (g : Graph) (x y : Nat) : Nat := cellAt (8 * g.ox + x) (8 * g.oy + y)
/-- The cells of a graph. -/
def Graph.cells (g : Graph) : List Nat := g.bays.flatMap bayCells

/-- The index of the sink at a unit of a cell (R30). -/
def State.sinkIdx (s : State) (p : Nat) (g : Graph) (c unit : Nat) : Option Nat :=
  (s.graphVariant p g).sinks.findIdx? fun k => (k.x, k.y) == g.rel c && k.unit == unit

/-- A token reaches a unit that may be a sink: progress for the watchdog (R323), an EOT for its task (R31), a DONE for
the stream (R30). -/
def State.sinkToken (s : State) (c unit : Nat) (t : Token) : State :=
  match s.graphAt c with
  | none => s
  | some (p, g) =>
    match s.sinkIdx p g c unit with
    | none => s
    | some k =>
      s.modGraph p g.lid fun g =>
        let g := { g with wdog := 0, wdDue := none }
        if t.kind == 4 then
          { g with
            tasks := modFirst (fun x => x.span == t.ref && (x.st == 1 || x.st == 4))
              (fun x => if x.eots.contains k then x else { x with eots := x.eots ++ [k] }) g.tasks }
        else if t.kind == 2 then (if g.doneSinks.contains k then g else { g with doneSinks := g.doneSinks ++ [k] })
        else g

/-! ### Regions of a task -/

/-- sext(v, 48) as an integer. -/
def sx48 (v : BitVec 48) : Int := v.toInt

/-- A template instantiated for task (x, y) (R292): the record with its base in place of BASE0 and CUR 0, or none. -/
def State.instRegion (s : State) (p b : Nat) (r : BitVec 256) (x y : Nat) : Option (BitVec 256) :=
  let sx := sx48 (r.extractLsb' 128 48)
  let sy := sx48 (r.extractLsb' 192 48)
  let base : Int := (rgBase r : Int) + (x : Int) * sx + (y : Int) * sy
  if base < 0 || base + rgExtent r > 2 ^ 48 || rgExtent r == 0 || r.extractLsb' 109 19 != 0
      || r.getLsbD 108 || r.extractLsb' 176 16 != 0 || r.extractLsb' 240 16 != 0
      || rgTensor r ≥ 0xFFFE || !(s.desc p b (rgTensor r)).v then none
  else some (r.extractLsb' 48 208 ++ BitVec.ofNat 48 base.toNat)

/-- All templates of a graph for a task; none if one is faulty. -/
def State.instRegions (s : State) (p : Nat) (g : Graph) (x y : Nat) : Option (List (BitVec 256)) :=
  match g.templates with
  | none => none
  | some ts => ts.mapM fun r => s.instRegion p (g.oy * 12 + g.ox) r x y

/-- Two regions meet, and conflict (R292, R302). -/
def rgMeet (a b : BitVec 256) : Bool :=
  rgTensor a == rgTensor b && rgBase a < rgBase b + rgExtent b && rgBase b < rgBase a + rgExtent a
def rgConflict (a b : BitVec 256) : Bool :=
  rgMeet a b && !((rgKind a == 0 && rgKind b == 0) || (rgKind a == 3 && rgKind b == 3))
def regsConflict (as bs : List (BitVec 256)) : Bool := as.any fun a => bs.any fun b => rgConflict a b
/-- The write set and read set of a task (R293). -/
def writeSet (rs : List (BitVec 256)) : List (BitVec 256) := rs.filter fun r => rgKind r != 0
def readSet (rs : List (BitVec 256)) : List (BitVec 256) := rs.filter fun r => rgKind r != 1

/-- CUR of a task region record (R291). -/
def rgCur (r : BitVec 256) : Nat := (r.getLsbD 108).toNat * 2 ^ 32 + (r.extractLsb' 240 16).toNat * 2 ^ 16 + (r.extractLsb' 176 16).toNat
/-- A record with CUR set. -/
def rgSetCur (r : BitVec 256) (n : Nat) : BitVec 256 :=
  let w := fun i => rgWord r i
  let hi := BitVec.ofNat 1 (n / 2 ^ 32)
  ((BitVec.ofNat 16 (n / 2 ^ 16) ++ (w 3).extractLsb' 0 48) ++ (BitVec.ofNat 16 n ++ (w 2).extractLsb' 0 48)
    ++ ((w 1).extractLsb' 45 19 ++ hi ++ (w 1).extractLsb' 0 44) ++ w 0 : BitVec 256)
/-- The number of 256-byte units of a record (R301). -/
def rgEnd (r : BitVec 256) : Nat := (rgExtent r + 255) / 256

/-! ### The end of a task -/

/-- A task has ended in states 3, 4 and 5 (R294). -/
def Task.ended (t : Task) : Bool := t.st == 3 || t.st == 4 || t.st == 5

/-- The lowest grid row, from LOW on, with a task not yet ended (R290). The first argument is fuel. -/
def Graph.lowFrom (g : Graph) : Nat → Nat → Nat
  | 0, y => y
  | f + 1, y =>
    if y + 1 < lrGh g.entry.lrec && (g.tasks.filter fun t => t.y == y && t.ended).length ≥ lrGw g.entry.lrec
    then g.lowFrom f (y + 1) else y
def Graph.setLow (g : Graph) : Graph :=
  if g.entry.ragged.isSome then g else { g with low := g.lowFrom 4096 g.low }

/-- The 32 bytes of an entry of the expert residency table (R309), and an entry by its bytes. -/
def Ert.bits (e : Ert) : BitVec 256 :=
  (e.last ++ e.lode ++ (e.size ++ 0#13 ++ e.frame ++ e.slot)
    ++ (e.wait ++ e.lease ++ e.pin ++ 0#2 ++ BitVec.ofBool e.req ++ BitVec.ofBool e.fail ++ BitVec.ofBool e.v
      ++ BitVec.ofBool e.dirty ++ e.state) : BitVec 256)
def ertOf (b : BitVec 256) : Ert :=
  { state := b.extractLsb' 0 2, dirty := b.getLsbD 2, v := b.getLsbD 3, fail := b.getLsbD 4, req := b.getLsbD 5
    pin := b.extractLsb' 8 8, lease := b.extractLsb' 16 16, wait := b.extractLsb' 32 32, slot := b.extractLsb' 64 12
    frame := b.extractLsb' 76 23, size := b.extractLsb' 112 16, lode := b.extractLsb' 128 64, last := b.extractLsb' 192 64 }
/-- Where the entry of an expert lies (R309). -/
def State.ertAt (s : State) (p x : Nat) : Nat := (s.part p).cfg.ertBase.toNat + 32 * x
/-- The entry of an expert, in the table range of HBM, which no program access reaches (R259, R309). -/
def State.ert (s : State) (p x : Nat) : Ert := ertOf (BitVec.ofNat 256 (memNat s.mem.hbm (s.ertAt p x) 32))
def State.setErt (s : State) (p x : Nat) (e : Ert) : State :=
  s.setHbm (memStore s.mem.hbm (s.ertAt p x) (natLe e.bits.toNat 32))
def State.modErt (s : State) (p x : Nat) (f : Ert → Ert) : State := s.setErt p x (f (s.ert p x))

/-- A task's end lowers its expert's LEASE and may set DIRTY (R315). -/
def State.expertEnd (s : State) (p : Nat) (t : Task) : State :=
  match t.xid with
  | none => s
  | some x => s.modErt p x fun e =>
      { e with
        lease := e.lease - 1
        dirty := e.dirty || (writeSet t.regions).any fun r => rgTensor r == (s.part p).cfg.slotT + e.slot.toNat }

/-- A task gives back its leases and the shard entries it has used (R268, R317). -/
def State.endLeases (s : State) (p lid : Nat) (t : Task) : State :=
  let s := t.leases.foldl State.dropLease
    (s.modGraph p lid fun g => g.modTask t.x t.y fun t => { t with leases := [], shards := [], oldShards := [] })
  if t.oldShards.isEmpty then s else s.invalDone p

/-- The bindings that a task issued have passed its task edge (R187). -/
def Part.edgeOf (q : Part) (lid x y : Nat) : Part :=
  { q with
    edges := q.edges + 1
    windows := q.windows.map fun (e : Nat × List WinVer) => (e.1, e.2.map fun v =>
      if v.lid == lid && v.x == x && v.y == y && v.edge.isNone then { v with edge := some q.edges } else v) }

/-- A task ends in a state (R294): its leases are released, its expert's LEASE falls, LOW follows, and what it wrote is kept for
the flush at the launch's end (R300). A task of an RLAUNCH leaves the creation list and counts for INFO if it ended aborted
(R297); one aborted after its release stays known, for its span flows on (R295). -/
def State.endTask (s : State) (p lid x y : Nat) (st : BitVec 3) : State :=
  match s.graphAny p lid with
  | none => s
  | some g =>
    match g.task x y with
    | none => s
    | some t =>
      let s := (s.endLeases p lid t).expertEnd p t
      let s := if st == 3 then s.modPart p fun q => q.edgeOf lid x y else s
      s.modGraph p lid fun g =>
        let g := { g.modTask x y fun t => { t with st := st } with
          wrote := (g.wrote ++ writeSet t.regions).eraseDups
          wroteOn := t.wroteOn.foldl (fun m (e : Nat × Unit) => SMap.set m e.1 (s.part p).edges) g.wroteOn }
        let g := if g.entry.ragged.isSome then
            { g with
              tasks := if st == 4 && t.st != 0 then g.tasks
                else g.tasks.filter (fun t => !(t.x == x && t.y == y))
              aborted := g.aborted + if st == 3 then 0 else 1 }
          else g
        if st == 3 then { g.setLow with wdog := 0, wdDue := none } else g.setLow

/-- The state code of a grid task; a task not listed is WAITING. -/
def Graph.stAt (g : Graph) (x y : Nat) : BitVec 3 := ((g.task x y).map (·.st)).getD 0

/-- A task of the grid put into the table in a state, if it is not there. -/
def Graph.putTask (g : Graph) (x y : Nat) (st : BitVec 3) : Graph :=
  if (g.task x y).isSome then g.modTask x y fun t => { t with st := st }
  else { g with tasks := g.tasks ++ [{ x := x, y := y, st := st }] }

/-- The stencil predecessors of a task that lie inside the grid (R296). -/
def Graph.predTasks (g : Graph) (x y : Nat) : List (Nat × Nat) :=
  (stencilOffs (lrStencil g.entry.lrec)).filterMap fun d =>
    let px := (x : Int) + d.1
    let py := (y : Int) + d.2
    if 0 ≤ px && px < lrGw g.entry.lrec && 0 ≤ py && py < lrGh g.entry.lrec then some (px.toNat, py.toNat) else none
/-- The stencil successors of a task that lie inside the grid (R296). -/
def Graph.succTasks (g : Graph) (x y : Nat) : List (Nat × Nat) :=
  (stencilOffs (lrStencil g.entry.lrec)).filterMap fun d =>
    let px := (x : Int) - d.1
    let py := (y : Int) - d.2
    if 0 ≤ px && px < lrGw g.entry.lrec && 0 ≤ py && py < lrGh g.entry.lrec then some (px.toNat, py.toNat) else none

/-- The tasks of the scoreboard window, in ascending y * GW + x (R294). -/
def Graph.window (g : Graph) : List (Nat × Nat) :=
  (List.range (min 64 (lrGh g.entry.lrec - g.low))).flatMap fun j =>
    (List.range (lrGw g.entry.lrec)).map fun x => (x, g.low + j)

/-- Whether a predecessor launch retired with STATUS 1 (R296). -/
def LqEntry.predFailed (e : LqEntry) : Bool := e.preds.any fun q => q.2 == some 1
/-- Whether every predecessor launch has retired (R296). -/
def LqEntry.predsRetired (e : LqEntry) : Bool := e.preds.all fun q => q.2 == some 0 || q.2 == some 1

/-- Dependency aborts (R296): in ascending order, a WAITING task of the window with an aborted stencil predecessor, or of
a launch one of whose predecessors retired with STATUS 1, becomes DEP_ABORTED. The second argument repeats the pass while
LOW moves. -/
def Graph.depAbortPass (g : Graph) : Graph :=
  if g.entry.ragged.isSome then
    if g.entry.predFailed then
      { g with aborted := g.aborted + (g.tasks.filter fun t => t.st == 0).length,
               tasks := g.tasks.filter fun t => t.st != 0 }
    else g
  else
    (g.window.foldl (fun g q =>
      if g.stAt q.1 q.2 == 0 && (g.entry.predFailed
          || (g.predTasks q.1 q.2).any fun r => g.stAt r.1 r.2 == 4 || g.stAt r.1 r.2 == 5)
      then g.putTask q.1 q.2 5 else g) g).setLow
def Graph.depAborts (g : Graph) : Nat → Graph
  | 0 => g
  | f + 1 =>
    let g' := g.depAbortPass
    if g'.low == g.low then g' else g'.depAborts f
/-- The WAITING tasks that the failure of a predecessor ends in an RLAUNCH (R296). -/
def Graph.depLost (g : Graph) : List Task :=
  if g.entry.ragged.isSome && g.entry.predFailed then g.tasks.filter fun t => t.st == 0 else []
/-- Dependency aborts of a launch (R296); a task of an expert that ends so gives back its hold on the expert (R315). -/
def State.depAbort (s : State) (p lid : Nat) : State :=
  (((s.graphAny p lid).map Graph.depLost).getD []).foldl (fun s t => s.expertEnd p t) (s.modGraph p lid fun g => g.depAborts 4096)

/-- Where an abort arises: the cell, PC and PORT of its record; zeros where the launch scheduler aborts (R340, log 51). -/
structure Site where
  cell : Nat := 0
  pc   : Nat := 0
  port : Nat := 0
  deriving DecidableEq, Repr

/-- A task ends ABORTED with one record of TYPE 7 (R295). -/
def State.abortOne (s : State) (p lid x y sub cause : Nat) (va : Nat) (at_ : Site) : State :=
  match s.graphAny p lid with
  | none => s
  | some g =>
    let t := (g.task x y).getD { x := x, y := y }
    let s := s.modGraph p lid fun g => g.putTask x y (g.stAt x y)
    if t.ended then s else (s.endTask p lid x y 4).record p (evRec s lid 7 sub cause (x, y) va at_.cell at_.pc at_.port 0 0)

/-- A task is aborted (R295), and its successors follow (R296). -/
def State.abortTask (s : State) (p lid x y sub cause : Nat) (va : Nat) (at_ : Site) : State :=
  (s.abortOne p lid x y sub cause va at_).depAbort p lid

/-- The task of the span open at an issuer is aborted for an undeclared access (R304). -/
def State.abortFor (s : State) (w : Who) (va : Word) : State :=
  match s.graphAt w.cell, s.taskFor w with
  | some (p, g), some t => s.abortTask p g.lid t.x t.y 0 0x04 (vaOff va) { cell := w.cell, port := w.port }
  | _, _ => s

/-! ### Release conditions -/

/-- Whether one launch ranks above another (R277): priority, then age, then the order of one tick by source; what is still equal
keeps the order of the lists (log 107). -/
def rankAbove (a b : LqEntry) : Bool :=
  lrPrio a.lrec > lrPrio b.lrec || (lrPrio a.lrec == lrPrio b.lrec && (a.age < b.age || (a.age == b.age && a.tie < b.tie)))

/-- The tasks of a partition that run: RELEASED or FINISHED, those of a yielded launch among them (R301, R302). -/
def Part.running (q : Part) : List Task := q.tasks.filter fun t => t.st == 1 || t.st == 2

/-- The WAITING tasks of a graph within its scoreboard window, in order. -/
def Graph.waiting (g : Graph) : List (Nat × Nat) :=
  if g.entry.ragged.isSome then (g.tasks.filter fun t => t.st == 0).map fun t => (t.x, t.y)
  else g.window.filter fun q => g.stAt q.1 q.2 == 0

/-- Every WAITING task of a graph, those past the window among them (R294, R302). -/
def Graph.allWaiting (g : Graph) : List (Nat × Nat) :=
  if g.entry.ragged.isSome then g.waiting
  else ((List.range (lrGh g.entry.lrec - g.low)).flatMap fun j => (List.range (lrGw g.entry.lrec)).map fun x => (x, g.low + j)).filter
    fun q => g.stAt q.1 q.2 == 0

/-- A region record of a kind over bytes of a tensor. -/
def mkRegion (tensor base extent : Nat) (kind : BitVec 2) : BitVec 256 :=
  (0#128 ++ (0#22 ++ kind ++ BitVec.ofNat 40 extent) ++ (BitVec.ofNat 16 tensor ++ BitVec.ofNat 48 base) : BitVec 256)

/-- Region records over bytes of a tensor, as many as EXTENT of 40 bits asks for. -/
def mkRegions (tensor base extent : Nat) (kind : BitVec 2) : List (BitVec 256) :=
  (List.range ((extent + 2 ^ 39 - 1) / 2 ^ 39)).map fun k => mkRegion tensor (base + 2 ^ 39 * k) (min (2 ^ 39) (extent - 2 ^ 39 * k)) kind

/-- The row ranges of a tensor that this package owns, first row and count; all of a tensor that is not sharded (R269). -/
def State.ownRows (s : State) (p tensor : Nat) : List (Nat × Nat) :=
  let raw := s.walkDesc p ((s.part p).cfg.bays.headD 0) tensor false
  let d := descOf raw
  if d.sharded then match s.shards tensor raw none with
    | none => []
    | some l => (l.filter fun h => h.owner == s.hf.pkg.toNat).map fun h => (h.first, h.last - h.first)
  else [(0, d.extent d.sdim)]

/-- The regions that an update task of an embedding entry writes (R319): a write region over each range owned, or over the
whole tensor when it owns more than 16 or its rows do not lie together. -/
def State.embRegions (s : State) (p : Nat) (e : Emb) : List (BitVec 256) :=
  let tensor := (e.w0.extractLsb' 0 16).toNat
  let d := s.desc p ((s.part p).cfg.bays.headD 0) tensor
  let rb := d.rowBytes
  let rs := s.ownRows p tensor
  if rs.length > 16 || d.order.getLast? != some d.sdim then mkRegions tensor 0 d.bytes 1
  else rs.flatMap fun r => mkRegions tensor (r.1 * rb) (r.2 * rb) 1

/-- PRIO of an embedding entry. -/
def Emb.prio (e : Emb) : Nat := (e.w0.extractLsb' 58 3).toNat
/-- Whether an update task that waits ranks above a launch (R277, R319). -/
def Emb.above (e : Emb) (l : LqEntry) : Bool := e.prio > lrPrio l.lrec || (e.prio == lrPrio l.lrec && e.age ≤ l.age)

/-- Whether a task joined to another by a chain of stencil successors (R302): the second can be reached from the first by
predecessor offsets. The first argument is fuel. -/
def Graph.reaches (g : Graph) (x : Nat × Nat) : Nat → List (Nat × Nat) → Bool
  | 0, _ => false
  | _, [] => false
  | f + 1, q :: todo =>
    let ps := g.predTasks q.1 q.2
    ps.contains x || g.reaches x f ((todo ++ ps).eraseDups)

/-- Whether a WAITING task is kept from running by a conflict (R302): with a running task, with a WAITING task of a
launch that ranks higher, placed or yielded, or with a lower WAITING task of its own launch that no stencil chain orders before it. -/
def State.blockedTask (s : State) (p : Nat) (g : Graph) (x y : Nat) (rs : List (BitVec 256)) : Bool :=
  let q := s.part p
  q.running.any (fun t => regsConflict rs t.regions)
    || q.emb.any (fun e => e.2.busy && (e.2.cur.isSome || e.2.above g.entry) && regsConflict rs (s.embRegions p e.2))
    || q.allGraphs.any fun h =>
      if h.lid == g.lid then
        g.entry.adit.isNone && (g.waiting.takeWhile (· != (x, y))).any fun w =>
          !g.reaches w 4096 [(x, y)] && match s.instRegions p g w.1 w.2 with
            | some ws => regsConflict rs ws
            | none => false
      else
        rankAbove h.entry g.entry && !(g.entry.preds.any fun e => e.1 == h.lid) && !(h.entry.preds.any fun e => e.1 == g.lid)
          && h.allWaiting.any fun w => match s.instRegions p h w.1 w.2 with
            | some ws => regsConflict rs ws
            | none => false

/-- Whether conditions 1, 2, 4 and 5 of R296 hold for a WAITING task with instantiated regions. -/
def State.releasable (s : State) (p : Nat) (g : Graph) (x y : Nat) (rs : List (BitVec 256)) : Bool :=
  g.stAt x y == 0 && g.entry.predsRetired
    && (g.predTasks x y).all (fun r => g.stAt r.1 r.2 == 3)
    && (g.tasks.filter fun t => t.st == 1 || t.st == 2).length < 256
    && (g.entry.ragged.isSome || (x < lrGw g.entry.lrec && g.low ≤ y && y < g.low + 64 && y < lrGh g.entry.lrec))
    && !s.blockedTask p g x y rs

/-- Whether the graph may begin another span: placed, live, and neither asked to yield nor to move (R285, R286). -/
def Graph.mayRelease (g : Graph) : Bool := g.live && !g.yreq && g.target.isNone

end Sys2Proof.Machine
end

