-- ==== Sys2Proof/Machine/Deliver.lean ====
section
/-! DEFINITION. Where tokens go: the slots an operation word uses (R37, R119-R137), graph faults of units (R26, R41, R136,
R229), input and output endpoints (R214, R215), router input buffers (R210, R211, R229), and delivery to each of them. -/

namespace Sys2Proof.Machine

/-! ### Faults of units (R336, R340) -/

/-- A token-kind fault: the record holds the whole token head (R26). `port` is the code of R271; a router has none there and
gives 0 (log 51). -/
def State.tokFault (s : State) (c : Nat) (sp : Option Word) (port : Nat) (t : Token) : State :=
  s.unitFault c 5 0x0B sp 0 0 port (tkHead t) t.ref
/-- An op-word fault: the word and the item (R41). -/
def State.opFault (s : State) (c : Nat) (sp : Option Word) (port : Nat) (w : BitVec 32) (item : Nat) : State :=
  s.unitFault c 2 0 sp 0 0 port (w.zeroExtend 64) (BitVec.ofNat 64 item)
/-- A format fault, or with cause MISALIGN a misaligned element access (R130, R136). -/
def State.fmtFault (s : State) (c : Nat) (sp : Option Word) (port cause : Nat) (va entry d1 : Word) : State :=
  s.unitFault c 3 cause sp (vaOff va) 0 port entry d1
/-- A router fault: store position and switch word (R74, R229). -/
def State.routerFault (s : State) (c pos : Nat) (w : BitVec 16) : State :=
  s.unitFault c 4 0 none pos 0 0 (w.zeroExtend 64) 0

/-! ### Slots of operation words -/

/-- The slots that a general word uses (R119-R137). -/
def instrSlots : Instr → List Nat
  | .vadd .. | .vsub .. | .vmul .. | .vmin .. | .vmax .. => [0, 1]
  | .vand .. | .vor .. | .vxor .. | .vshl .. | .vshrL .. | .vshrA .. => [0, 1]
  | .vcmpEq .. | .vcmpNe .. | .vcmpLt .. | .vcmpLe .. => [0, 1]
  | .vfma .. | .vsel .. => [0, 1, 2]
  | .vnegNeg .. | .vnegAbs .. | .vcvt .. => [0]
  | .vrcp .. | .vrsq .. | .vexp2 .. | .vlog2 .. => [0]
  | .vsumAdd .. | .vsumMin .. | .vsumMax .. => [0]
  | .vshuf .. => [0, 1]
  | .vconst .. | .vmov .. => [0]
  | .vbcmp .. | .vbeqm .. => [0, 1]
  | .vhashLane .. | .vhashFold .. => [0]
  | .vhashCrc .. => [0, 1]
  | .eld _ _ gd _ _ => if gd == 1 then [0, 2] else [0]
  | .est .. | .hins .. => [0, 1, 2]
  | .hprobe .. | .ecfg .. => [0]
  | _ => []

/-- Whether in2 is a guard slot (R39). -/
def instrGuarded : Instr → Bool
  | .est .. | .hins .. => true
  | .eld _ _ gd _ _ => gd == 1
  | _ => false

/-- Both destination codes of a general word (R68). -/
def instrDests : Instr → BitVec 6 × BitVec 6
  | .vadd _ _ _ _ a b | .vsub _ _ _ _ a b | .vmul _ _ _ _ a b | .vfma _ _ _ _ a b => (a, b)
  | .vnegNeg _ _ _ _ a b | .vnegAbs _ _ _ _ a b | .vcvt _ _ _ _ a b => (a, b)
  | .vrcp _ _ _ _ a b | .vrsq _ _ _ _ a b | .vexp2 _ _ _ _ a b | .vlog2 _ _ _ _ a b => (a, b)
  | .vsumAdd _ _ _ _ a b => (a, b)
  | .vmin _ _ _ a b | .vmax _ _ _ a b | .vsumMin _ _ _ a b | .vsumMax _ _ _ a b => (a, b)
  | .vconst _ _ _ a b | .eld _ _ _ a b => (a, b)
  | .vand _ _ a b | .vor _ _ a b | .vxor _ _ a b | .vshl _ _ a b | .vshrL _ _ a b | .vshrA _ _ a b => (a, b)
  | .vcmpEq _ _ a b | .vcmpNe _ _ a b | .vcmpLt _ _ a b | .vcmpLe _ _ a b | .vsel _ _ a b => (a, b)
  | .vshuf _ _ a b | .vmov _ _ a b | .est _ _ a b => (a, b)
  | .vbcmp _ a b | .vbeqm _ a b | .vhashLane _ a b | .vhashCrc _ a b | .vhashFold _ a b => (a, b)
  | .hprobe a b | .hins a b => (a, b)
  | .ecfg a => (a, 0x3F)
  | _ => (0x3F, 0x3F)

/-- The destination codes that a word sends to. -/
def destList (i : Instr) : List (BitVec 6) := [(instrDests i).1, (instrDests i).2].filter fun d => d != 0x3F

/-- How many results the output stage holds: the latency of R118; for ELD, which it gives no number for, 2 (log 25). A hash word's
latency is 2 and the slots that it probes. -/
def instrStage : Instr → Nat
  | .vmul .. | .vfma .. | .vcvt .. | .vshuf .. | .vbcmp .. | .vhashLane .. | .vhashCrc .. => 2
  | .vsumAdd .. | .vsumMin .. | .vsumMax .. => 6
  | .vrcp .. | .vrsq .. | .vexp2 .. | .vlog2 .. => 6
  | .eld .. | .est .. | .hprobe .. | .hins .. => 2
  | _ => 1

/-- The general word of an element, if its operation word is one. -/
def elemInstr (w : BitVec 32) : Option Instr :=
  match decodeOp w with
  | some (.instr i) => if (instrSlots i).isEmpty then none else some i
  | _ => none

/-- Whether a word is valid in an element of a cell kind (R129, R216): memory words need the kind, and destination codes
an element that the cell has. -/
def elemWordOk (c : Nat) (i : Instr) : Bool :=
  let k := kindOf c
  !(instrSlots i).isEmpty && (destList i).all (fun d => d.toNat ≥ 0x30 || d.toNat % 16 < elemCount c)
    && match i with
      | .eld .. | .est .. => k != 2
      | .hprobe .. | .hins .. => k == 0
      | _ => true

/-! ### Endpoints (R215) -/

/-- What an input endpoint is: an element slot, an actor port, a block's port, the accept port, a back input, a queue. -/
inductive Endpoint where
  | elem (e j : Nat)
  | actor (slot port : Nat)
  | block (unit port : Nat)
  | accept
  | seek (unit : Nat)
  | queue (q : Nat)
  deriving DecidableEq, Repr

/-- The input endpoint of a number in a cell, if the cell's kind assigns it (R215). -/
def inEndpoint (c n : Nat) : Option Endpoint :=
  let k := kindOf c
  if n < 0x30 then (if n / 3 < elemCount c then some (.elem (n / 3) (n % 3)) else none)
  else if n < 0x50 then some (.actor ((n - 0x30) / 4) ((n - 0x30) % 4))
  else if k == 0 then
    if n == 0x50 then some (.block 16 0) else if n == 0x51 then some (.block 17 0)
    else if n == 0x52 then some (.block 18 0) else if n == 0x53 then some (.block 18 1)
    else if n == 0x54 then some .accept
    else if n == 0x58 then some (.seek 16) else if n == 0x59 then some (.seek 17)
    else if 0x60 ≤ n && n < 0x80 then some (.queue (n - 0x60)) else none
  else if k == 1 then
    if n == 0x50 then some (.block 19 0) else if n == 0x51 then some (.block 19 1)
    else if n == 0x52 then some (.block 20 0) else if n == 0x53 then some (.block 20 1)
    else if n == 0x54 then some (.block 21 0) else if n == 0x55 then some (.block 21 1)
    else if n == 0x56 then some (.block 22 0) else if n == 0x57 then some (.block 22 1) else none
  else if n == 0x50 then some (.block 25 0) else if n == 0x51 then some (.block 23 0)
  else if n == 0x52 then some (.block 24 0) else none

/-- What an output endpoint is. -/
inductive OutPoint where
  | actor (slot port : Nat)
  | block (unit : Nat)
  | push
  | back (side : Nat)
  | queue (q : Nat)
  deriving DecidableEq, Repr

/-- The output endpoint of a number in a cell (R215). -/
def outEndpoint (c n : Nat) : Option OutPoint :=
  let k := kindOf c
  if n < 0x20 then some (.actor (n / 4) (n % 4))
  else if k == 0 then
    if n == 0x20 then some (.block 16) else if n == 0x21 then some (.block 17) else if n == 0x22 then some .push
    else if 0x60 ≤ n && n < 0x80 then some (.queue (n - 0x60)) else none
  else if k == 1 then
    if n == 0x20 then some (.block 19) else if n == 0x21 then some (.block 20)
    else if n == 0x22 then some (.block 21) else if n == 0x23 then some (.block 22)
    else if n == 0x30 then some (.back 0) else if n == 0x31 then some (.back 1) else none
  else if n == 0x20 then some (.block 27) else none

/-! ### Routers -/

/-- The number of a router buffer: port 0-3 N, E, S, W, 4-7 L0-L3; vc 0, 1, or 2 for the back channel. -/
def rIdx (port vc : Nat) : Nat := 3 * port + vc

/-- Whether a port of a cell faces a die bridge (R7, R13): its neighbour lies on another die. -/
def bridgePort (c port : Nat) : Bool :=
  match neighbour c port with
  | none => false
  | some n => dieOf n != dieOf c

/-- The depth of a router's input buffer (R210). -/
def inbDepth (c port vc : Nat) : Nat :=
  if vc == 2 then (if bridgePort c port then 4 else 2) else if bridgePort c port then 8 else 4

/-- The (port, vc) pairs that a switch word reads. -/
def swReads : SwWord → List (Nat × Nat)
  | .instr (.route src _ vc) => [(src.toNat, vc.toNat)]
  | .instr (.routeB src _) => [(src.toNat, 2)]
  | .instr (.steer dat ctl _ _) => [(dat.toNat, 0), (ctl.toNat, 0)]
  | .instr (.merge ctl inT inF _) => [(ctl.toNat, 0), (inT.toNat, 0), (inF.toNat, 0)]
  | .instr (.carry init lp ctl _) => [(init.toNat, 0), (lp.toNat, 0), (ctl.toNat, 0)]
  | .instr (.fork inp _) => [(inp.toNat, 0)]
  | .instr (.abut inp _ _ _) => [(inp.toNat, 0)]
  | _ => []

/-- The ports that a mask names (R72). -/
def maskPorts (m : BitVec 8) : List Nat := (List.range 8).filter fun p => m.getLsbD p

/-- The (port, vc) pairs that a switch word sends to. -/
def swSends : SwWord → List (Nat × Nat)
  | .instr (.route _ mask vc) => (maskPorts mask).map fun p => (p, vc.toNat)
  | .instr (.routeB _ mask) => (maskPorts mask).map fun p => (p, 2)
  | .instr (.steer _ _ outT outF) => [(outT.toNat, 0), (outF.toNat, 0)]
  | .instr (.merge _ _ _ out) => [(out.toNat, 0)]
  | .instr (.carry _ _ _ out) => [(out.toNat, 0)]
  | .instr (.fork _ mask) => (maskPorts mask).map fun p => (p, 0)
  | .instr (.abut _ out _ _) => [(out.toNat, 0)]
  | _ => []

/-- The decoded words of a router's store. -/
def Router.decoded (r : Router) : List SwWord := r.words.filterMap decodeSwitch
/-- Whether some switch word reads a buffer. -/
def Router.reads (r : Router) (port vc : Nat) : Bool := r.decoded.any fun w => (swReads w).contains (port, vc)
/-- Whether the store holds a CLRR (R229). -/
def Router.clears (r : Router) : Bool := r.decoded.any fun w => w == .clrr

/-- Whether a kind belongs on a channel (R25, R26). -/
def kindOn (vc : Nat) (t : Token) : Bool :=
  if vc == 2 then t.kind == 8 || t.kind == 9 else t.kind.toNat < 8

def State.modRouter (s : State) (c : Nat) (f : Router → Router) : State := s.modCell c fun x => { x with router := f x.router }

/-- A token leaves a router unread: discarded and counted if a CLRR stands in the store, else a router fault (R229). -/
def State.unread (s : State) (c : Nat) : State :=
  if (s.cell c).router.clears then s.bump c 0x020 1 else s.routerFault c 0 0

/-- A token arrives at a router's input buffer: kind check, then its reader (R26, R229). -/
def State.enterRouter (s : State) (c port vc : Nat) (t : Token) : State :=
  if !kindOn vc t then s.tokFault c none 0 t
  else if !(s.cell c).router.reads port vc then s.unread c
  else s.modRouter c fun r =>
    { r with inb := SMap.set r.inb (rIdx port vc) (SMap.get [] r.inb (rIdx port vc) ++ [t]) }

/-- Whether a router input buffer has a free place for a token of its own cell. -/
def State.localRoom (s : State) (c port vc : Nat) : Bool :=
  (SMap.get [] (s.cell c).router.inb (rIdx port vc)).length < inbDepth c port vc

/-! ### Delivery -/

/-- A token put into an element's slot, after the checks of R26, R39, R41 and R216. -/
def State.putElem (s : State) (c e j : Nat) (t : Token) : State :=
  let x := (s.cell c).elem e
  let i := elemInstr x.word
  let guardSlot := j == 2 && match i with
    | some i => instrGuarded i
    | none => false
  let used := match i with
    | some i => (instrSlots i).contains j
    | none => false
  if t.kind.toNat ≥ 8 then s.tokFault c x.span (3 * e) t
  else if t.kind == 7 && !guardSlot then s.tokFault c x.span (3 * e) t
  else if t.kind == 6 && j != 0 then s.tokFault c x.span (3 * e) t
  else if t.kind != 6 && !used then s.opFault c x.span (3 * e) x.word 0
  else s.modCell c fun y =>
    let x := y.elem e
    y.setElem e (if j == 0 then { x with in0 := some t } else if j == 1 then { x with in1 := some t } else { x with in2 := some t })

/-- The port code of a block's port 0 (R271): its endpoint number. -/
def blockPort (u : Nat) : Nat :=
  if u == 16 || u == 19 || u == 25 then 0x50 else if u == 17 || u == 23 then 0x51 else if u == 18 || u == 20 || u == 24 then 0x52
  else if u == 21 then 0x54 else if u == 22 then 0x56 else 0x50

/-- Whether a reducer's word uses redN.w (R251). -/
def usesWeight (w : BitVec 32) : Bool :=
  match decodeOp w with
  | some (.instr (.reduceWsum _ _ _ _ wsrc _ _)) => wsrc == 0
  | _ => false
/-- Whether a level writer's word uses lw.v (R255). -/
def usesValue (w : BitVec 32) : Bool :=
  match decodeOp w with
  | some (.instr (.lwriteD _ vw)) | some (.instr (.lwriteC _ _ _ vw)) | some (.instr (.lwriteB _ _ _ vw)) => vw != 0
  | _ => false

/-- A token put into a block's input, after the checks of R26, R39, R41, R216 and R236. A token at lw.v while VW is 0 raises the
op-word fault that R251 gives for redN.w (log 104). -/
def State.putBlock (s : State) (c u port : Nat) (t : Token) : State :=
  let b := (s.cell c).block u
  let unused := port == 1 && (if u == 21 || u == 22 then !usesWeight b.word else if u == 18 then !usesValue b.word else false)
  if t.kind.toNat ≥ 8 || t.kind == 7 then s.tokFault c b.span (blockPort u) t
  else if t.kind == 6 && (port != 0 || u == 24) then s.tokFault c b.span (blockPort u) t
  else if unused then s.opFault c b.span (blockPort u) b.word 0
  else s.modCell c fun x => let b := x.block u; x.setBlock u { b with inq := SMap.set b.inq port (SMap.get [] b.inq port ++ [t]) }

/-- How many tokens a block's input or the accept port holds (log 11). -/
def blockDepth : Nat := 1

/-- Whether an input endpoint has room (R37, R210). -/
def State.inRoom (s : State) (c : Nat) : Endpoint → Bool
  | .elem e j =>
    let x := (s.cell c).elem e
    (if j == 0 then x.in0 else if j == 1 then x.in1 else x.in2).isNone
  | .actor n p => (SMap.get [] ((s.cell c).slot n).inq p).length < 8
  | .block u p => (SMap.get [] ((s.cell c).block u).inq p).length < blockDepth
  | .accept => (s.cell c).m.ms.inq.length < blockDepth
  | .seek u => (SMap.get [] ((s.cell c).block u).back 0).isEmpty
  | .queue q =>
    let k := SMap.get {} (s.cell c).m.queues q
    k.toks.length < 16 * k.depth

/-- A token enters a channel queue (R212). -/
def State.queueIn (s : State) (c q : Nat) (t : Token) : State :=
  if !kindOn 0 t then s.tokFault c none (0x60 + q) t
  else s.modCell c fun x =>
    let k := SMap.get {} x.m.queues q
    { x with m := { x.m with queues := SMap.set x.m.queues q { k with toks := k.toks ++ [t] } } }

/-- A token put into an input endpoint that has room. -/
def State.putIn (s : State) (c : Nat) (ep : Endpoint) (t : Token) : State :=
  match ep with
  | .elem e j => s.putElem c e j t
  | .actor n p =>
    if !kindOn 0 t then s.tokFault c none (0x30 + 4 * n) t
    else s.modCell c fun x =>
      let sl := x.slot n
      x.setSlot n { sl with inq := SMap.set sl.inq p (SMap.get [] sl.inq p ++ [t]) }
  | .block u p => s.putBlock c u p t
  | .accept =>
    if t.kind.toNat ≥ 8 || t.kind == 7 || t.kind == 6 then s.tokFault c (s.cell c).m.ms.span 0x54 t
    else s.modCell c fun x => { x with m := { x.m with ms := { x.m.ms with inq := x.m.ms.inq ++ [t] } } }
  | .seek u =>
    if !kindOn 2 t then s.tokFault c none (blockPort u) t
    else s.modCell c fun x =>
      let b := x.block u
      x.setBlock u { b with back := SMap.set b.back 0 (SMap.get [] b.back 0 ++ [t]) }
  | .queue q => s.queueIn c q t

/-- Where an output endpoint sends: a router buffer or an input endpoint (R214). -/
inductive OutDest where
  | port (n vc : Nat)
  | ep (e : Endpoint)
  deriving DecidableEq, Repr

/-- The binding of an output endpoint; none when it is unbound. -/
def State.outDest (s : State) (c n : Nat) : Option OutDest :=
  let e := SMap.get 0 (s.cell c).router.epOut n
  if e.extractLsb' 8 2 == 1 then
    some (.port (4 + (e.extractLsb' 0 2).toNat) (if n == 0x30 || n == 0x31 then 2 else (e.extractLsb' 2 1).toNat))
  else if e.extractLsb' 8 2 == 2 then (inEndpoint c (e.extractLsb' 0 7).toNat).map .ep
  else none

def State.destRoom (s : State) (c : Nat) : OutDest → Bool
  | .port n vc => s.localRoom c n vc
  | .ep e => s.inRoom c e
def State.putDest (s : State) (c : Nat) (d : OutDest) (t : Token) : State :=
  match d with
  | .port n vc => s.enterRouter c n vc t
  | .ep e => s.putIn c e t

/-- Where a destination code sends (R68): an element slot, or a local port on VC 0 (R214). -/
def codeDest (c : Nat) (d : BitVec 6) : Option OutDest :=
  if d.extractLsb' 4 2 == 3 then
    (if (d.extractLsb' 0 4).toNat < 4 then some (.port (4 + (d.extractLsb' 0 4).toNat) 0) else none)
  else if (d.extractLsb' 0 4).toNat < elemCount c then
    some (.ep (.elem (d.extractLsb' 0 4).toNat (d.extractLsb' 4 2).toNat))
  else none

/-- Whether a queue endpoint is the destination: it is entered by CHANNEL_QUEUE_ARRIVAL. -/
def OutDest.isQueue : OutDest → Bool
  | .ep (.queue _) => true
  | _ => false

/-! ### Units -/

/-- Whether a block's output holds no token that waits (log 11). -/
def Block.outFree (b : Block) : Bool := b.out.isEmpty
def State.modBlock (s : State) (c u : Nat) (f : Block → Block) : State := s.modCell c fun x => x.setBlock u (f (x.block u))
/-- The head of a block's input. -/
def Block.head (b : Block) (p : Nat) : Option Token := (SMap.get [] b.inq p).head?
/-- A block whose input's head is taken. -/
def Block.pop (b : Block) (p : Nat) : Block := { b with inq := SMap.set b.inq p ((SMap.get [] b.inq p).drop 1) }
/-- The span a unit is in after it takes a token (R304): EOT and DONE end it (R29). -/
def spanAfter (sp : Option Word) (t : Token) : Option Word :=
  if t.kind == 3 then some t.ref else if t.kind == 4 || t.kind == 2 then none else sp
/-- A block takes the head of an input, its span following the token. -/
def Block.take (b : Block) (p : Nat) (t : Token) : Block := { b.pop p with span := spanAfter b.span t }
/-- A block emits a token. -/
def Block.emit (b : Block) (t : Token) : Block := { b with out := b.out ++ [t] }

/-- A CFG token's fields (R40). -/
def cfgItem (t : Token) : Nat := (t.coord.extractLsb' 0 4).toNat
def cfgPass (t : Token) : Nat := (t.coord.extractLsb' 16 8).toNat
/-- A CFG token with its PASS count lowered. -/
def cfgDown (t : Token) (n : Nat) : Token :=
  { t with coord := BitVec.ofNat 32 (cfgItem t + (cfgPass t - n) * 65536) }
/-- The head of a CFG token made of item, pass and value. -/
def tkCfg (item pass : Nat) (v : BitVec 32) : Token :=
  { kind := 6, coord := BitVec.ofNat 32 (item % 16 + pass % 256 * 65536), ref := v.zeroExtend 64 }

end Sys2Proof.Machine
end

