-- ==== Sys2Proof/Machine/Elem.lean ====
section
/-! DEFINITION. The operation words of elements that compute on lanes (R38, R115-R128, R137), control firings (R39) and
the output stage (R118). A firing acts on the element and cell of the step's focus. -/

namespace Sys2Proof.Machine

/-! ### Lanes (R115) -/

/-- The width in bytes of a TY's lanes: 0 I32, 1 F32, 2 BF16, 3 F16, 4 E4M3, 5 E5M2, 6 BYTE, 7 I16. -/
def tyBytes (ty : BitVec 3) : Nat :=
  if ty == 0 || ty == 1 then 4 else if ty == 2 || ty == 3 || ty == 7 then 2 else 1
/-- The floating format of a TY. -/
def tyFmt (ty : BitVec 3) : Option FFmt :=
  if ty == 1 then some fF32 else if ty == 2 then some fBF16 else if ty == 3 then some fF16
  else if ty == 4 then some fE4M3 else if ty == 5 then some fE5M2 else none
/-- The bytes that a vector shape covers; a scalar covers one lane. -/
def shapeBytes (sh : BitVec 2) : Nat := if sh == 1 then 32 else 64
/-- The count of lanes. -/
def laneCount (ty : BitVec 3) (sh : BitVec 2) : Nat := if sh == 0 then 1 else shapeBytes sh / tyBytes ty

/-- Lane i of an operand, as an unsigned number (R38, R115). -/
def laneOf (ty : BitVec 3) (sh : BitVec 2) (t : Token) (i : Nat) : Nat :=
  let b := 8 * tyBytes ty
  if sh == 0 then t.ref.toNat % 2 ^ b else t.payload.toNat / 2 ^ (b * i) % 2 ^ b

/-- The lane mask of an operand: a payload that is not there has every lane masked (R27). -/
def maskOf (sh : BitVec 2) (t : Token) : BitVec 16 :=
  if !t.pl then 0 else if sh == 1 then t.lmask &&& 0xFF else t.lmask

/-- Whether the group that holds a byte is enabled; a scalar has no groups. -/
def groupOn (sh : BitVec 2) (m : BitVec 16) (byte : Nat) : Bool := sh == 0 || m.getLsbD (byte / 4)

/-- Lanes of a width joined, lane 0 lowest. -/
def joinLanes (b : Nat) (ls : List Nat) : Nat := ls.foldr (fun x acc => acc * 2 ^ b + x % 2 ^ b) 0

/-- The signed value of a lane (R115). -/
def laneInt (b x : Nat) : Int := if 2 ^ (b - 1) ≤ x then (x : Int) - 2 ^ b else x
/-- An integer result that wraps or saturates (R48). -/
def fitInt (b : Nat) (sat : Bool) (x : Int) : Nat :=
  let lo : Int := -(2 ^ (b - 1))
  let hi : Int := 2 ^ (b - 1) - 1
  let x := if sat then (if x < lo then lo else if x > hi then hi else x) else x
  (x % 2 ^ b).toNat

/-- The head of a DATA result (R38, R117). A vector result too copies COORD from in0 and has REF 0 (log 78). -/
def dataHead (toks : List Token) : Token :=
  { kind := 0, coord := (toks.head?.map (·.coord)).getD 0, masked := toks.any (·.masked) }

/-- A result whose lane i is computed from lane i of each operand, where every operand's group is enabled (R38). -/
def laneResult (ty : BitVec 3) (sh : BitVec 2) (f : List Nat → Nat) (toks : List Token) : Token :=
  let m := toks.foldl (fun m t => m &&& maskOf sh t) (if sh == 1 then 0xFF#16 else 0xFFFF#16)
  let b := 8 * tyBytes ty
  if sh == 0 then { dataHead toks with ref := BitVec.ofNat 64 (f (toks.map fun t => laneOf ty sh t 0) % 2 ^ b) }
  else
    let ls := (List.range (laneCount ty sh)).map fun i =>
      if m.getLsbD (i * tyBytes ty / 4) then f (toks.map fun t => laneOf ty sh t i) else 0
    { dataHead toks with pl := true, lmask := m, payload := BitVec.ofNat 512 (joinLanes b ls) }

/-- The operands of a list, missing ones read as 0. -/
def op0 (l : List Nat) : Nat := l.getD 0 0
def op1 (l : List Nat) : Nat := l.getD 1 0
def op2 (l : List Nat) : Nat := l.getD 2 0

/-! ### Lane operations -/

/-- A two-operand arithmetic lane: exact floating operation, or exact integer operation (R119). -/
def arith2 (ty : BitVec 3) (rm : BitVec 2) (sat : Bool) (ff : FVal → FVal → FVal) (fi : Int → Int → Int) (l : List Nat) : Nat :=
  match tyFmt ty with
  | some F => F.round (ff (F.dec (op0 l)) (F.dec (op1 l))) rm sat
  | none => let b := 8 * tyBytes ty; fitInt b sat (fi (laneInt b (op0 l)) (laneInt b (op1 l)))
/-- A one-operand arithmetic lane. -/
def arith1 (ty : BitVec 3) (rm : BitVec 2) (sat : Bool) (ff : FVal → FVal) (fi : Int → Int) (l : List Nat) : Nat :=
  match tyFmt ty with
  | some F => F.round (ff (F.dec (op0 l))) rm sat
  | none => let b := 8 * tyBytes ty; fitInt b sat (fi (laneInt b (op0 l)))
/-- The fused lane: one rounding (R119). -/
def fmaLane (ty : BitVec 3) (rm : BitVec 2) (sat : Bool) (l : List Nat) : Nat :=
  match tyFmt ty with
  | some F => F.round (((F.dec (op0 l)).mul (F.dec (op1 l))).add (F.dec (op2 l)) rm) rm sat
  | none => 0
/-- A shift of a lane by a count modulo its width (R120). -/
def shlLane (b : Nat) (l : List Nat) : Nat := op0 l * 2 ^ (op1 l % b)
def shrLane (b : Nat) (l : List Nat) : Nat := op0 l / 2 ^ (op1 l % b)
def sarLane (b : Nat) (l : List Nat) : Nat := fitInt b false (laneInt b (op0 l) / 2 ^ (op1 l % b))
/-- A comparison lane: all ones or all zeros (R121). -/
def cmpLane (ty : BitVec 3) (ff : FVal → FVal → Bool) (fi : Int → Int → Bool) (l : List Nat) : Nat :=
  let b := 8 * tyBytes ty
  let r := match tyFmt ty with
    | some F => ff (F.dec (op0 l)) (F.dec (op1 l))
    | none => fi (laneInt b (op0 l)) (laneInt b (op1 l))
  if r then 2 ^ b - 1 else 0
/-- A select lane (R121). -/
def selLane (l : List Nat) : Nat := if op0 l != 0 then op1 l else op2 l

/-- Conversion of one lane (R122, R59): source and target type. -/
def cvtLane (src ty : BitVec 3) (rm : BitVec 2) (sat : Bool) (x : Nat) : Nat :=
  if src == ty then x
  else match tyFmt src, tyFmt ty with
    | some F, some G => G.round (F.dec x) rm sat
    | none, some G => G.round (FVal.ofInt (laneInt (8 * tyBytes src) x) 0 false) rm sat
    | some F, none => match (F.dec x).toInt rm with
      | none => 0
      | some v => fitInt (8 * tyBytes ty) true v
    | none, none => fitInt (8 * tyBytes ty) sat (laneInt (8 * tyBytes src) x)

/-- VCVT (R122): k0[2:0] names the source type, k0[3] DSTHI, k0[4] SRCHI. -/
def cvtResult (ty : BitVec 3) (rm : BitVec 2) (sat : Bool) (sh : BitVec 2) (k0 : BitVec 32) (t : Token) : Token :=
  let src := k0.extractLsb' 0 3
  let sw := tyBytes src
  let tw := tyBytes ty
  if sh == 0 then
    { dataHead [t] with ref := BitVec.ofNat 64 (cvtLane src ty rm sat (t.ref.toNat % 2 ^ (8 * sw)) % 2 ^ (8 * tw)) }
  else
    let n := shapeBytes sh / max sw tw
    let so := if sw < tw && k0.getLsbD 4 then shapeBytes sh / 2 else 0
    let dO := if tw < sw && k0.getLsbD 3 then shapeBytes sh / 2 else 0
    let m := maskOf sh t
    let on := fun i => m.getLsbD ((so + i * sw) / 4)
    let pay := (List.range n).foldl (fun acc i =>
      if on i then
        acc + cvtLane src ty rm sat (t.payload.toNat / 2 ^ (8 * (so + i * sw)) % 2 ^ (8 * sw)) % 2 ^ (8 * tw) * 2 ^ (8 * (dO + i * tw))
      else acc) 0
    let written := fun byte => dO ≤ byte && byte < dO + n * tw && on ((byte - dO) / tw)
    let lm := (List.range (shapeBytes sh / 4)).foldl (fun acc g =>
      if (List.range 4).all fun j => written (4 * g + j) then acc + 2 ^ g else acc) 0
    { dataHead [t] with pl := true, lmask := BitVec.ofNat 16 lm, payload := BitVec.ofNat 512 pay }

/-- The enabled lanes of a vector, in ascending order (R124). -/
def enabledLanes (ty : BitVec 3) (sh : BitVec 2) (t : Token) : List Nat :=
  ((List.range (laneCount ty sh)).filter fun i => (maskOf sh t).getLsbD (i * tyBytes ty / 4)).map fun i => laneOf ty sh t i
/-- A reduction result: a scalar in REF with PL 0 (R124). -/
def sumResult (ty : BitVec 3) (sh : BitVec 2) (start : Nat) (f : List Nat → Nat) (t : Token) : Token :=
  { dataHead [t] with
    ref := BitVec.ofNat 64 ((enabledLanes ty sh t).foldl (fun acc x => f [acc, x]) start % 2 ^ (8 * tyBytes ty)) }
/-- The identities of VSUM.MIN and VSUM.MAX: an infinity, or the end of the range (R124). -/
def minStart (ty : BitVec 3) : Nat :=
  match tyFmt ty with
  | some F => F.round (.inf false) 0 false
  | none => 2 ^ (8 * tyBytes ty - 1) - 1
def maxStart (ty : BitVec 3) : Nat :=
  match tyFmt ty with
  | some F => F.round (.inf true) 0 false
  | none => 2 ^ (8 * tyBytes ty - 1)

/-- VSHUF (R125). -/
def shufResult (ty : BitVec 3) (sh : BitVec 2) (a b : Token) : Token :=
  let n := laneCount ty sh
  let w := tyBytes ty
  let src := fun i => b.payload.toNat / 2 ^ (8 * i) % 256 % n
  let on := fun i => (maskOf sh b).getLsbD (i / 4) && (maskOf sh a).getLsbD (src i * w / 4)
  let ls := (List.range n).map fun i => if on i then laneOf ty sh a (src i) else 0
  let lm := (List.range (shapeBytes sh / 4)).foldl (fun acc g =>
    if (List.range n).all fun i => i * w / 4 != g || on i then acc + 2 ^ g else acc) 0
  { dataHead [a, b] with pl := true, lmask := BitVec.ofNat 16 lm, payload := BitVec.ofNat 512 (joinLanes (8 * w) ls) }

/-- VCONST (R126). -/
def constResult (ty : BitVec 3) (sh : BitVec 2) (k : BitVec 32) (t : Token) : Token :=
  let b := 8 * tyBytes ty
  if sh == 0 then { dataHead [t] with ref := BitVec.ofNat 64 (k.toNat % 2 ^ b) }
  else { dataHead [t] with
    pl := true, lmask := if sh == 1 then 0xFF else 0xFFFF,
    payload := BitVec.ofNat 512 (joinLanes b ((List.range (laneCount ty sh)).map fun _ => k.toNat)) }

/-- The bytes that VBCMP and VBEQM compare: both bytes, and whether their group is enabled (R127). -/
def bytePairs (sh : BitVec 2) (a b : Token) : List (Nat × Nat × Bool) :=
  let n := if sh == 0 then 4 else shapeBytes sh
  let m := maskOf sh a &&& maskOf sh b
  (List.range n).map fun i => (laneOf 6 (if sh == 0 then 2 else sh) (if sh == 0 then { a with payload := a.ref.zeroExtend 512 } else a) i,
    laneOf 6 (if sh == 0 then 2 else sh) (if sh == 0 then { b with payload := b.ref.zeroExtend 512 } else b) i, groupOn sh m i)
def bcmpResult (sh : BitVec 2) (a b : Token) : Token :=
  let ps := bytePairs sh a b
  { dataHead [a, b] with ref := BitVec.ofNat 64 ((ps.findIdx? fun p => p.2.2 && p.1 != p.2.1).getD ps.length) }
def beqmResult (sh : BitVec 2) (a b : Token) : Token :=
  { dataHead [a, b] with ref := BitVec.ofNat 64 (joinLanes 1 ((bytePairs sh a b).map fun p => if p.2.2 && p.1 == p.2.1 then 1 else 0)) }

/-- ECFG (R137). -/
def ecfgResult (k0 : BitVec 32) (t : Token) : Token :=
  tkCfg (k0.extractLsb' 0 4).toNat (k0.extractLsb' 16 8).toNat (t.ref.setWidth 32)

/-! ### Firings -/

/-- A slot of an element. -/
def Elem.slot (x : Elem) (j : Nat) : Option Token := if j == 0 then x.in0 else if j == 1 then x.in1 else x.in2
/-- An element with slots emptied. -/
def Elem.clear (x : Elem) (js : List Nat) : Elem :=
  { x with
    in0 := if js.contains 0 then none else x.in0
    in1 := if js.contains 1 then none else x.in1
    in2 := if js.contains 2 then none else x.in2 }
/-- The focused element. -/
def State.el (s : State) : Elem := (s.cell s.focus.cell).elem s.focus.unit
def State.setEl (s : State) (x : Elem) : State := s.modCell s.focus.cell fun y => y.setElem s.focus.unit x
/-- A result joins the output stage, unless the word names no destination. -/
def Elem.push (x : Elem) (t : Token) (ds : List (BitVec 6)) : Elem :=
  if ds.isEmpty then x else { x with out := x.out ++ [(t, ds)] }
/-- A constant of an element. -/
def Elem.const (x : Elem) (n : Nat) : BitVec 32 := SMap.get 0 x.k n

/-- The tokens of the used slots when the word may fire on data (R37, R39): the tokens, or a token that does not pair, or
nothing while a slot is empty, the output stage of `room` places is full, or port 0 holds a control or CFG token. -/
def dataTokens (i : Instr) (x : Elem) (room : Nat := instrStage i) : Except (Option Token) (List Token) :=
  match (instrSlots i).mapM x.slot with
  | none => .error none
  | some ts =>
    if (ts.head?.map fun t => t.kind != 0).getD true then .error none
    else if room ≤ x.out.length then .error none
    else match ts.find? fun t => tkIsCtl t with
      | some t => .error (some t)
      | none => .ok ts

/-- A data firing of a word whose result is a function of the element and its tokens (R37). -/
def State.fireLane (s : State) (i : Instr) (f : Elem → List Token → Token) : Out :=
  let x := s.el
  match dataTokens i x with
  | .error none => .next s
  | .error (some t) => .next (s.tokFault s.focus.cell x.span (3 * s.focus.unit) t)
  | .ok ts => .next ((s.setEl ((x.clear (instrSlots i)).push (f x ts) (destList i))).bump s.focus.cell 0x043 1)

/-- The first and second token of a firing. -/
def tok0 (ts : List Token) : Token := ts.getD 0 {}
def tok1 (ts : List Token) : Token := ts.getD 1 {}
def tok2 (ts : List Token) : Token := ts.getD 2 {}

/-- VADD (R119). -/
def execVadd (ty : BitVec 3) (rm : BitVec 2) (sat : BitVec 1) (sh : BitVec 2) (da db : BitVec 6) (s : State) : Out :=
  s.fireLane (.vadd ty rm sat sh da db) fun _ ts => laneResult ty sh (arith2 ty rm (sat == 1) (fun a b => a.add b rm) (fun a b => a + b)) ts

/-- VSUB (R119). -/
def execVsub (ty : BitVec 3) (rm : BitVec 2) (sat : BitVec 1) (sh : BitVec 2) (da db : BitVec 6) (s : State) : Out :=
  s.fireLane (.vsub ty rm sat sh da db) fun _ ts => laneResult ty sh (arith2 ty rm (sat == 1) (fun a b => a.add b.neg rm) (fun a b => a - b)) ts

/-- VMUL (R119). -/
def execVmul (ty : BitVec 3) (rm : BitVec 2) (sat : BitVec 1) (sh : BitVec 2) (da db : BitVec 6) (s : State) : Out :=
  s.fireLane (.vmul ty rm sat sh da db) fun _ ts => laneResult ty sh (arith2 ty rm (sat == 1) FVal.mul (fun a b => a * b)) ts

/-- VFMA (R119). -/
def execVfma (ty : BitVec 3) (rm : BitVec 2) (sat : BitVec 1) (sh : BitVec 2) (da db : BitVec 6) (s : State) : Out :=
  s.fireLane (.vfma ty rm sat sh da db) fun _ ts => laneResult ty sh (fmaLane ty rm (sat == 1)) ts

/-- VMIN (R51, R119). -/
def execVmin (ty : BitVec 3) (rm : BitVec 2) (sh : BitVec 2) (da db : BitVec 6) (s : State) : Out :=
  s.fireLane (.vmin ty rm sh da db) fun _ ts => laneResult ty sh (arith2 ty rm false FVal.min (fun a b => if a ≤ b then a else b)) ts

/-- VMAX (R51, R119). -/
def execVmax (ty : BitVec 3) (rm : BitVec 2) (sh : BitVec 2) (da db : BitVec 6) (s : State) : Out :=
  s.fireLane (.vmax ty rm sh da db) fun _ ts => laneResult ty sh (arith2 ty rm false FVal.max (fun a b => if a ≤ b then b else a)) ts

/-- VNEG.NEG (R119). -/
def execVnegNeg (ty : BitVec 3) (rm : BitVec 2) (sat : BitVec 1) (sh : BitVec 2) (da db : BitVec 6) (s : State) : Out :=
  s.fireLane (.vnegNeg ty rm sat sh da db) fun _ ts => laneResult ty sh (arith1 ty rm (sat == 1) FVal.neg (fun a => -a)) ts

/-- VNEG.ABS (R119). -/
def execVnegAbs (ty : BitVec 3) (rm : BitVec 2) (sat : BitVec 1) (sh : BitVec 2) (da db : BitVec 6) (s : State) : Out :=
  s.fireLane (.vnegAbs ty rm sat sh da db) fun _ ts => laneResult ty sh (arith1 ty rm (sat == 1) FVal.abs (fun a => if a < 0 then -a else a)) ts

/-- VAND (R120). -/
def execVand (ty : BitVec 3) (sh : BitVec 2) (da db : BitVec 6) (s : State) : Out :=
  s.fireLane (.vand ty sh da db) fun _ ts => laneResult ty sh (fun l => op0 l &&& op1 l) ts

/-- VOR (R120). -/
def execVor (ty : BitVec 3) (sh : BitVec 2) (da db : BitVec 6) (s : State) : Out :=
  s.fireLane (.vor ty sh da db) fun _ ts => laneResult ty sh (fun l => op0 l ||| op1 l) ts

/-- VXOR (R120). -/
def execVxor (ty : BitVec 3) (sh : BitVec 2) (da db : BitVec 6) (s : State) : Out :=
  s.fireLane (.vxor ty sh da db) fun _ ts => laneResult ty sh (fun l => op0 l ^^^ op1 l) ts

/-- VSHL (R120). -/
def execVshl (ty : BitVec 3) (sh : BitVec 2) (da db : BitVec 6) (s : State) : Out :=
  s.fireLane (.vshl ty sh da db) fun _ ts => laneResult ty sh (shlLane (8 * tyBytes ty)) ts

/-- VSHR.L (R120). -/
def execVshrL (ty : BitVec 3) (sh : BitVec 2) (da db : BitVec 6) (s : State) : Out :=
  s.fireLane (.vshrL ty sh da db) fun _ ts => laneResult ty sh (shrLane (8 * tyBytes ty)) ts

/-- VSHR.A (R120). -/
def execVshrA (ty : BitVec 3) (sh : BitVec 2) (da db : BitVec 6) (s : State) : Out :=
  s.fireLane (.vshrA ty sh da db) fun _ ts => laneResult ty sh (sarLane (8 * tyBytes ty)) ts

/-- VCMP.EQ (R51, R121). -/
def execVcmpEq (ty : BitVec 3) (sh : BitVec 2) (da db : BitVec 6) (s : State) : Out :=
  s.fireLane (.vcmpEq ty sh da db) fun _ ts => laneResult ty sh (cmpLane ty FVal.eq (fun a b => a == b)) ts

/-- VCMP.NE: true with a NaN (R51, R121). -/
def execVcmpNe (ty : BitVec 3) (sh : BitVec 2) (da db : BitVec 6) (s : State) : Out :=
  s.fireLane (.vcmpNe ty sh da db) fun _ ts => laneResult ty sh (cmpLane ty (fun a b => !FVal.eq a b) (fun a b => a != b)) ts

/-- VCMP.LT (R51, R121). -/
def execVcmpLt (ty : BitVec 3) (sh : BitVec 2) (da db : BitVec 6) (s : State) : Out :=
  s.fireLane (.vcmpLt ty sh da db) fun _ ts => laneResult ty sh (cmpLane ty FVal.lt (fun a b => decide (a < b))) ts

/-- VCMP.LE (R51, R121). -/
def execVcmpLe (ty : BitVec 3) (sh : BitVec 2) (da db : BitVec 6) (s : State) : Out :=
  s.fireLane (.vcmpLe ty sh da db) fun _ ts => laneResult ty sh (cmpLane ty FVal.le (fun a b => decide (a ≤ b))) ts

/-- VSEL (R121). -/
def execVsel (ty : BitVec 3) (sh : BitVec 2) (da db : BitVec 6) (s : State) : Out :=
  s.fireLane (.vsel ty sh da db) fun _ ts => laneResult ty sh (selLane) ts

/-- VCVT (R122). -/
def execVcvt (ty : BitVec 3) (rm : BitVec 2) (sat : BitVec 1) (sh : BitVec 2) (da db : BitVec 6) (s : State) : Out :=
  s.fireLane (.vcvt ty rm sat sh da db) fun x ts => cvtResult ty rm (sat == 1) sh (x.const 0) (tok0 ts)

/-- VRCP (R123). -/
def execVrcp (ty : BitVec 3) (rm : BitVec 2) (sat : BitVec 1) (sh : BitVec 2) (da db : BitVec 6) (s : State) : Out :=
  s.fireLane (.vrcp ty rm sat sh da db) fun _ ts => laneResult ty sh (arith1 ty rm (sat == 1) FVal.rcp (fun a => a)) ts

/-- VRSQ (R123). -/
def execVrsq (ty : BitVec 3) (rm : BitVec 2) (sat : BitVec 1) (sh : BitVec 2) (da db : BitVec 6) (s : State) : Out :=
  s.fireLane (.vrsq ty rm sat sh da db) fun _ ts => laneResult ty sh (arith1 ty rm (sat == 1) FVal.rsq (fun a => a)) ts

/-- VEXP2 (R123). -/
def execVexp2 (ty : BitVec 3) (rm : BitVec 2) (sat : BitVec 1) (sh : BitVec 2) (da db : BitVec 6) (s : State) : Out :=
  s.fireLane (.vexp2 ty rm sat sh da db) fun _ ts => laneResult ty sh (arith1 ty rm (sat == 1) FVal.exp2 (fun a => a)) ts

/-- VLOG2 (R123). -/
def execVlog2 (ty : BitVec 3) (rm : BitVec 2) (sat : BitVec 1) (sh : BitVec 2) (da db : BitVec 6) (s : State) : Out :=
  s.fireLane (.vlog2 ty rm sat sh da db) fun _ ts => laneResult ty sh (arith1 ty rm (sat == 1) FVal.log2 (fun a => a)) ts

/-- VSUM.ADD (R124). -/
def execVsumAdd (ty : BitVec 3) (rm : BitVec 2) (sat : BitVec 1) (sh : BitVec 2) (da db : BitVec 6) (s : State) : Out :=
  s.fireLane (.vsumAdd ty rm sat sh da db) fun _ ts =>
    sumResult ty sh 0 (arith2 ty rm (sat == 1) (fun a b => a.add b rm) (fun a b => a + b)) (tok0 ts)

/-- VSUM.MIN (R51, R124). -/
def execVsumMin (ty : BitVec 3) (rm : BitVec 2) (sh : BitVec 2) (da db : BitVec 6) (s : State) : Out :=
  s.fireLane (.vsumMin ty rm sh da db) fun _ ts =>
    sumResult ty sh (minStart ty) (arith2 ty rm false FVal.min (fun a b => if a ≤ b then a else b)) (tok0 ts)

/-- VSUM.MAX (R51, R124). -/
def execVsumMax (ty : BitVec 3) (rm : BitVec 2) (sh : BitVec 2) (da db : BitVec 6) (s : State) : Out :=
  s.fireLane (.vsumMax ty rm sh da db) fun _ ts =>
    sumResult ty sh (maxStart ty) (arith2 ty rm false FVal.max (fun a b => if a ≤ b then b else a)) (tok0 ts)

/-- VSHUF (R125). -/
def execVshuf (ty : BitVec 3) (sh : BitVec 2) (da db : BitVec 6) (s : State) : Out :=
  s.fireLane (.vshuf ty sh da db) fun _ ts => shufResult ty sh (tok0 ts) (tok1 ts)

/-- VCONST (R126). -/
def execVconst (ty : BitVec 3) (sh : BitVec 2) (ki : BitVec 3) (da db : BitVec 6) (s : State) : Out :=
  s.fireLane (.vconst ty sh ki da db) fun x ts => constResult ty sh (x.const ki.toNat) (tok0 ts)

/-- VMOV copies the token whole (R117, R126). -/
def execVmov (ty : BitVec 3) (sh : BitVec 2) (da db : BitVec 6) (s : State) : Out :=
  s.fireLane (.vmov ty sh da db) fun _ ts => tok0 ts

/-- VBCMP (R127). -/
def execVbcmp (sh : BitVec 2) (da db : BitVec 6) (s : State) : Out :=
  s.fireLane (.vbcmp sh da db) fun _ ts => bcmpResult sh (tok0 ts) (tok1 ts)

/-- VBEQM (R127). -/
def execVbeqm (sh : BitVec 2) (da db : BitVec 6) (s : State) : Out :=
  s.fireLane (.vbeqm sh da db) fun _ ts => beqmResult sh (tok0 ts) (tok1 ts)

/-- VHASH.LANE (R61, R128). -/
def execVhashLane (sh : BitVec 2) (da db : BitVec 6) (s : State) : Out :=
  s.fireLane (.vhashLane sh da db) fun _ ts =>
    laneResult 0 sh (fun l => (hashLane (BitVec.ofNat 32 (op0 l))).toNat) ts

/-- VHASH.CRC: the running value is in in1 (R61, R128). -/
def execVhashCrc (sh : BitVec 2) (da db : BitVec 6) (s : State) : Out :=
  s.fireLane (.vhashCrc sh da db) fun _ ts =>
    laneResult 0 sh (fun l => (hashCrc (BitVec.ofNat 32 (op1 l)) (BitVec.ofNat 32 (op0 l))).toNat) ts

/-- VHASH.FOLD (R61, R128). -/
def execVhashFold (sh : BitVec 2) (da db : BitVec 6) (s : State) : Out :=
  s.fireLane (.vhashFold sh da db) fun _ ts =>
    laneResult 0 sh (fun l => (hashFold (BitVec.ofNat 32 (op0 l))).toNat) ts

/-- ECFG (R137). -/
def execEcfg (da : BitVec 6) (s : State) : Out :=
  s.fireLane (.ecfg da) fun x ts => ecfgResult (x.const 0) (tok0 ts)

/-- Whether two control tokens pair (R39): same KIND, LEVEL for STOP, SPANID for SOT and EOT. -/
def ctlPair (a b : Token) : Bool :=
  a.kind == b.kind && (a.kind != 1 || a.level == b.level) && (!(a.kind == 3 || a.kind == 4) || a.ref == b.ref)

/-- ELEMENT_CONTROL_FIRING (R39): a control token at in0 and its like in every other used slot leave as one. -/
def execElementControlFiring (cell e : Nat) (s : State) : Out :=
  let x := (s.cell cell).elem e
  match elemInstr x.word, x.in0 with
  | some i, some t =>
    if !tkIsCtl t || !s.cellLive cell then .next s
    else match (instrSlots i).mapM x.slot with
      | none => .next s
      | some ts =>
        match ts.find? fun u => !ctlPair t u with
        | some u => .next (s.tokFault cell x.span (3 * e) u)
        | none =>
          if instrStage i ≤ x.out.length then .next s
          else
            let x := { (x.clear (instrSlots i)).push t (destList i) with span := spanAfter x.span t }
            .next (((s.modCell cell fun y => y.setElem e x).bump cell 0x043 1).sinkToken cell e t)
  | _, _ => .next s

/-- Whether an element below e offers its oldest result to the same element slot: it delivers first (R216). -/
def Cell.lowerOffers (x : Cell) (e : Nat) (d : BitVec 6) : Bool :=
  d.extractLsb' 4 2 != 3 && (List.range e).any fun i =>
    match (x.elem i).out with
    | (_, ds) :: _ => ds.contains d
    | [] => false

/-- A result goes to the destinations that accept it, in order, each as the ones before have left it; those that do not accept it
keep it owed. -/
def State.stageOut (s : State) (cell e : Nat) (t : Token) : List (BitVec 6) → State × List (BitVec 6)
  | [] => (s, [])
  | d :: ds =>
    match codeDest cell d with
    | none => (s.opFault cell ((s.cell cell).elem e).span (3 * e) ((s.cell cell).elem e).word 0).stageOut cell e t ds
    | some o =>
      if s.destRoom cell o && !(s.cell cell).lowerOffers e d then (s.putDest cell o t).stageOut cell e t ds
      else let r := s.stageOut cell e t ds; (r.1, d :: r.2)

/-- OUTPUT_STAGE_DELIVERY (R118): the oldest result goes to each destination that accepts it. -/
def execOutputStageDelivery (cell e : Nat) (s : State) : Out :=
  match ((s.cell cell).elem e).out with
  | [] => .next s
  | (t, ds) :: rest =>
    if !s.cellLive cell then .next s
    else
      let r := s.stageOut cell e t ds
      .next (r.1.modCell cell fun y => y.setElem e { y.elem e with out := if r.2.isEmpty then rest else (t, r.2) :: rest })

end Sys2Proof.Machine
end

