-- ==== Sys2Proof/Machine/StreamIO.lean ====
section
/-! DEFINITION. Accesses of engines other than the sequencer: what a failed access does (R136, R271, R304), reads and
writes of virtual memory, and reads and writes of tiles (R133, R237, R306). -/

namespace Sys2Proof.Machine

/-- What an engine's access that is not performed leaves behind (R271): a stopped port with its record, without an affine pattern
(log 112), or a walk. A format that the path does not decode is a FORMAT record (R57, R262). -/
def State.portStop (s : State) (w : Who) (kind : AccKind) : AccFail → State
  | .bad cause va =>
    match s.graphAt w.cell with
    | none => s
    | some (p, _) => s.reportXl p w.cell w.port (if cause == 0x06 then 6 else 3) (kindCode kind) va w.span none
  | .fmt va _ =>
    match s.graphAt w.cell with
    | none => s
    | some (p, _) => s.reportXl p w.cell w.port 5 (kindCode kind) va w.span none
  | .wait => s
  | .walk va => s.addWalk w va kind
  | .supp => s

/-- An undeclared access of a memory element aborts its task (R304) and stops the element's port (R136), which goes on, its
accesses suppressed, once it is resumed (R295, log 80). -/
def State.undeclStop (s : State) (w : Who) (va : Word) : State :=
  (s.abortFor w va).modCell w.cell fun x =>
    { x with stopped := if x.stopped.contains w.port then x.stopped else x.stopped ++ [w.port] }

/-- A read by a memory element: the bytes and the state after, or the state with the port waiting or stopped. What a suppressed
read delivers is free (log 23). -/
def State.readStrm (s : State) (w : Who) (va : Word) (n : Nat) : Except State (List Byte × State) :=
  match s.readVa w va n with
  | .ok r => .ok r
  | .error (.bad 0x04 v) => .error (s.undeclStop w v)
  | .error f => .error (s.portStop w (Need.rd.kind w.cls) f)

/-- The first undeclared or suppressed part of the pieces of a write (R304). -/
def State.piecesUndecl (s : State) (w : Who) (ps : List (Word × List Byte)) : Option AccFail :=
  (ps.flatMap fun p => partsOf p.1 p.2.length).findSome? (s.undeclared w .wr)
/-- The first of the pieces of a write that is not performed. -/
def State.piecesPlace (s : State) (w : Who) : List (Word × List Byte) → Option AccFail
  | [] => none
  | (va, bs) :: ps =>
    match s.locateAll w .wr (partsOf va bs.length) with
    | .error f => some f
    | .ok _ => s.piecesPlace w ps
/-- Why the pieces of a write are not performed: all are checked against the task's regions before any is translated (R304),
and all are located before any is performed (R170). -/
def State.piecesFail (s : State) (w : Who) (ps : List (Word × List Byte)) : Option AccFail :=
  match s.piecesUndecl w ps with
  | some .supp => none
  | some f => some f
  | none => s.piecesPlace w ps
/-- Writes pieces in order; a suppressed piece writes nothing (R295). -/
def State.writePieces (s : State) (w : Who) : List (Word × List Byte) → State
  | [] => s
  | (va, bs) :: ps =>
    match s.writeVa w va bs with
    | .ok s' => s'.writePieces w ps
    | .error _ => s.writePieces w ps

/-- A write by an engine: the state after, or the state with the port waiting or stopped. An undeclared write of an engine
that is no memory element aborts the task and performs nothing (R304). -/
def State.writeStrm (s : State) (w : Who) (ps : List (Word × List Byte)) : Except State State :=
  match s.piecesFail w ps with
  | none => .ok (s.writePieces w ps)
  | some (.bad 0x04 v) => if w.port < 0x80 then .error (s.undeclStop w v) else .ok (s.abortFor w v)
  | some f => .error (s.portStop w .write f)

/-- The chunk entries under which an access lies; the entry alone whose format the path does not decode. -/
def State.entriesOf (s : State) (w : Who) (need : Need) (va : Word) (n : Nat) : List (BitVec 64) :=
  match s.locateAll w need (partsOf va n) with
  | .ok ps => ps.map fun q => q.2.2.2
  | .error (.fmt _ e) => [e]
  | .error _ => []

/-! ### Tiles -/

/-- Whether a tile is READY (R306). -/
def Cell.tileReady (x : Cell) (n : Nat) : Bool := (x.tile n).size != 0 && (x.tile n).state == 2
def Tile.baseByte (t : Tile) : Nat := t.base.toNat * 64
def Tile.bytes (t : Tile) : Nat := t.size.toNat * 64
/-- A tile table entry (R306). -/
def tileEntry (t : Tile) : Word := (0#32 ++ BitVec.ofBool t.mxm ++ t.state ++ t.fmt ++ t.size ++ t.base : BitVec 64)

/-- Bytes of a tile, at an offset. -/
def Cell.tileBytes (x : Cell) (n off len : Nat) : List Byte := memBytes x.m.scratch ((x.tile n).baseByte + off) len
def Cell.tileNat (x : Cell) (n off len : Nat) : Nat := leNat (x.tileBytes n off len)
/-- The first poisoned byte of a range of a tile (R159). -/
def Cell.tilePoison (x : Cell) (n off len : Nat) : Option Nat := poisonAt x.m.poison ((x.tile n).baseByte + off) len
/-- Writes bytes of a tile, clearing the poison of blocks covered whole. -/
def State.tileWrite (s : State) (c n off : Nat) (bs : List Byte) : State :=
  s.modCell c fun x =>
    let a := (x.tile n).baseByte + off
    { x with m := { x.m with scratch := memStore x.m.scratch a bs, poison := poisonAfter x.m.poison a bs.length } }

/-- A tile write by a unit, suppressed once its task is aborted (R295). -/
def State.tileStore (s : State) (w : Who) (n off : Nat) (bs : List Byte) : State :=
  if s.suppressed w then s else s.tileWrite w.cell n off bs

/-- A poisoned scratchpad read stops the port as a POISON fault at the window's address (R136, R153). -/
def State.poisonStop (s : State) (w : Who) (off : Nat) : State := s.portStop w .read (.bad 0x06 (mkVa 0xFFFE off))

/-- Why a tile is not read: it is not READY, the range passes its end (R237), or a poisoned byte stands in it. -/
inductive TileFail where
  | wait
  | beyond
  | poison (off : Nat)
  deriving DecidableEq, Repr

/-- Whether a range of a tile may be used now (R237, R306). -/
def Cell.tileCheck (x : Cell) (n off len : Nat) : Except TileFail Unit :=
  if !x.tileReady n then .error .wait
  else if off + len > (x.tile n).bytes then .error .beyond
  else match x.tilePoison n off len with
    | some o => .error (.poison o)
    | none => .ok ()
/-- The little-endian value of a range of a tile. -/
def Cell.tileRd (x : Cell) (n off len : Nat) : Except TileFail Nat :=
  (x.tileCheck n off len).map fun _ => x.tileNat n off len

/-! ### Stream blocks -/

/-- A block of the step's focus. -/
def State.blk (s : State) : Block := (s.cell s.focus.cell).block s.focus.unit
def State.modBlk (s : State) (f : Block → Block) : State := s.modBlock s.focus.cell s.focus.unit f
/-- A block as an issuer (R233): the STRM class. -/
def State.blkWho (s : State) : Who :=
  { cell := s.focus.cell, span := s.blk.span, port := blockPort s.focus.unit, cls := .strm }
/-- A token-kind fault and an op-word fault of the focused block. -/
def State.blkTokFault (s : State) (t : Token) : State := s.tokFault s.focus.cell s.blk.span (blockPort s.focus.unit) t
def State.blkOpFault (s : State) : State := s.opFault s.focus.cell s.blk.span (blockPort s.focus.unit) s.blk.word 0
/-- A tile that the focused block cannot read: it waits, or a fault (R136, R237). -/
def State.blkTileFail (s : State) : TileFail → State
  | .wait => s
  | .beyond => s.blkOpFault
  | .poison o => s.poisonStop s.blkWho o
/-- The same for a unit other than the focused one. -/
def State.unitTileFail (s : State) (c u : Nat) (e : TileFail) : State :=
  let b := (s.cell c).block u
  match e with
  | .wait => s
  | .beyond => s.opFault c b.span (blockPort u) b.word 0
  | .poison o => s.poisonStop { cell := c, span := b.span, port := blockPort u, cls := .strm } o
/-- Whether the focused block may step: its port does not wait for a walk and is not stopped. -/
def State.blkFree (s : State) : Bool := !s.portBusy s.focus.cell (blockPort s.focus.unit)
/-- A constant of a block. -/
def Block.const (b : Block) (n : Nat) : BitVec 32 := SMap.get 0 b.k n

end Sys2Proof.Machine
end

