-- ==== Sys2Proof/Machine/Scan.lean ====
section
/-! DEFINITION. Level scanners: the SCAN words and seeks (R236-R243). One step takes one token or emits one. -/

namespace Sys2Proof.Machine

/-- The forms of a level (R163). -/
inductive LevelForm where
  | dense | comp | bmap
  deriving DecidableEq, Repr

/-- The fields of a SCAN word (R238). -/
structure ScanWord where
  form : LevelForm
  ta   : Nat := 0
  tb   : Nat := 0
  tv   : Nat := 0
  vf   : Nat := 0
  seek : Bool := false
  deriving DecidableEq, Repr

/-- The scanner of a unit: 16 sc0, 17 sc1. -/
def Cell.scanner (x : Cell) (u : Nat) : Scanner := if u == 16 then x.m.sc0 else x.m.sc1
def State.setScanner (s : State) (c u : Nat) (k : Scanner) : State :=
  s.modCell c fun x => { x with m := if u == 16 then { x.m with sc0 := k } else { x.m with sc1 := k } }

/-- Whether the constants of a block break R239 for a form. -/
def scanBad (w : ScanWord) (b : Block) : Bool :=
  match w.form with
  | .dense => b.const 0 == 0
  | .comp => (b.const 1).toNat % 4 != 0 || (b.const 2).toNat % 4 != 0
  | .bmap => b.const 0 == 0 || (b.const 1).toNat % 4 != 0 || (b.const 2).toNat % 64 != 0

/-- Whether a value tile's format tag does not suit VFMT (R239). -/
def valueTagBad (vf : Nat) (fmt : BitVec 4) : Bool :=
  fmt != 0 && !(if vf == 1 then fmt == 3 || fmt == 5 else if vf == 2 then fmt == 7 else fmt == 6)

/-- A value widened to F32 (R239). -/
def widenValue (vf v : Nat) : Nat :=
  if vf == 2 then fF32.round (fBF16.dec v) 0 false else if vf == 3 then fF32.round (fF16.dec v) 0 false else v

/-- The first set bit of a bitmap word from a place on, below a limit. The last argument is fuel. -/
def firstBit (v lim : Nat) (b : Nat) : Nat → Option Nat
  | 0 => none
  | f + 1 => if b ≥ lim then none else if v / 2 ^ b % 2 == 1 then some b else firstBit v lim (b + 1) f

/-- The count of 1 bits below a place. -/
def onesBelow (v b : Nat) : Nat := (List.range b).foldl (fun n i => n + v / 2 ^ i % 2) 0

/-- Words of a bitmap fibre (R163). -/
def bmWords (n : Nat) : Nat := (n + 511) / 512

/-- The entry at or after a cursor place: the place, its coordinate and REF; none at the fibre's end (R240). `p` is the
parent position; the last argument counts the bitmap words left. -/
def bmapEntry (x : Cell) (w : ScanWord) (b : Block) (p next : Nat) : Nat → Except TileFail (Option (Nat × Nat × Nat))
  | 0 => .ok none
  | f + 1 =>
    let n := (b.const 0).toNat
    if next ≥ n then .ok none
    else
      let i := p * bmWords n + next / 512
      match x.tileRd w.ta ((b.const 2).toNat + 64 * i) 64 with
      | .error e => .error e
      | .ok v =>
        match firstBit v (min 512 (n - next / 512 * 512)) (next % 512) 512 with
        | none => bmapEntry x w b p ((next / 512 + 1) * 512) f
        | some bit =>
          match x.tileRd w.tb ((b.const 1).toNat + 4 * i) 4 with
          | .error e => .error e
          | .ok pre =>
            let c := next / 512 * 512 + bit
            .ok (some (c, c, pre + onesBelow v bit))

def scanEntry (x : Cell) (w : ScanWord) (b : Block) (k : Scanner) : Except TileFail (Option (Nat × Nat × Nat)) :=
  let p := k.parent.toNat % 2 ^ 32
  match w.form with
  | .dense => .ok (if k.next ≥ (b.const 0).toNat then none else some (k.next, k.next, p * (b.const 0).toNat + k.next))
  | .comp =>
    if k.next ≥ k.stop then .ok none
    else match x.tileRd w.ta ((b.const 2).toNat + 4 * k.next) 4 with
      | .error e => .error e
      | .ok c => .ok (some (k.next, c, k.next))
  | .bmap => bmapEntry x w b p k.next (bmWords (b.const 0).toNat + 1)

/-- A DATA of a fibre, with its value (R239, R240). -/
def scanData (x : Cell) (w : ScanWord) (b : Block) (coord ref : Nat) : Except TileFail Token :=
  let t : Token := { kind := 0, coord := BitVec.ofNat 32 coord, ref := BitVec.ofNat 64 ref }
  if w.vf == 0 then .ok t
  else
    let size := if w.vf == 1 then 4 else 2
    match x.tileRd w.tv ((b.const 3).toNat + size * ref) size with
    | .error e => .error e
    | .ok v => .ok { t with pl := true, lmask := 1, payload := BitVec.ofNat 512 (widenValue w.vf v) }

/-- What an entry of a fibre reads as once the task is aborted (R295): an entry of a compressed level has a free coordinate, a bitmap
ends or goes on at a free place with a free REF; a dense level reads nothing (log 23). -/
def State.freeEntry (s : State) (w : ScanWord) (b : Block) (k : Scanner) : Option (Nat × Nat × Nat) × State :=
  let n := (b.const 0).toNat
  let u := s.free
  let v := u.2.free
  match w.form with
  | .dense => (if k.next ≥ n then none else some (k.next, k.next, k.parent.toNat % 2 ^ 32 * n + k.next), s)
  | .comp => if k.next ≥ k.stop then (none, s) else (some (k.next, u.1.toNat % 2 ^ 32, k.next), u.2)
  | .bmap =>
    if k.next ≥ n || !u.1.getLsbD 0 then (none, u.2)
    else let c := k.next + u.1.toNat / 2 % (n - k.next); (some (c, c, v.1.toNat % 2 ^ 32), v.2)
/-- The entry that a scanner reads next, free once its task is aborted. -/
def State.readEntry (s : State) (x : Cell) (w : ScanWord) (b : Block) (k : Scanner) (supp : Bool) :
    Except TileFail (Option (Nat × Nat × Nat) × State) :=
  if supp then .ok (s.freeEntry w b k) else (scanEntry x w b k).map fun e => (e, s)
/-- The DATA of an entry; its value is free once the task is aborted. -/
def State.readData (s : State) (x : Cell) (w : ScanWord) (b : Block) (coord ref : Nat) (supp : Bool) :
    Except TileFail (Token × State) :=
  if supp && w.vf != 0 then
    let v := s.free
    .ok ({ kind := 0, coord := BitVec.ofNat 32 coord, ref := BitVec.ofNat 64 ref, pl := true, lmask := 1,
           payload := (v.1.extractLsb' 0 32).zeroExtend 512 }, v.2)
  else (scanData x w b coord ref).map fun t => (t, s)
/-- The bounds of a compressed fibre (R163), two free numbers in order once the task is aborted. -/
def State.readBounds (s : State) (x : Cell) (w : ScanWord) (b : Block) (p : Nat) (supp : Bool) :
    Except TileFail ((Nat × Nat) × State) :=
  if supp then
    let u := s.free
    let v := u.2.free
    let lo := u.1.toNat % 2 ^ 32
    .ok ((lo, max lo (v.1.toNat % 2 ^ 32)), v.2)
  else match x.tileRd w.tb ((b.const 1).toNat + 4 * p) 8, x.tileCheck w.ta 0 0 with
    | .error e, _ => .error e
    | _, .error e => .error e
    | .ok v, .ok _ => .ok ((v % 2 ^ 32, v / 2 ^ 32), s)

/-- A scanner emits the oldest token it owes; a STOP takes part in the window (R242). -/
def State.scanOwed (s : State) (w : ScanWord) (k : Scanner) (t : Token) (rest : List Token) : State :=
  let u := s.focus.unit
  if w.seek && t.kind == 1 && k.win == .held then s
  else
    let k := { k with owed := rest, win := if w.seek && t.kind == 1 then .held else k.win }
    (s.setScanner s.focus.cell u k).modBlk fun b => b.emit t

/-- A scanner goes on with its fibre: the next DATA, or the fibre's end (R240, R242). -/
def State.scanFibre (s : State) (w : ScanWord) (k : Scanner) : State :=
  let c := s.focus.cell
  let b := s.blk
  if w.seek && k.win == .held then s
  else
    let k := if w.seek then { k with win := .opened } else k
    let supp := s.suppressed s.blkWho
    match s.readEntry (s.cell c) w b k supp with
    | .error e => s.blkTileFail e
    | .ok (none, s) => s.setScanner c s.focus.unit { k with active := false, pend := true }
    | .ok (some (place, coord, ref), s1) =>
      match s1.readData (s.cell c) w b coord ref supp with
      | .error e => s.blkTileFail e
      | .ok (t, s) => (s.setScanner c s.focus.unit { k with next := place + 1 }).modBlk fun b => b.emit t

/-- A scanner that owes nothing takes a parent DATA (R239, R240). An ABSENT parent, whose fibre reads nothing, comes before the checks of the
constants (log 99). -/
def State.scanParent (s : State) (w : ScanWord) (k : Scanner) (t : Token) : State :=
  let c := s.focus.cell
  let b := s.blk
  let x := s.cell c
  let p := t.ref.toNat % 2 ^ 32
  let supp := s.suppressed s.blkWho
  let put := fun (s : State) (k : Scanner) => ((s.setScanner c s.focus.unit k).modBlk fun b => b.take 0 t).bump c 0x044 1
  let go := put s
  if t.absent then go { k with active := false, pend := true }
  else if scanBad w b then s.blkOpFault
  else if w.vf != 0 && !supp && valueTagBad w.vf (x.tile w.tv).fmt then
    s.fmtFault c b.span (blockPort s.focus.unit) 0 (mkVa 0xFFFE ((x.tile w.tv).baseByte + (b.const 3).toNat)) 0 (tileEntry (x.tile w.tv))
  else match w.form with
    | .dense => go { k with active := true, parent := t.ref, next := 0, stop := (b.const 0).toNat }
    | .bmap => go { k with active := true, parent := t.ref, next := 0, stop := (b.const 0).toNat }
    | .comp =>
      match s.readBounds x w b p supp with
      | .error e => s.blkTileFail e
      | .ok ((lo, hi), s1) =>
        if hi < lo then s.fmtFault c b.span (blockPort s.focus.unit) 0
          (mkVa 0xFFFE ((x.tile w.tb).baseByte + (b.const 1).toNat + 4 * p)) 0 0
        else put s1 { k with active := true, parent := t.ref, next := lo, stop := hi }

/-- The tiles that a SCAN word names must be READY before the scanner takes a token (R237, R306). -/
def scanReady (x : Cell) (w : ScanWord) : Bool :=
  (w.form == .dense || (x.tileReady w.ta && x.tileReady w.tb)) && (w.vf == 0 || x.tileReady w.tv)

/-- A step of a scanner (R241): what it owes, then its fibre, then the token at sc.i. Before a DATA a pending STOP(0) goes out. -/
def State.scanStep (s : State) (w : ScanWord) : Out :=
  let c := s.focus.cell
  let u := s.focus.unit
  let b := s.blk
  let k := (s.cell c).scanner u
  if !b.outFree || !s.blkFree then .next s
  else match k.owed with
    | t :: rest => .next (s.scanOwed w k t rest)
    | [] =>
      if k.active then .next (s.scanFibre w k)
      else match b.head 0 with
        | none => .next s
        | some t =>
          let go := fun (owed : List Token) =>
            Host.Outcome.next (((s.setScanner c u { k with owed := owed, pend := false }).modBlk fun b => b.take 0 t).bump c 0x044 1)
          let close := if k.pend then [tkStop 0] else []
          if t.kind == 6 || (!scanReady (s.cell c) w && !s.suppressed s.blkWho) then .next s
          else if (t.kind == 0 || t.kind == 1) && b.span.isNone then .next (s.blkTokFault t)
          else if t.kind == 0 then
            .next (if k.pend then s.setScanner c u { k with owed := close, pend := false } else s.scanParent w k t)
          else if t.kind == 1 then (if t.level == 7 then .next (s.blkTokFault t) else go [tkStop (t.level + 1)])
          else if t.kind == 2 || t.kind == 3 || t.kind == 4 || t.kind == 5 then go (close ++ [t])
          else .next (s.blkTokFault t)

/-- SCAN.D (R238-R242). -/
def execScanD (tv : BitVec 6) (vf : BitVec 2) (seek : BitVec 1) (s : State) : Out :=
  s.scanStep { form := .dense, tv := tv.toNat, vf := vf.toNat, seek := seek == 1 }
/-- SCAN.C (R238-R242). -/
def execScanC (ta tb tv : BitVec 6) (vf : BitVec 2) (seek : BitVec 1) (s : State) : Out :=
  s.scanStep { form := .comp, ta := ta.toNat, tb := tb.toNat, tv := tv.toNat, vf := vf.toNat, seek := seek == 1 }
/-- SCAN.B (R238-R242). -/
def execScanB (ta tb tv : BitVec 6) (vf : BitVec 2) (seek : BitVec 1) (s : State) : Out :=
  s.scanStep { form := .bmap, ta := ta.toNat, tb := tb.toNat, tv := tv.toNat, vf := vf.toNat, seek := seek == 1 }

/-- The fields of a block's SCAN word. -/
def scanWordOf (w : BitVec 32) : Option ScanWord :=
  match decodeOp w with
  | some (.instr (.scanD tv vf seek)) => some { form := .dense, tv := tv.toNat, vf := vf.toNat, seek := seek == 1 }
  | some (.instr (.scanC ta tb tv vf seek)) =>
    some { form := .comp, ta := ta.toNat, tb := tb.toNat, tv := tv.toNat, vf := vf.toNat, seek := seek == 1 }
  | some (.instr (.scanB ta tb tv vf seek)) =>
    some { form := .bmap, ta := ta.toNat, tb := tb.toNat, tv := tv.toNat, vf := vf.toNat, seek := seek == 1 }
  | _ => none

/-- The coordinate at a place of a compressed level. -/
def crdAt (x : Cell) (w : ScanWord) (b : Block) (i : Nat) : Nat := x.tileNat w.ta ((b.const 2).toNat + 4 * i) 4
/-- Whether a line of sixteen entries ends at or above c: the entries of it that lie in the fibre are read under the checks of a
read (R237, R243; log 91). -/
def lineEnds (x : Cell) (w : ScanWord) (b : Block) (c lo hi line : Nat) : Except TileFail Bool :=
  let a := max lo (16 * line)
  let e := min hi (16 * line + 16)
  (x.tileCheck w.ta ((b.const 2).toNat + 4 * a) (4 * (e - a))).map fun _ => c ≤ crdAt x w b (e - 1)
/-- The search outward (R243): from the line in hand at distances 1, 2, 4 and so on, until a line ends at or above c or the fibre
ends. The lines between which the target lies, the lower one known to end below c. The last argument is fuel. -/
def compGallop (x : Cell) (w : ScanWord) (b : Block) (c lo hi below d : Nat) : Nat → Except TileFail (Nat × Nat)
  | 0 => .ok (below, (hi - 1) / 16 + 1)
  | f + 1 =>
    let line := lo / 16 + d
    if (hi - 1) / 16 < line then .ok (below, (hi - 1) / 16 + 1)
    else match lineEnds x w b c lo hi line with
      | .error e => .error e
      | .ok true => .ok (below, line)
      | .ok false => compGallop x w b c lo hi line (2 * d) f
/-- The halving of the bracket (R243): the first line that ends at or above c, or the one past the fibre's last. The last argument
is fuel. -/
def compHalve (x : Cell) (w : ScanWord) (b : Block) (c lo hi below above : Nat) : Nat → Except TileFail Nat
  | 0 => .ok above
  | f + 1 =>
    let mid := (below + above) / 2
    if above ≤ below + 1 then .ok above
    else match lineEnds x w b c lo hi mid with
      | .error e => .error e
      | .ok true => compHalve x w b c lo hi below mid f
      | .ok false => compHalve x w b c lo hi mid above f
/-- The first entry from lo on whose coordinate is at least c, in the line that the search of R243 finds; hi where none is. -/
def compSeek (x : Cell) (w : ScanWord) (b : Block) (c lo hi : Nat) : Except TileFail Nat :=
  let find := fun (line : Nat) =>
    let a := max lo (16 * line)
    (((List.range (min hi (16 * line + 16) - a)).find? fun i => c ≤ crdAt x w b (a + i)).map (a + ·)).getD hi
  match lineEnds x w b c lo hi (lo / 16) with
  | .error e => .error e
  | .ok true => .ok (find (lo / 16))
  | .ok false => match compGallop x w b c lo hi (lo / 16) 1 40 with
    | .error e => .error e
    | .ok (below, above) => (compHalve x w b c lo hi below above 40).map find

/-- A scanner after a SEEK with a target of at least 1 that finds its fibre open (R243), or why a tile it names is not read. -/
def seekTo (x : Cell) (w : ScanWord) (b : Block) (k : Scanner) (c : Nat) : Except TileFail Scanner :=
  let dropped : Scanner := { k with active := false, pend := true }
  match scanEntry x w b k with
  | .error e => .error e
  | .ok none => .ok k
  | .ok (some (_, coord, _)) =>
    if coord ≥ c then .ok k
    else if c == 0xFFFFFFFF then .ok dropped
    else match w.form with
      | .comp => (compSeek x w b c k.next k.stop).map fun i =>
          if i ≥ k.stop then dropped else { k with next := i }
      | .dense => .ok (if c ≥ (b.const 0).toNat then dropped else { k with next := c })
      | .bmap =>
        if c ≥ (b.const 0).toNat then .ok dropped
        else (scanEntry x w b { k with next := c }).map fun e => if e.isNone then dropped else { k with next := c }

/-- A seek of a scanner whose task is aborted reads nothing: it stays, drops its fibre or moves to a free place of it (R295). -/
def State.freeSeek (s : State) (k : Scanner) (c : Nat) : Scanner × State :=
  let v := s.free
  if c == 0xFFFFFFFF || (v.1.getLsbD 0 && k.stop ≤ k.next + v.1.toNat / 2 % 2 ^ 32) then
    (if v.1.getLsbD 0 then { k with active := false, pend := true } else k, v.2)
  else (if v.1.getLsbD 0 then { k with next := k.next + v.1.toNat / 2 % 2 ^ 32 } else k, v.2)

/-- SCANNER_SEEK_TAKEN (R242, R243): a scanner takes the SEEK at scN.k. One that needs a tile the scanner cannot read stays
(R136, R237). -/
def execScannerSeekTaken (cell sc : Nat) (s : State) : Out :=
  let u := 16 + sc
  let b := (s.cell cell).block u
  let k := (s.cell cell).scanner u
  match SMap.get [] b.back 0 with
  | [] => .next s
  | t :: rest =>
    if !s.cellLive cell || sc > 1 then .next s
    else if t.kind != 8 || t.level != 0 then .next (s.tokFault cell b.span (blockPort u) t)
    else
      let took := (s.modBlock cell u fun b => { b with back := SMap.set b.back 0 rest }).bump cell 0x045 1
      match scanWordOf b.word with
      | none => .next took
      | some w =>
        let c := t.coord.toNat
        if !w.seek then .next took
        else if c == 0 then .next (if k.win == .held then took.setScanner cell u { k with win := .ready } else took)
        else if k.win == .opened && k.active && k.owed.isEmpty then
          if s.portBusy cell (blockPort u) then .next s
          else if w.form != .dense && s.suppressed { cell := cell, span := b.span, port := blockPort u, cls := .strm } then
            let r := took.freeSeek k c
            .next (r.2.setScanner cell u r.1)
          else match seekTo (s.cell cell) w b k c with
            | .error e => .next (s.unitTileFail cell u e)
            | .ok k => .next (took.setScanner cell u k)
        else .next took

end Sys2Proof.Machine
end

