-- ==== Sys2Proof/Machine/LevelWrite.lean ====
section
/-! DEFINITION. The level writer: the LWRITE words (R255, R256). One step takes a token, or a pair. -/

namespace Sys2Proof.Machine

/-- The fields of an LWRITE word (R255); `vw` is the code of the value's width. -/
structure LwWord where
  form : LevelForm
  ta   : Nat := 0
  tb   : Nat := 0
  tv   : Nat := 0
  vw   : Nat := 0
  deriving DecidableEq, Repr

def State.lwr (s : State) : LWriter := (s.cell s.focus.cell).m.lw
def State.setLwr (s : State) (l : LWriter) : State := s.modCell s.focus.cell fun x => { x with m := { x.m with lw := l } }

/-- The bytes of a value: 4 of REF, 2 of REF, or the payload (R255). -/
def lwValue (vw : Nat) (t : Token) : List Byte :=
  if vw == 1 then natLe t.ref.toNat 4 else if vw == 2 then natLe t.ref.toNat 2 else bytesOf512 t.payload 64
def lwSize (vw : Nat) : Nat := if vw == 1 then 4 else if vw == 2 then 2 else 64

/-- The write of a value at a position, if the word writes values: (tile, offset, bytes). -/
def lwValuePiece (w : LwWord) (b : Block) (r : Nat) (v : Option Token) : List (Nat × Nat × List Byte) :=
  match v with
  | some t => if w.vw == 0 then [] else [(w.tv, (b.const 3).toNat + r * lwSize w.vw, lwValue w.vw t)]
  | none => []

/-- The bitmap words from the writer's up to another of the fibre are written, with their pre entries: the writes and the
writer after (R256). The last argument is the count of words. -/
def lwWords (w : LwWord) (b : Block) (l : LWriter) : Nat → List (Nat × Nat × List Byte) × LWriter
  | 0 => ([], l)
  | f + 1 =>
    let i := l.p.toNat * bmWords (b.const 0).toNat + l.word.toNat
    let here := [(w.ta, (b.const 2).toNat + 64 * i, bytesOf512 l.buf 64), (w.tb, (b.const 1).toNat + 4 * i, natLe l.count.toNat 4)]
    let l' := { l with buf := 0, word := l.word + 1, count := l.count + BitVec.ofNat 32 (onesBelow l.buf.toNat 512) }
    let (rest, l'') := lwWords w b l' f
    (here ++ rest, l'')

/-- The close of a fibre: STOP, or EOT with an open fibre (R256). -/
def lwClose (w : LwWord) (b : Block) (l : LWriter) : List (Nat × Nat × List Byte) × LWriter :=
  let fin := fun (l : LWriter) => { l with p := l.p + 1, open_ := false }
  match w.form with
  | .dense => ([], fin l)
  | .comp => ([(w.tb, (b.const 1).toNat + 4 * (l.p.toNat + 1), natLe l.n.toNat 4)], fin l)
  | .bmap =>
    let (ps, l) := lwWords w b l (bmWords (b.const 0).toNat - l.word.toNat)
    (ps, { fin l with word := 0, buf := 0 })

/-- The constants of the word break R239. -/
def lwBad (w : LwWord) (b : Block) : Bool := scanBad { form := w.form } b

/-- The writes of a list that stand before the first one past its tile's end, and whether there is none such (R237). -/
def piecesFit (x : Cell) : List (Nat × Nat × List Byte) → List (Nat × Nat × List Byte) × Bool
  | [] => ([], true)
  | (n, off, bs) :: ps =>
    if (x.tile n).bytes < off + bs.length then ([], false)
    else ((n, off, bs) :: (piecesFit x ps).1, (piecesFit x ps).2)

/-- What a token asks of the writer (R256): an op-word fault, a token-kind fault, or its writes and the writer after. A .C writer
with a misaligned offset faults at the SOT already (log 104). -/
inductive LwStep where
  | op
  | tok
  | go (ps : List (Nat × Nat × List Byte)) (l : LWriter)
  deriving DecidableEq, Repr

def lwAnswer (w : LwWord) (b : Block) (l : LWriter) (t : Token) (v : Option Token) : LwStep :=
  if t.kind == 3 then
    let l' : LWriter := {}
    if w.form == .comp then
      (if lwBad w b then .op else .go [(w.tb, (b.const 1).toNat, natLe 0 4)] l')
    else .go [] l'
  else if t.kind == 0 then
    let c := t.coord.toNat
    let n := (b.const 0).toNat
    if lwBad w b then .op
    else match w.form with
      | .dense =>
        if c ≥ n then .op
        else .go (lwValuePiece w b (l.p.toNat * n + c) v) { l with n := l.n + 1, open_ := true }
      | .comp =>
        .go ((w.ta, (b.const 2).toNat + 4 * l.n.toNat, natLe c 4) :: lwValuePiece w b l.n.toNat v)
          { l with n := l.n + 1, open_ := true }
      | .bmap =>
        if l.open_ && c ≤ l.prev.toNat then .tok
        else if c ≥ n then .op
        else
          let (ps, l') := lwWords w b l (c / 512 - l.word.toNat)
          .go (ps ++ lwValuePiece w b l.n.toNat v)
            { l' with buf := l'.buf ||| (1#512 <<< (c % 512)), prev := t.coord, n := l.n + 1, open_ := true }
  else if t.kind == 1 then
    (if lwBad w b then .op else let (ps, l') := lwClose w b l; .go ps l')
  else if t.kind == 4 then
    if l.open_ then (if lwBad w b then .op else let (ps, l') := lwClose w b l; .go ps l') else .go [] l
  else if t.kind == 2 then .go [] { l with open_ := false }
  else .go [] l

/-- The writer's tiles that its word names must be READY before it steps (R237). -/
def lwReady (x : Cell) (w : LwWord) : Bool :=
  (w.form == .dense || (x.tileReady w.ta && x.tileReady w.tb)) && (w.vw == 0 || x.tileReady w.tv)

/-- A step of the level writer (R256). Its writes take effect in their order up to the first past its tile's end, which is not
performed and is an op-word fault (R5, R237). A suppressed write meets no check of its tile (R295). -/
def State.lwStep (s : State) (w : LwWord) : Out :=
  let b := s.blk
  let c := s.focus.cell
  match b.head 0 with
  | none => .next s
  | some t =>
    let go := fun (v : Option Token) =>
      match lwAnswer w b s.lwr t v with
      | .op => Host.Outcome.next s.blkOpFault
      | .tok => Host.Outcome.next (s.blkTokFault t)
      | .go ps l =>
        let fit := if s.suppressed s.blkWho then (ps, true) else piecesFit (s.cell c) ps
        let s := fit.1.foldl (fun s p => s.tileStore s.blkWho p.1 p.2.1 p.2.2) s
        if !fit.2 then Host.Outcome.next s.blkOpFault
        else
          let s := (s.setLwr l).modBlk fun b => let b := b.take 0 t; if v.isSome then b.pop 1 else b
          Host.Outcome.next (s.sinkToken c 18 t)
    if t.kind == 6 then .next s
    else if (t.kind == 0 || t.kind == 1) && b.span.isNone then .next (s.blkTokFault t)
    else if !lwReady (s.cell c) w && !s.suppressed s.blkWho then .next s
    else if w.vw == 0 then go none
    else match b.head 1 with
      | none => .next s
      | some v =>
        if (t.kind == 0 && v.kind == 0) || (t.kind != 0 && ctlPair t v) then go (some v) else .next (s.blkTokFault v)

/-- LWRITE.D (R256). -/
def execLwriteD (tv : BitVec 6) (vw : BitVec 2) (s : State) : Out :=
  s.lwStep { form := .dense, tv := tv.toNat, vw := vw.toNat }
/-- LWRITE.C (R256). -/
def execLwriteC (ta tb tv : BitVec 6) (vw : BitVec 2) (s : State) : Out :=
  s.lwStep { form := .comp, ta := ta.toNat, tb := tb.toNat, tv := tv.toNat, vw := vw.toNat }
/-- LWRITE.B (R256). -/
def execLwriteB (ta tb tv : BitVec 6) (vw : BitVec 2) (s : State) : Out :=
  s.lwStep { form := .bmap, ta := ta.toNat, tb := tb.toNat, tv := tv.toNat, vw := vw.toNat }

end Sys2Proof.Machine
end

