-- ==== Sys2Proof/Machine/Control.lean ====
section
/-! DEFINITION. Transfers of control, clauses, the end of a firing, and traps as instructions (R101-R112). -/

namespace Sys2Proof.Machine

/-- ILL: a control word whose OP is 0 traps ILLOP (R65). -/
def execIll (r : BitVec 25) (s : State) : Out := s.illop (.ill r)

/-- BR (R102). -/
def execBr (p : BitVec 3) (neg : BitVec 1) (off : BitVec 21) (s : State) : Out :=
  if predTrue (s.seq.getP p) neg then .next (s.setSeq (s.seq.jumpTo (target21 s.seq.pc off))) else s.done s.seq

/-- JMP (R102). -/
def execJmp (off : BitVec 25) (s : State) : Out := .next (s.setSeq (s.seq.jumpTo (target25 s.seq.pc off)))

/-- The byte address of a word address. -/
def byteAddr (pc : BitVec 12) : Word := (pc ++ 0#2 : BitVec 14).zeroExtend 64

/-- JAL: lk := the address of JAL + 4 (R102). -/
def execJal (off : BitVec 25) (s : State) : Out :=
  .next (s.setSeq { s.seq.jumpTo (target25 s.seq.pc off) with lk := byteAddr s.seq.pc + 4 })

/-- JR: a target past the store traps ILLOP, an unaligned one MISALIGN, each with the target (R102). -/
def execJr (a : BitVec 5) (s : State) : Out :=
  let t := if a == 0 then s.seq.lk else s.seq.getG a
  if t.extractLsb' 14 50 != 0 then s.trapSelf 0x01 t (wordOf (.jr a))
  else if t.extractLsb' 0 2 != 0 then s.trapSelf 0x03 t (wordOf (.jr a))
  else .next (s.setSeq (s.seq.jumpTo (t.extractLsb' 2 12)))

/-- LOOP (R104). -/
def execLoopH (a : BitVec 5) (len : BitVec 6) (s : State) : Out :=
  let q := s.seq
  let v := q.getG a
  let i : Instr := .loopH a len
  if len == 0 || lsActive q.loopst then s.illop i
  else if v.extractLsb' 32 32 != 0 then s.trapSelf 0x01 v (wordOf i)
  else if q.pc.toNat + len.toNat > 4095 then s.illop i
  else if v == 0 then .next (s.setSeq { q with pc := q.pc + len.zeroExtend 12 + 1, wait := {} })
  else .next (s.setSeq { q with
    loopst := lsMake (v.extractLsb' 0 32) (q.pc + 1) len, pc := q.pc + 1, wait := {} })

/-- The end of the running firing of a cell (R35, R103, R305, R327, R174): no address of an instruction is left, the monitor is disarmed, ARR cleared, the span closes
if the firing took its EOT, and EOTs and DONEs taken at sink ports reach their sinks (R31, log 72). -/
def State.endFiring (s : State) (c : Nat) : State :=
  let q := s.seqAt c
  let n := q.slotNo
  let sl := (s.cell c).slot n
  let s := s.setSeqAt c { q with
    running := false, mon := { q.mon with armed := false }, barst := { q.barst with arr := false }, wait := {},
    tr := { q.tr with tm := false, pc := 0, ls := 0 } }
  let s := s.modCell c fun x => x.setSlot n
    { sl with spanOpen := sl.spanOpen && !sl.closing, closing := false, sinkTook := [] }
  sl.sinkTook.foldl (fun s t => s.sinkToken c (32 + 4 * n + t.1) t.2) s

/-- FEND (R103); in trap mode it aborts the firing, and after UNDECL, PERM or POISON its task (R112). -/
def execFend (s : State) : Out :=
  let c := s.focus.cell
  let q := s.seq
  let sl := s.runSlot
  let hard := q.tr.cause == 0x04 || q.tr.cause == 0x05 || q.tr.cause == 0x06
  let s := if q.tr.tm && hard && sl.spanOpen then
      match s.graphAt c with
      | some (p, g) => match g.taskOf sl.spanid with
        | some t => s.abortTask p g.lid t.x t.y 2 q.tr.cause.toNat (vaOff q.tr.value)
            { cell := c, pc := 4 * q.pc.toNat, port := 0x80 }
        | none => s
      | none => s
    else s
  .next (s.endFiring c)

/-- TRAP: TRAPI with the resume address after it (R108, R111). -/
def execTrapI (i : BitVec 20) (s : State) : Out :=
  let n := nextPc s.seq.pc s.seq.loopst
  .next (s.trapOn s.focus.cell 0x09 (i.zeroExtend 64) n.1 n.2 (wordOf (.trapI i)))

/-- BRK (R111). -/
def execBrk (i : BitVec 20) (s : State) : Out :=
  if s.seq.tr.be then s.trapSelf 0x0A (i.zeroExtend 64) (wordOf (.brk i)) else s.done s.seq

/-- TRET (R110). -/
def execTret (s : State) : Out :=
  if !s.seq.tr.tm then s.illop .tret else .next (s.setSeq s.seq.trapReturn)

end Sys2Proof.Machine
end

