-- ==== Sys2Proof/Machine/Ports.lean ====
section
/-! DEFINITION. The instructions of actor ports: TAKE, PEEK, EMIT and EMITS (R218-R220). -/

namespace Sys2Proof.Machine

/-- Whether an input endpoint is bound: a valid IN entry or an internal OUT entry names it (R214). -/
def Cell.inBound (x : Cell) (ep : Nat) : Bool :=
  x.router.epIn.any (fun e => e.2.getLsbD 7 && (e.2.extractLsb' 0 7).toNat == ep)
    || x.router.epOut.any fun e => e.2.extractLsb' 8 2 == 2 && (e.2.extractLsb' 0 7).toNat == ep
/-- Whether an output endpoint is bound (R214). -/
def Cell.outBound (x : Cell) (ep : Nat) : Bool :=
  let e := SMap.get 0 x.router.epOut ep
  e.extractLsb' 8 2 == 1 || e.extractLsb' 8 2 == 2

/-- The part of a token that TAKE and PEEK return (R218). -/
def tokenPart (t : Token) (part : BitVec 2) : Word :=
  if part == 0 then t.ref else if part == 1 then t.coord.zeroExtend 64 else tkHead t

/-- A slot after it takes the head of a take port (R88, R218, R305, R31): TASKXY, SPANID and the open span follow an SOT;
the matching EOT closes the span at the firing's end. An EOT and a DONE reach a sink port then (log 72). -/
def Slot.taken (sl : Slot) (port : Nat) (t : Token) (rest : List Token) : Slot :=
  let ends := (t.kind == 4 || t.kind == 2) && sl.sinks.contains port
  let sl := { sl with inq := SMap.set sl.inq port rest, sinkTook := if ends then sl.sinkTook ++ [(port, t)] else sl.sinkTook }
  if t.kind == 3 then
    { sl with taskxy := t.coord &&& 0x0FFF0FFF#32, spanid := t.ref, spanOpen := true, closing := false }
  else if t.kind == 4 then { sl with closing := sl.closing || (sl.spanOpen && t.ref == sl.spanid) }
  else sl

/-- TAKE and PEEK past their field checks (R218): `depth` is the token's place. -/
def State.readPort (s : State) (i : Instr) (d a : BitVec 5) (depth : Nat) (pay : BitVec 1) (part : BitVec 2)
    (port : BitVec 2) (remove : Bool) : Out :=
  let sl := s.runSlot
  let n := port.toNat
  if part == 3 || (pay == 0 && a != 0) || !(s.cell s.focus.cell).inBound (0x30 + 4 * s.seq.slotNo + n) then s.illop i
  else
    let q := SMap.get [] sl.inq n
    match q[depth]? with
    | none => s.stay 2
    | some t =>
      let stored := if pay == 1 && t.pl then
          s.writeVa (s.seqWho s.focus.cell) (vaPlus (s.seq.getG a) 0) (bytesOf512 t.payload 64)
        else .ok s
      match stored with
      | .error f => s.seqFail i .wr (vaPlus (s.seq.getG a) 0) f
      | .ok s' =>
        let s' := if remove then s'.modRunSlot fun sl => sl.taken n t (q.drop 1) else s'
        s'.doneG d (tokenPart t part)

/-- TAKE (R218). -/
def execTake (d a : BitVec 5) (pay : BitVec 1) (part port : BitVec 2) (s : State) : Out :=
  s.readPort (.take d a pay part port) d a 0 pay part port true

/-- PEEK (R218). -/
def execPeek (d a : BitVec 5) (depth : BitVec 3) (pay : BitVec 1) (part port : BitVec 2) (s : State) : Out :=
  s.readPort (.peek d a depth pay part port) d a depth.toNat pay part port false

/-- A token is appended to an emit port, which holds eight (R210, R219). -/
def State.append (s : State) (n : Nat) (t : Token) : State :=
  s.modRunSlot fun sl => { sl with outq := SMap.set sl.outq n (SMap.get [] sl.outq n ++ [t]) }

/-- EMIT (R219). -/
def execEmit (d a : BitVec 5) (n : BitVec 2) (s : State) : Out :=
  if !(s.cell s.focus.cell).outBound (4 * s.seq.slotNo + n.toNat) then s.illop (.emit d a n)
  else if (SMap.get [] s.runSlot.outq n.toNat).length ≥ 8 then s.stay 2
  else
    (s.append n.toNat { kind := 0, coord := (s.seq.getG d).setWidth 32, ref := s.seq.getG a }).done s.seq

/-- EMITS (R219). -/
def execEmits (a b c : BitVec 5) (n : BitVec 2) (s : State) : Out :=
  let h := s.seq.getG a
  let i : Instr := .emits a b c n
  if !(s.cell s.focus.cell).outBound (4 * s.seq.slotNo + n.toNat) then s.illop i
  else if (h.extractLsb' 0 4).toNat ≥ 8 || h.extractLsb' 12 4 != 0 then s.trapSelf 0x01 h (wordOf i)
  else if !h.getLsbD 7 && c != 0 then s.illop i
  else if (SMap.get [] s.runSlot.outq n.toNat).length ≥ 8 then s.stay 2
  else if h.getLsbD 7 then
    match s.readVa (s.seqWho s.focus.cell) (vaPlus (s.seq.getG c) 0) 64 with
    | .error f => s.seqFail i .rd (vaPlus (s.seq.getG c) 0) f
    | .ok (bs, s') => (s'.append n.toNat (tkOfHead h (s.seq.getG b) (bytes512 bs))).done s'.seq
  else (s.append n.toNat (tkOfHead h (s.seq.getG b) 0)).done s.seq

end Sys2Proof.Machine
end

