-- ==== Sys2Proof/Machine/Matrix.lean ====
section
/-! DEFINITION. The matrix engines of a D-cell (R138-R151). Engines are the units 23 mx.w, 24 mx.q, 25 mx.x, 26 mx.n and
27 mx.o; a firing acts on the unit of the step's focus. -/

namespace Sys2Proof.Machine

/-! ### Rows (R140) -/

/-- Whether a format code is one of the matrix formats (R140). -/
def fmtMatrix (f : Nat) : Bool := 6 ≤ f && f ≤ 14
/-- Bytes of a row of 32 elements (R140, R141). -/
def rowBytes (f : Nat) : Nat := if f == 6 || f == 7 then 64 else if fmtNibble f then 16 else 32
/-- Bytes of a row's scales: 2 for DX, 1 for MX, else none (R141). -/
def scaleBytes (f : Nat) : Nat := if f == 13 || f == 14 then 2 else if fmtMx f then 1 else 0
/-- Element k of a row held as a number. -/
def rowElem (f row k : Nat) : Nat := row / 2 ^ (rowBytes f / 4 * k) % 2 ^ (rowBytes f / 4)
/-- The 32 values of a row; none for a void block (R52, R54, R55). -/
def rowVals (f : Nat) (skip : Bool) (row sc : Nat) : Option (List FVal) :=
  if blockVoid f skip sc then none else some ((List.range 32).map fun k => decElem f (rowElem f row k) sc)

/-- What a decoding path that delivers lanes gives for a block: its 32 values as F32, +0 each for a void block (R55, R57). -/
def blockLanes (f : Nat) (skip : Bool) (row sc : Nat) : List (BitVec 32) :=
  match rowVals f skip row sc with
  | none => List.replicate 32 0
  | some vs => vs.map fun v => BitVec.ofNat 32 (fF32.round v 0 false)

/-! ### Planes -/

def Matrix.active (m : Matrix) : Plane := if m.act then m.planeB else m.planeA
def Matrix.shadow (m : Matrix) : Plane := if m.act then m.planeA else m.planeB
def Matrix.setShadow (m : Matrix) (p : Plane) : Matrix := if m.act then { m with planeA := p } else { m with planeB := p }
/-- The swap of R143: the shadow becomes active, the new shadow is EMPTY, PEND clears. The weights of the new shadow stay until
rows are written over them (R139). -/
def Matrix.swap (m : Matrix) : Matrix :=
  ({ m with act := !m.act, pend := false } : Matrix).setShadow { m.active with state := 0 }

def State.mx (s : State) (c : Nat) : Matrix := (s.cell c).mx
def State.modMx (s : State) (c : Nat) (f : Matrix → Matrix) : State := s.modCell c fun x => { x with mx := f x.mx }

/-- The column sum of one row and the stationary weights (R60): products over the weight rows that are not void. -/
def columnSum (as : List FVal) (ws : List (Option (List FVal))) (j : Nat) : BitVec 32 :=
  let ps := (as.zip ws).filterMap fun q => q.2.map fun w => q.1.mul (w.getD j .nan)
  match ps with
  | [] => 0
  | p :: ps => BitVec.ofNat 32 (fF32.round (ps.foldl (fun a b => a.add b 0) p) 0 false)

/-- The decoded weight rows of a plane. -/
def Plane.vals (p : Plane) : List (Option (List FVal)) :=
  (List.range 32).map fun k => rowVals p.fmt.toNat p.mxm (SMap.get 0 p.rows k).toNat (SMap.get 0 p.scale k).toNat

/-! ### The array and the column FIFOs (R146) -/

def ColEntry.isSum : ColEntry → Bool
  | .sum .. => true
  | _ => false
def ArrayEntry.isRow : ArrayEntry → Bool
  | .row .. => true
  | _ => false
/-- What an entry of the array leaves in column j. -/
def ArrayEntry.col (j : Nat) : ArrayEntry → ColEntry
  | .row p v => .sum p (v.getD j 0)
  | .void p => .void p
  | .eor => .eor

/-- The places a column's FIFO has in use: the marks of void rows and EORs take none. -/
def Matrix.colRows (m : Matrix) (j : Nat) : Nat := ((SMap.get [] m.fifos j).filter ColEntry.isSum).length
/-- Whether a FIFO is full: 8 entries (R139). -/
def Matrix.colFull (m : Matrix) : Bool := (List.range 32).any fun j => 8 ≤ m.colRows j
/-- An entry leaves the array: its column sums enter the 32 FIFOs. -/
def Matrix.pushCols (m : Matrix) (e : ArrayEntry) : Matrix :=
  { m with fifos := (List.range 32).foldl (fun q j => SMap.set q j (SMap.get [] m.fifos j ++ [e.col j])) m.fifos }
/-- The entries of the last stage leave it in order, up to a row that a full FIFO stalls; the rest stays. -/
def Matrix.leave (m : Matrix) : List ArrayEntry → Matrix × List ArrayEntry
  | [] => (m, [])
  | e :: es => if e.isRow && m.colFull then (m, e :: es) else (m.pushCols e).leave es
/-- Every stage advances while the array does not stall. -/
def Matrix.leaveAll (m : Matrix) : List (List ArrayEntry) → Matrix
  | [] => { m with stages := [] }
  | es :: rest => match m.leave es with
    | (m, []) => m.leaveAll rest
    | (m, left) => { m with stages := left :: rest }
/-- The array moves as far as the FIFOs let it (R146). -/
def Matrix.advance (m : Matrix) : Matrix := m.leaveAll m.stages
/-- The entries of one token enter the first stage, in row order. -/
def Matrix.enter (m : Matrix) (es : List ArrayEntry) : Matrix := { m with stages := m.stages ++ [es] }.advance
/-- Whether a row may enter: at most 34 stages hold rows (R151; log 26). -/
def Matrix.arrayRoom (m : Matrix) : Bool := (m.stages.filter fun es => es.any ArrayEntry.isRow).length < 34
/-- Whether some EOR has not been counted. -/
def Matrix.marked (m : Matrix) : Bool :=
  m.stages.any (fun es => es.contains .eor) || (List.range 32).any fun j => (SMap.get [] m.fifos j).contains .eor
/-- Whether every row that entered has reached its node, and every EOR is counted. -/
def Matrix.drained (m : Matrix) : Bool :=
  m.stages.isEmpty && (List.range 32).all fun j => (SMap.get [] m.fifos j).isEmpty

/-! ### The weight loader (R141) -/

/-- The byte of a bay column's weight store as the state numbers it. -/
def wsAddr (c off : Nat) : Nat := (dieOf c * 6 + colOf c) * 2 ^ 28 + off

/-- Where MLOAD reads: a tile of a neighbouring cell, or the weight store. -/
inductive WSrc where
  | tile (cell n : Nat)
  | store
  deriving DecidableEq, Repr

/-- The source of an MLOAD word: the neighbour must stand in the same graph (log 27). -/
def State.wSrc (s : State) (c : Nat) (src : BitVec 1) (dir : BitVec 2) (tile : BitVec 6) : Option WSrc :=
  if src == 1 then some .store
  else match neighbour c dir.toNat, s.graphAt c with
    | some n, some (_, g) => if g.holds n && kindOf n == 0 then some (.tile n tile.toNat) else none
    | _, _ => none

/-- Reads bytes of a weight source: none while the source waits for a refresh window (R161), or the offset of poison. -/
def State.wRead (s : State) (c : Nat) (w : WSrc) (off len : Nat) : Option (Except Nat Nat) :=
  match w with
  | .tile n t =>
    match (s.cell n).tilePoison t off len with
    | some o => some (.error o)
    | none => some (.ok ((s.cell n).tileNat t off len))
  | .store =>
    if (List.range 16).any fun g => s.mem.refresh.getLsbD g && off / 2 ^ 24 ≤ g && g ≤ (off + len - 1) / 2 ^ 24 then none
    else match poisonAt s.mem.wsPoison (wsAddr c off) len with
      | some o => some (.error o)
      | none => some (.ok (memNat s.mem.ws (wsAddr c off) len))

/-- The MLOAD port (R271) and its issuer. -/
def State.mlWho (s : State) (c : Nat) : Who :=
  { cell := c, span := ((s.cell c).block 23).span, port := 0x85, cls := .mtx }

/-- The bytes of a suppressed read as a number (R295, log 23). -/
def State.freeNat (s : State) (n : Nat) : Nat × State := (leNat (s.freeBytes n).1, (s.freeBytes n).2)

/-- Writes weight row k and its scale into the shadow plane (R141). -/
def State.putRow (s : State) (c k r sc : Nat) : State :=
  s.modMx c fun m => { m.setShadow { m.shadow with
    rows := SMap.set m.shadow.rows k (BitVec.ofNat 512 r)
    scale := if scaleBytes m.loadFmt.toNat == 0 then m.shadow.scale else SMap.set m.shadow.scale k (BitVec.ofNat 16 sc)
    fmt := m.loadFmt, mxm := m.loadMxm } with loadRow := k + 1 }

/-- Reads weight row k of the load in progress into the shadow plane (R141). The record of poison in the weight store bears tensor
0xFFFE and the model's number of the byte (log 96). -/
def State.loadRow (s : State) (c : Nat) (w : WSrc) (k : Nat) : State :=
  let m := s.mx c
  match m.load with
  | none => s
  | some (ref, coord) =>
    let f := m.loadFmt.toNat
    if s.suppressed (s.mlWho c) then
      let u := s.freeNat (rowBytes f)
      let v := u.2.freeNat (scaleBytes f)
      v.2.putRow c k u.1 v.1
    else match s.wRead c w (ref + k * rowBytes f) (rowBytes f),
        (if scaleBytes f == 0 then some (.ok 0) else s.wRead c w (coord + k * scaleBytes f) (scaleBytes f)) with
    | some (.ok r), some (.ok sc) => s.putRow c k r sc
    | some (.error o), _ | _, some (.error o) => s.portStop (s.mlWho c) .read (.bad 0x06 (mkVa 0xFFFE o))
    | _, _ => s

/-- The format of a suppressed load of a tile whose tag is no matrix format is free (R295, log 23). -/
def State.freeTag (s : State) (f : Nat) : Nat × State :=
  if fmtMatrix f then (f, s) else (6 + s.free.1.toNat % 9, s.free.2)

/-- A DATA token at mx.w opens a load, or an op-word fault (R141, R160). A suppressed load reads nothing that a check could
refuse (R295). -/
def State.openLoad (s : State) (c : Nat) (t : Token) (w : WSrc) (f : Nat) (skip : Bool) (size : Nat) : State :=
  let ref := (t.ref.extractLsb' 0 48).toNat
  let coord := t.coord.toNat
  let owned := match w, s.partOf c with
    | .tile .., _ => true
    | .store, some p => (List.range 16).all fun g =>
        let hit := fun (lo n : Nat) => n != 0 && lo / 2 ^ 24 ≤ g && g ≤ (lo + n - 1) / 2 ^ 24
        !(hit ref (32 * rowBytes f) || hit coord (32 * scaleBytes f)) || (s.part p).cfg.banks.getLsbD g
    | .store, none => false
  if t.ref.extractLsb' 48 16 != 0 || !fmtMatrix f || (!s.suppressed s.blkWho && (ref + 32 * rowBytes f > size
      || (scaleBytes f != 0 && coord + 32 * scaleBytes f > size) || !owned)) then s.blkOpFault
  else
    ((s.modBlk fun b => b.take 0 t).modMx c fun m =>
      { m.setShadow { m.shadow with state := 1 } with
        load := some (ref, coord), loadRow := 0, loadFmt := BitVec.ofNat 4 f, loadMxm := skip }).bump c 0x043 1

/-- MLOAD (R141): a token opens a load of one block, then one row loads per step; the last row is PLANE_FULL's. -/
def execMload (src : BitVec 1) (dir : BitVec 2) (tile : BitVec 6) (wfmt : BitVec 4) (mxm : BitVec 1) (s : State) : Out :=
  let c := s.focus.cell
  let m := s.mx c
  if s.portBusy c 0x85 then .next s
  else match s.wSrc c src dir tile with
    | none => .next (if m.load.isNone && (s.blk.head 0).isNone then s else s.blkOpFault)
    | some w =>
      if m.load.isSome then .next (if m.loadRow < 31 then s.loadRow c w m.loadRow else s)
      else match s.blk.head 0 with
        | none => .next s
        | some t =>
          if t.kind == 6 then .next s
          else if t.kind != 0 then
            let s := (s.modBlk fun b => b.take 0 t).bump c 0x043 1
            .next (if t.kind == 2 then s.modMx c fun m => { m with doneW := true } else s)
          else if m.shadow.state != 0 then .next s
          else match w with
            | .tile n k =>
              let x := s.cell n
              if s.suppressed s.blkWho then
                let u := s.freeTag (x.tile k).fmt.toNat
                .next (u.2.openLoad c t w u.1 (x.tile k).mxm (x.tile k).bytes)
              else if !x.tileReady k then .next s
              else .next (s.openLoad c t w (x.tile k).fmt.toNat (x.tile k).mxm (x.tile k).bytes)
            | .store => .next (s.openLoad c t w wfmt.toNat (mxm == 1) (2 ^ 28))

/-- PLANE_FULL (R143): the 32nd weight row is written and the shadow plane is FULL. -/
def execPlaneFull (cell : Nat) (s : State) : Out :=
  let m := s.mx cell
  if !s.cellLive cell || m.load.isNone || m.loadRow != 31 || s.portBusy cell 0x85 then .next s
  else match decodeOp ((s.cell cell).block 23).word with
    | some (.instr (.mload src dir tile _ _)) =>
      match s.wSrc cell src dir tile with
      | none => .next s
      | some w =>
        let s := s.loadRow cell w 31
        .next (if (s.mx cell).loadRow == 32 then
          s.modMx cell fun m => { m.setShadow { m.shadow with state := 2 } with load := none, loadRow := 0 } else s)
    | _ => .next s

/-! ### The plane switch and the row stream -/

/-- MSWAP (R142): tokens at mx.q are consumed; a DATA is a swap event under TRIG 3. -/
def execMswap (trig : BitVec 2) (s : State) : Out :=
  let c := s.focus.cell
  match s.blk.head 0 with
  | none => .next s
  | some t =>
    let s := (s.modBlk fun b => b.take 0 t).bump c 0x043 1
    .next (if t.kind == 0 && trig == 3 then s.modMx c fun m => { m with pend := true }
      else if t.kind == 2 then s.modMx c fun m => { m with doneQ := true } else s)

/-- TRIG of the cell's MSWAP word, if it has one. -/
def Cell.swapTrig (x : Cell) : Option (BitVec 2) :=
  match decodeOp (x.block 24).word with
  | some (.instr (.mswap t)) => some t
  | _ => none
/-- COUNT of the cell's ACCN word (R147). -/
def Cell.accCount (x : Cell) : Option Nat :=
  match decodeOp (x.block 26).word with
  | some (.accn n) => some n.toNat
  | _ => none

/-- A row of an activation token: none masked, some none void, else its values (R144, R145). -/
def actRow (f : Nat) (skip : Bool) (t : Token) (q : Nat) : Option (Option (List FVal)) :=
  let rb := rowBytes f
  let m := maskOf 2 t
  let on := fun byte => m.getLsbD ((q * rb + byte) / 4)
  if t.masked || (List.range (rb / 4)).all (fun g => !on (4 * g)) then none
  else
    let sc := t.ref.toNat / 2 ^ (8 * scaleBytes f * q) % 2 ^ (8 * scaleBytes f)
    match rowVals f skip (t.payload.toNat / 2 ^ (8 * rb * q) % 2 ^ (8 * rb)) sc with
    | none => some none
    | some vs => some (some ((vs.zip (List.range 32)).map fun v => if on (v.2 * rb / 32) then v.1 else .fin false 0 0))

/-- What a row at position p brings into the array (R144, R145): a void row only its mark, a masked row nothing. -/
def rowEntry (p : Nat) (ws : List (Option (List FVal))) : Option (Option (List FVal)) → List ArrayEntry
  | none => []
  | some none => [.void p]
  | some (some as) => [.row p ((List.range 32).map fun j => columnSum as ws j)]

/-- The n rows of an activation token at positions p, p + 1 ... -/
def rowEntries (f : Nat) (skip : Bool) (t : Token) (ws : List (Option (List FVal))) (p n : Nat) : List ArrayEntry :=
  (List.range n).flatMap fun q => rowEntry (p + q) ws (actRow f skip t q)

/-- A token's rows enter the array; the void rows (0x047) and the others (0x046) are counted (R322). A void weight block counts in
neither (log 114). -/
def State.enterRows (s : State) (c : Nat) (es : List ArrayEntry) : State :=
  let rows := (es.filter ArrayEntry.isRow).length
  ((s.modMx c fun m => m.enter es).bump c 0x047 (es.length - rows)).bump c 0x046 rows

/-- MSTREAM (R144): DATA, SOT and EOR at mx.x. EOT and DONE wait for MATRIX_EOT, CFG for CFG_FIRING. -/
def execMstream (afmt : BitVec 4) (mxm : BitVec 1) (s : State) : Out :=
  let c := s.focus.cell
  let m := s.mx c
  let f := afmt.toNat
  let trig := (s.cell c).swapTrig
  match s.blk.head 0 with
  | none => .next s
  | some t =>
    let took := (s.modBlk fun b => b.take 0 t).bump c 0x043 1
    if t.kind == 0 then
      let n := 64 / rowBytes f
      let p := (t.coord.extractLsb' 0 5).toNat
      if t.coord.extractLsb' 5 27 != 0 || p % n != 0 then .next (s.blkTokFault t)
      else if (m.pend || m.active.state == 0) && m.shadow.state != 2 then .next s
      else
        let swap := m.pend || m.active.state == 0
        let es := rowEntries f (mxm == 1) t (if swap then m.swap else m).active.vals p n
        if es.any ArrayEntry.isRow && !m.arrayRoom then .next s
        else .next ((if swap then took.modMx c Matrix.swap else took).enterRows c es)
    else if t.kind == 5 then
      .next (took.modMx c fun m => { m.enter [.eor] with pend := m.pend || trig == some 1 || trig == some 2 })
    else if t.kind == 3 then
      if m.marked || !((s.cell c).block 27).outFree then .next s
      else .next ((took.modBlock c 27 fun b => b.emit t).modMx c fun m =>
        { m with pend := m.pend || trig == some 0 || trig == some 2 })
    else if t.kind == 1 then .next (s.blkTokFault t)
    else .next s

/-! ### The accumulator nodes -/

/-- A released value as MSCALE scales it (R149). -/
def scaleVal (k : SMap (BitVec 32)) (mk : BitVec 3) (be : BitVec 1) (bk : BitVec 3) (v : BitVec 32) : BitVec 32 :=
  f32fma v (SMap.get 0 k mk.toNat) (if be == 1 then SMap.get 0 k bk.toNat else 0)

/-- The 64 tokens of a release (R147). -/
def releaseToks (m : Matrix) (f : BitVec 32 → BitVec 32) : List Token :=
  (List.range 32).flatMap fun p => (List.range 2).map fun h =>
    let t : Token := { kind := 0, pl := true, coord := BitVec.ofNat 32 (p + h * 32 + m.rc.toNat * 64) }
    if m.added.getLsbD p then
      { t with lmask := 0xFFFF, payload := BitVec.ofNat 512 (joinLanes 32 ((List.range 16).map fun i =>
          (f (SMap.get 0 m.nodes (32 * (16 * h + i) + p))).toNat)) }
    else { t with masked := true }

/-- ACCUMULATOR_RELEASE (R147): 64 scaled tokens at mx.o; the nodes, ADDED and EC clear. A D-cell without an MSCALE word
raises an op-word fault (log 27). -/
def State.releaseNodes (s : State) (c : Nat) : State :=
  let b := (s.cell c).block 27
  match decodeOp b.word with
  | some (.mscale k1 be k2) =>
    (s.modBlock c 27 fun b => { b with out := b.out ++ releaseToks (s.mx c) (scaleVal b.k k1 be k2) }).modMx c fun m =>
      { m with nodes := [], added := 0, ec := 0, rc := m.rc + 1 }
  | _ => s.opFault c ((s.cell c).block 25).span 0x50 b.word 0

/-- Whether the nodes release: tokens of a release still stand at mx.o. -/
def State.releasing (s : State) (c : Nat) : Bool := ((s.cell c).block 27).out.any fun t => t.kind == 0

/-- The node takes the oldest entry of its column: a sum is added at its position, a void row adds nothing, and both set
ADDED (R145, R146). An EOR stays for EOR_COUNTED. -/
def Matrix.intake (m : Matrix) (node : Nat) : Matrix :=
  match SMap.get [] m.fifos node with
  | .sum p v :: rest => ({ m with
      fifos := SMap.set m.fifos node rest
      nodes := SMap.set m.nodes (32 * node + p) (f32add (SMap.get 0 m.nodes (32 * node + p)) v)
      added := m.added ||| (1#32 <<< p) } : Matrix).advance
  | .void p :: rest => { m with fifos := SMap.set m.fifos node rest, added := m.added ||| (1#32 <<< p) }
  | _ => m

/-- NODE_INTAKE (R146): on each tick on which the node is not releasing. -/
def execNodeIntake (cell node : Nat) (s : State) : Out :=
  if node ≥ 32 || !s.cellLive cell || s.releasing cell then .next s
  else .next (s.modMx cell fun m => m.intake node)

/-- Whether the EOR next to be counted has no earlier row left before any node. -/
def Matrix.eorNext (m : Matrix) : Bool := (List.range 32).all fun j => (SMap.get [] m.fifos j).head? == some .eor
/-- The EOR leaves the columns and counts. -/
def Matrix.countEor (m : Matrix) : Matrix :=
  { m with fifos := (List.range 32).foldl (fun q j => SMap.set q j ((SMap.get [] m.fifos j).drop 1)) m.fifos, ec := m.ec + 1 }

/-- EOR_COUNTED (R147): every row that entered before the EOR has reached its node; at COUNT the nodes release. -/
def execEorCounted (cell : Nat) (s : State) : Out :=
  if !s.cellLive cell || !(s.mx cell).eorNext then .next s
  else match (s.cell cell).accCount with
    | none => .next (s.opFault cell ((s.cell cell).block 25).span 0x50 ((s.cell cell).block 26).word 0)
    | some n =>
      let s := s.modMx cell Matrix.countEor
      .next (if n ≤ (s.mx cell).ec.toNat then s.releaseNodes cell else s)

/-- The effect of EOT or DONE at mx.x: the nodes release if anything was added, EC and PEND clear (R148). -/
def State.matrixEnd (s : State) (c : Nat) : State :=
  let s := if (s.mx c).added != 0 then s.releaseNodes c else s.modMx c fun m => { m with ec := 0 }
  s.modMx c fun m => { m with pend := false }

/-- MATRIX_EOT (R148): EOT or DONE at mx.x, once every earlier row has reached its node. A DONE has its effect at once and
is forwarded once DONE has also arrived at mx.w and mx.q, where they are connected (R30). -/
def execMatrixEot (cell : Nat) (s : State) : Out :=
  let x := s.cell cell
  let m := x.mx
  match (x.block 25).head 0 with
  | none => .next s
  | some t =>
    let doneOk := t.kind != 2 || ((m.doneW || !x.inBound 0x51) && (m.doneQ || !x.inBound 0x52))
    if !s.cellLive cell || !(t.kind == 4 || t.kind == 2) || !m.drained || !(x.block 27).outFree then .next s
    else
      let s := if m.doneX then s else s.matrixEnd cell
      .next (if !doneOk then s.modMx cell fun m => { m with doneX := true }
        else (((s.modBlock cell 25 fun b => b.take 0 t).modBlock cell 27 fun b => b.emit t).modMx cell fun m =>
          { m with doneX := false }).bump cell 0x043 1)

end Sys2Proof.Machine
end

