-- ==== Sys2Proof/Machine/MergeUnit.lean ====
section
/-! DEFINITION. Merge units: the ISECT and UNION words (R244-R248). -/

namespace Sys2Proof.Machine

/-- The fields of a merge word (R244); `union` is UNION, whose seek fields are 0. -/
structure MergeWord where
  union : Bool
  osel  : BitVec 2
  pay   : BitVec 2
  ska   : Bool := false
  skb   : Bool := false
  thr   : Nat := 0
  deriving DecidableEq, Repr

/-- The output of a merge step (R246): the DATA of each side, none for an absent side of UNION. -/
def mergeData (w : MergeWord) (c : BitVec 32) (a b : Option Token) : Token :=
  let ref := fun (t : Option Token) => (t.map (·.ref)).getD (BitVec.allOnes 64)
  let r : Token := { kind := 0, coord := c, ref := if w.osel == 0 then ref a else ref b }
  let side := fun (t : Option Token) => match t with
    | some t => if t.pl then { r with pl := true, payload := t.payload, lmask := t.lmask } else r
    | none => r
  let lane := fun (t : Option Token) => match t with
    | some t => if t.pl then t.payload.toNat % 2 ^ 32 else 0
    | none => 0
  let bit := fun (t : Option Token) => match t with
    | some t => t.pl && t.lmask.getLsbD 0
    | none => false
  if w.pay == 0 then r
  else if w.pay == 1 then side a
  else if w.pay == 2 then side b
  else { r with
    pl := true, payload := BitVec.ofNat 512 (lane a + lane b * 2 ^ 32)
    lmask := BitVec.ofNat 16 ((bit a).toNat + 2 * (bit b).toNat) }

/-- The merge unit's state in a cell. -/
def State.mg (s : State) : Merge := (s.cell s.focus.cell).s.mg
def State.setMg (s : State) (g : Merge) : State :=
  s.modCell s.focus.cell fun x => { x with s := { x.s with mg := g } }

/-- Where a back output of the focused merge unit leads: 0 for m.ka, 1 for m.kb. -/
def State.backDest (s : State) (side : Nat) : Option OutDest := s.outDest s.focus.cell (0x30 + side)
/-- Whether a seek on each of the back outputs given finds room in its first router back buffer (R212, R247); a seek that has not
entered it holds a place. -/
def State.backRoom (s : State) (sides : List Nat) : Bool :=
  let held := fun (k : Nat) => !(SMap.get [] s.blk.back k).isEmpty
  sides.all fun k => !held k && match s.backDest k with
    | some (.port n vc) =>
      let more := ([0, 1].filter fun j => s.backDest j == s.backDest k && (sides.contains j || held j)).length
      (SMap.get [] (s.cell s.focus.cell).router.inb (rIdx n vc)).length + more ≤ inbDepth s.focus.cell n vc
    | some d => s.destRoom s.focus.cell d
    | none => true
/-- A SEEK sent on a back output. -/
def State.sendSeek (s : State) (side : Nat) (c : BitVec 32) : State :=
  (s.modBlk fun b => { b with back := SMap.set b.back side (SMap.get [] b.back side ++ [{ kind := 8, coord := c }]) }).bump
    s.focus.cell 0x045 1

/-- Whether a DATA breaks the order within its fibre (R248). -/
def badOrder (last : Option (BitVec 32)) (t : Token) : Bool :=
  t.kind == 0 && (t.coord == BitVec.allOnes 32 || match last with
    | some l => t.coord.toNat ≤ l.toNat
    | none => false)

/-- The merge state after a side's DATA is taken. -/
def Merge.took (g : Merge) (side : Nat) (c : BitVec 32) : Merge :=
  if side == 0 then { g with lastA := some c, fibre := true } else { g with lastB := some c, fibre := true }
/-- The merge state at the start of a fibre. -/
def Merge.fresh (g : Merge) : Merge := { g with lastA := none, lastB := none, seekA := 0, seekB := 0, fibre := false }
def Merge.mark (g : Merge) (side : Nat) : BitVec 32 := if side == 0 then g.seekA else g.seekB
def Merge.setMark (g : Merge) (side : Nat) (c : BitVec 32) : Merge :=
  if side == 0 then { g with seekA := c } else { g with seekB := c }

/-- A lone DATA of one side is discarded (ISECT), with a seek to the other side's coordinate or past the end (R247). -/
def State.mergeDrop (s : State) (w : MergeWord) (side : Nat) (t : Token) (target : BitVec 32) (past : Bool) : State :=
  let g := s.mg.took side t.coord
  let sk := if side == 0 then w.ska else w.skb
  let want := sk && (if past then g.mark side != BitVec.allOnes 32
    else (g.mark side).toNat < target.toNat && 2 ^ w.thr ≤ target.toNat - t.coord.toNat)
  let s := (s.modBlk fun b => b.take side t).bump s.focus.cell 0x044 1
  if want && s.backRoom [side] then (s.sendSeek side target).setMg (g.setMark side target) else s.setMg g

/-- A lone DATA of one side is emitted (UNION). -/
def State.mergeLone (s : State) (w : MergeWord) (side : Nat) (t : Token) : State :=
  if !s.blk.outFree then s
  else
    let o := if side == 0 then mergeData w t.coord (some t) none else mergeData w t.coord none (some t)
    ((s.modBlk fun b => (b.take side t).emit o).setMg (s.mg.took side t.coord)).bump s.focus.cell 0x044 1

/-- Both heads are taken and one token emitted; STOPs bring the releases (R245, R247). -/
def State.mergeBoth (s : State) (w : MergeWord) (a b o : Token) : State :=
  let stop := a.kind == 1
  let seeks := (if w.ska then [0] else []) ++ if w.skb then [1] else []
  if !s.blk.outFree || (stop && !s.backRoom seeks) then s
  else
    let s := (s.modBlk fun k => ((k.take 0 a).take 1 b).emit o).bump s.focus.cell 0x044 1
    let s := if stop && w.ska then s.sendSeek 0 0 else s
    let s := if stop && w.skb then s.sendSeek 1 0 else s
    if a.kind == 0 then s.setMg ((s.mg.took 0 a.coord).took 1 b.coord)
    else if a.kind == 5 then s
    else s.setMg s.mg.fresh

/-- A step of the merge unit (R245). -/
def State.mergeStep (s : State) (w : MergeWord) : Out :=
  let k := s.blk
  match k.head 0, k.head 1 with
  | some a, some b =>
    if a.kind == 6 then .next s
    else if (a.kind == 0 || a.kind == 1) && k.span.isNone then .next (s.blkTokFault a)
    else if (b.kind == 0 || b.kind == 1) && k.span.isNone then .next (s.blkTokFault b)
    else if badOrder s.mg.lastA a then .next (s.blkTokFault a)
    else if badOrder s.mg.lastB b then .next (s.blkTokFault b)
    else if a.kind == 0 && b.kind == 0 then
      if a.coord == b.coord then .next (s.mergeBoth w a b (mergeData w a.coord (some a) (some b)))
      else if a.coord.toNat < b.coord.toNat then
        .next (if w.union then s.mergeLone w 0 a else s.mergeDrop w 0 a b.coord false)
      else .next (if w.union then s.mergeLone w 1 b else s.mergeDrop w 1 b a.coord false)
    else if a.kind == 0 && b.kind == 1 then
      .next (if w.union then s.mergeLone w 0 a else s.mergeDrop w 0 a (BitVec.allOnes 32) true)
    else if a.kind == 1 && b.kind == 0 then
      .next (if w.union then s.mergeLone w 1 b else s.mergeDrop w 1 b (BitVec.allOnes 32) true)
    else if a.kind == 1 && b.kind == 1 then
      (if a.level == b.level then .next (s.mergeBoth w a b (tkStop a.level)) else .next (s.blkTokFault b))
    else if a.kind == b.kind && (a.kind == 2 || a.kind == 5 || a.ref == b.ref) then .next (s.mergeBoth w a b a)
    else .next (s.blkTokFault (if a.kind == 0 || a.kind == 1 then b else a))
  | _, _ => .next s

/-- ISECT (R244-R248). -/
def execIsect (osel pay : BitVec 2) (ska skb : BitVec 1) (thr : BitVec 5) (s : State) : Out :=
  s.mergeStep { union := false, osel := osel, pay := pay, ska := ska == 1, skb := skb == 1, thr := thr.toNat }
/-- UNION (R244-R248). -/
def execUnion (osel pay : BitVec 2) (s : State) : Out := s.mergeStep { union := true, osel := osel, pay := pay }

end Sys2Proof.Machine
end

