-- ==== Sys2Proof/Machine/ReduceUnit.lean ====
section
/-! DEFINITION. Reducers: the REDUCE words (R251-R254). One step takes a token (or a pair) or emits one. -/

namespace Sys2Proof.Machine

/-- The folding forms. -/
inductive RedForm where
  | sum | min | max | or | topk | wsum
  deriving DecidableEq, Repr

/-- The fields of a REDUCE word (R251). -/
structure RedWord where
  form  : RedForm
  f32   : Bool := false
  sat   : Bool := false
  vec   : Bool := false
  vsrc  : Bool := false
  wsrc  : Bool := false
  grain : Bool := false
  zeros : Bool := false
  k     : Nat := 0
  deriving DecidableEq, Repr

/-- The reducer of a unit: 21 red0, 22 red1. -/
def Cell.reducer (x : Cell) (u : Nat) : Reduce := if u == 21 then x.s.red0 else x.s.red1
def State.red (s : State) : Reduce := (s.cell s.focus.cell).reducer s.focus.unit
def State.setRed (s : State) (r : Reduce) : State :=
  s.modCell s.focus.cell fun x => { x with s := if s.focus.unit == 21 then { x.s with red0 := r } else { x.s with red1 := r } }

/-- Whether a DATA contributes (R252). -/
def contributes (w : RedWord) (t : Token) : Bool :=
  !t.masked && !t.absent && (!w.vsrc || (t.pl && t.lmask.getLsbD 0)) && (!w.wsrc || (t.pl && t.lmask.getLsbD 1))

/-- A lane of a payload, and the scalar value of a token (R251). -/
def lane32 (x : BitVec 512) (i : Nat) : BitVec 32 := x.extractLsb' (32 * i) 32
def scalarOf (w : RedWord) (t : Token) : BitVec 32 := if w.vsrc then lane32 t.payload 0 else t.ref.setWidth 32

/-- One fold (R252): `acc` is none where nothing was folded yet. -/
def foldLane (w : RedWord) (acc : Option (BitVec 32)) (v wt : BitVec 32) : BitVec 32 :=
  let a := acc.getD 0
  let i := fun (x : Int) => BitVec.ofNat 32 (fitInt 32 w.sat x)
  match w.form with
  | .sum => if w.f32 then f32add a v else i (a.toInt + v.toInt)
  | .wsum => if w.f32 then f32fma wt v a else i (a.toInt + wt.toInt * v.toInt)
  | .or => a ||| v
  | .min =>
    match acc with
    | none => v
    | some a =>
      if w.f32 then BitVec.ofNat 32 (fF32.round (FVal.min (fF32.dec a.toNat) (fF32.dec v.toNat)) 0 false)
      else if v.slt a then v else a
  | .max =>
    match acc with
    | none => v
    | some a =>
      if w.f32 then BitVec.ofNat 32 (fF32.round (FVal.max (fF32.dec a.toNat) (fF32.dec v.toNat)) 0 false)
      else if a.slt v then v else a
  | .topk => v

/-- The rank key of a value: higher ranks first (R254). -/
def rankKey (f32 : Bool) (v : BitVec 32) : Int :=
  if f32 then
    (if fF32.dec v.toNat == .nan then -(2 ^ 40)
     else if v.getLsbD 31 then -((v.setWidth 31).toNat : Int) - 1 else (v.toNat : Int))
  else v.toInt
/-- A (coordinate, value) put in rank order, after its equals of the same coordinate (R254). -/
def rankInsert (f32 : Bool) (c v : BitVec 32) : List (BitVec 32 × BitVec 32) → List (BitVec 32 × BitVec 32)
  | [] => [(c, v)]
  | (d, u) :: l =>
    if rankKey f32 v > rankKey f32 u || (rankKey f32 v == rankKey f32 u && c.toNat < d.toNat) then (c, v) :: (d, u) :: l
    else (d, u) :: rankInsert f32 c v l

/-- A reducer with a contributing DATA folded in. -/
def Reduce.fold (r : Reduce) (w : RedWord) (t : Token) (wt : BitVec 32) : Reduce :=
  if w.vec then
    let m := maskOf 2 t
    let acc := (List.range 16).foldl (fun n i =>
      let old := if r.mask.getLsbD i then some (lane32 r.acc i) else none
      let x := if m.getLsbD i then foldLane w old (lane32 t.payload i) wt else lane32 r.acc i
      n + x.toNat * 2 ^ (32 * i)) 0
    { r with acc := BitVec.ofNat 512 acc, mask := r.mask ||| m, filled := true }
  else
    let old := if r.filled then some (lane32 r.acc 0) else none
    { r with acc := (foldLane w old (scalarOf w t) wt).zeroExtend 512, filled := true }

/-- A result (R253). -/
def Reduce.result (r : Reduce) (w : RedWord) (coord : BitVec 32) : Token :=
  if w.vec then { kind := 0, coord := coord, pl := true, payload := r.acc, lmask := r.mask }
  else { kind := 0, coord := coord, ref := (lane32 r.acc 0).zeroExtend 64 }
/-- An explicit zero (R253). -/
def zeroResult (w : RedWord) (coord : BitVec 32) : Token :=
  if w.vec then { kind := 0, coord := coord, zero := true, pl := true, lmask := 0xFFFF } else { kind := 0, coord := coord, zero := true }

/-- The accumulator emptied. -/
def Reduce.clear (r : Reduce) : Reduce := { r with acc := 0, mask := 0, filled := false, any := false, fibre := false, rank := [] }

/-- The close of the open fibre or run: the tokens emitted and the reducer after (R253, R254). -/
def Reduce.close (r : Reduce) (w : RedWord) : List Token × Reduce :=
  if w.form == .topk then
    (r.rank.map fun e => { kind := 0, coord := e.1, ref := e.2.zeroExtend 64 }, r.clear)
  else if w.grain then (if r.filled then [r.result w r.run] else [], r.clear)
  else
    ((if r.filled then [r.result w r.ordinal] else if w.zeros then [zeroResult w r.ordinal] else []),
      { r.clear with ordinal := r.ordinal + 1 })

/-- A reducer after a token at redN.v (R253), with what it owes. A DATA that contributes nothing has arrived all the same
(log 111). -/
def Reduce.after (r : Reduce) (w : RedWord) (t : Token) (wt : BitVec 32) : Reduce :=
  if t.kind == 0 then
    let r := { r with any := true, fibre := true }
    if !contributes w t then r
    else if w.form == .topk then { r with rank := (rankInsert w.f32 t.coord (scalarOf w t) r.rank).take w.k }
    else if w.grain then
      if r.filled && r.run != t.coord then
        let q : Reduce := { r.clear with any := true, fibre := true, run := t.coord, owed := [r.result w r.run] }
        q.fold w t wt
      else Reduce.fold { r with run := t.coord } w t wt
    else r.fold w t wt
  else if t.kind == 1 then
    let (out, r) := r.close w
    if w.form == .topk || w.grain then { r with owed := out ++ [t] }
    else if t.level == 0 then { r with owed := out }
    else { r with owed := out ++ [tkStop (t.level - 1)], ordinal := 0 }
  else if t.kind == 3 then { r.clear with ordinal := 0, owed := [t] }
  else if t.kind == 5 then { r with owed := [t] }
  else if w.form == .topk || w.grain || r.any then
    let (out, r) := r.close w
    { r with owed := out ++ [t] }
  else { r with owed := [t] }

/-- A step of a reducer (R251-R254). A pair taken at redN.v and redN.w counts once (R322, log 114). -/
def State.redStep (s : State) (w : RedWord) : Out :=
  let b := s.blk
  let r := s.red
  let uses := w.form == .wsum && !w.wsrc
  match r.owed with
  | t :: rest => .next (if b.outFree then (s.setRed { r with owed := rest }).modBlk fun b => b.emit t else s)
  | [] =>
    match b.head 0 with
    | none => .next s
    | some t =>
      let go := fun (wt : BitVec 32) (both : Bool) =>
        Host.Outcome.next (((s.setRed (r.after w t wt)).modBlk fun b =>
          let b := b.take 0 t
          if both then b.pop 1 else b).bump s.focus.cell 0x044 1)
      if t.kind == 6 then .next s
      else if (t.kind == 0 || t.kind == 1) && b.span.isNone then .next (s.blkTokFault t)
      else if uses then
        match b.head 1 with
        | none => .next s
        | some u =>
          if (t.kind == 0 && u.kind == 0) || (t.kind != 0 && ctlPair t u) then go (u.ref.setWidth 32) true
          else .next (s.blkTokFault u)
      else go (if w.wsrc then lane32 t.payload 1 else 0) false

/-- REDUCE.SUM (R252). -/
def execReduceSum (f32 sat vec vsrc grain zeros : BitVec 1) (s : State) : Out :=
  s.redStep { form := .sum, f32 := f32 == 1, sat := sat == 1, vec := vec == 1, vsrc := vsrc == 1, grain := grain == 1, zeros := zeros == 1 }
/-- REDUCE.MIN (R252). -/
def execReduceMin (f32 vec vsrc grain zeros : BitVec 1) (s : State) : Out :=
  s.redStep { form := .min, f32 := f32 == 1, vec := vec == 1, vsrc := vsrc == 1, grain := grain == 1, zeros := zeros == 1 }
/-- REDUCE.MAX (R252). -/
def execReduceMax (f32 vec vsrc grain zeros : BitVec 1) (s : State) : Out :=
  s.redStep { form := .max, f32 := f32 == 1, vec := vec == 1, vsrc := vsrc == 1, grain := grain == 1, zeros := zeros == 1 }
/-- REDUCE.OR (R252). -/
def execReduceOr (vec vsrc grain zeros : BitVec 1) (s : State) : Out :=
  s.redStep { form := .or, vec := vec == 1, vsrc := vsrc == 1, grain := grain == 1, zeros := zeros == 1 }
/-- REDUCE.TOPK (R254). -/
def execReduceTopk (f32 vsrc : BitVec 1) (topk : BitVec 9) (s : State) : Out :=
  s.redStep { form := .topk, f32 := f32 == 1, vsrc := vsrc == 1, k := topk.toNat }
/-- REDUCE.WSUM (R252). -/
def execReduceWsum (f32 sat vec vsrc wsrc grain zeros : BitVec 1) (s : State) : Out :=
  s.redStep
    { form := .wsum, f32 := f32 == 1, sat := sat == 1, vec := vec == 1, vsrc := vsrc == 1, wsrc := wsrc == 1
      grain := grain == 1, zeros := zeros == 1 }

end Sys2Proof.Machine
end

