-- ==== Sys2Proof/Machine/Repeat.lean ====
section
/-! DEFINITION. The repeater: the REPT word (R249, R250). One step takes a token at each input at most, or emits one. -/

namespace Sys2Proof.Machine

def State.rp (s : State) : Rept := (s.cell s.focus.cell).s.rep
def State.setRp (s : State) (r : Rept) : State := s.modCell s.focus.cell fun x => { x with s := { x.s with rep := r } }

/-- A stored entry of a token, and the token of an entry (R249). -/
def repEntry (t : Token) : RepEntry :=
  { coord := t.coord, ref := t.ref, pl := t.pl, lane := if t.pl then t.payload.setWidth 32 else 0,
    mask0 := t.lmask.getLsbD 0 }
def repToken (e : RepEntry) : Token :=
  { kind := 0, coord := e.coord, ref := e.ref, pl := e.pl, payload := if e.pl then e.lane.zeroExtend 512 else 0,
    lmask := if e.mask0 then 1 else 0 }

/-- A step of a load at the head of rpt.i (R250). What is stored is owed to the replay at once, after a pending STOP(0); at the
end of the load the driver DATA is taken. -/
def State.repLoad (s : State) (r : Rept) : State :=
  match s.blk.head 0 with
  | none => s
  | some t =>
    if t.kind == 0 then
      if s.blk.span.isNone then s.blkTokFault t
      else if r.store.length ≥ 1024 then s.blkOpFault
      else (s.modBlk fun b => b.pop 0).setRp { r with
        store := r.store ++ [repEntry t], replay := r.replay ++ [repEntry t], loading := true
        owed := if r.pend then [tkStop 0] else [], pend := false }
    else if t.kind == 1 then
      if s.blk.span.isNone then s.blkTokFault t
      else if r.loading then
        (s.modBlk fun b => (b.pop 0).pop 1).setRp { r with loaded := true, loading := false, playing := true }
      else (s.modBlk fun b => b.pop 0).setRp { r with loaded := true }
    else if r.loading then (if t.kind == 6 then s.blkOpFault else s.blkTokFault t)
    else if t.kind == 2 || t.kind == 4 then s.setRp { r with loaded := true }
    else if t.kind == 6 then s
    else s.blkTokFault t

/-- The driver's EOT or DONE, no STOP(0) pending: tokens of rpt.i are discarded up to its like, and the two leave as one (R250,
R39). -/
def State.repEnd (s : State) (r : Rept) (d : Token) : State :=
  match s.blk.head 0 with
  | none => s
  | some t =>
    if t.kind == d.kind then
      if d.kind == 4 && t.ref != d.ref then s.blkTokFault t
      else
        (s.modBlk fun b => (b.pop 0).take 1 d).setRp { r with
          owed := [d], loaded := false, store := [], loading := false }
    else s.modBlk fun b => b.pop 0

/-- A step of the repeater (R250). While SOT stands at rpt.r, a token at rpt.i that is neither its SOT nor a CFG is a token-kind
fault (log 100). -/
def State.repStep (s : State) (newat : Nat) (span : Bool) : Out :=
  let b := s.blk
  let r := s.rp
  match r.owed with
  | t :: rest => .next (if b.outFree then (s.setRp { r with owed := rest }).modBlk fun b => b.emit t else s)
  | [] =>
    if r.playing then
      match r.replay with
      | e :: rest => .next (if b.outFree then (s.setRp { r with replay := rest }).modBlk fun b => b.emit (repToken e) else s)
      | [] => .next (s.setRp { r with playing := false, pend := true })
    else match b.head 1 with
      | none => .next s
      | some d =>
        if (d.kind == 0 || d.kind == 1) && b.span.isNone then .next (s.blkTokFault d)
        else if d.kind == 0 then
          if !r.loaded then
            match r.replay with
            | e :: rest =>
              .next (if b.outFree then (s.setRp { r with replay := rest }).modBlk fun b => b.emit (repToken e) else s.repLoad r)
            | [] => .next (s.repLoad r)
          else .next ((s.modBlk fun b => b.pop 1).setRp { r with
            owed := if r.pend then [tkStop 0] else [], pend := false, playing := true, replay := r.store })
        else if d.kind == 1 then
          if d.level == 7 then .next (s.blkTokFault d)
          else
            let ends := !span && newat ≤ d.level.toNat
            .next ((s.modBlk fun b => b.pop 1).setRp { r with
              owed := [tkStop (d.level + 1)], pend := false, loaded := r.loaded && !ends,
              store := if ends then [] else r.store })
        else if d.kind == 5 then
          .next ((s.modBlk fun b => b.pop 1).setRp { r with owed := (if r.pend then [tkStop 0] else []) ++ [d], pend := false })
        else if d.kind == 3 then
          match b.head 0 with
          | none => .next s
          | some t =>
            if t.kind == 6 then .next s
            else if t.kind == 3 && t.ref == d.ref then
              .next ((s.modBlk fun b => (b.pop 0).take 1 d).setRp { r with
                owed := [d], loaded := false, store := [], loading := false })
            else .next (s.blkTokFault t)
        else if d.kind == 4 || d.kind == 2 then
          .next (if r.pend then s.setRp { r with owed := [tkStop 0], pend := false } else s.repEnd r d)
        else .next (s.blkTokFault d)

/-- REPT (R249, R250). -/
def execRept (newat : BitVec 3) (span : BitVec 1) (s : State) : Out := s.repStep newat.toNat (span == 1)

end Sys2Proof.Machine
end

