-- ==== Sys2Proof/Machine/Cfg.lean ====
section
/-! DEFINITION. Configuration in band (R40-R42): CFG tokens at elements, stream blocks (R236) and matrix engines (R150). -/

namespace Sys2Proof.Machine

/-- Whether a word is an operation word of a stream block or matrix engine, by its unit number (R71, R234, R138). -/
def unitWordOk (u : Nat) (w : BitVec 32) : Bool :=
  match decodeOp w with
  | some (.accn _) => u == 26
  | some (.mscale ..) => u == 27
  | some (.instr i) =>
    match i with
    | .scanD .. | .scanC .. | .scanB .. => u == 16 || u == 17
    | .lwriteD .. | .lwriteC .. | .lwriteB .. => u == 18
    | .isect .. | .union .. => u == 19
    | .rept .. => u == 20
    | .reduceSum .. | .reduceWsum .. | .reduceOr .. | .reduceMin .. | .reduceMax .. | .reduceTopk .. =>
      u == 21 || u == 22
    | .mload .. => u == 23
    | .mswap .. => u == 24
    | .mstream .. => u == 25
    | _ => false
  | none => false

/-- A CFG with PASS 0 at an element writes its item (R41); none when that is an op-word fault. -/
def elemInstall (c : Nat) (x : Elem) (t : Token) : Option Elem :=
  let v := t.ref.extractLsb' 0 32
  if cfgItem t == 0 then
    match elemInstr v with
    | some i => if elemWordOk c i then some { x with word := v } else none
    | none => none
  else if cfgItem t ≤ 8 then some { x with k := SMap.set x.k (cfgItem t - 1) v } else none

/-- The same at a stream block or matrix engine; `consts` tells whether it holds constants (R150). -/
def blockInstall (u : Nat) (consts : Bool) (b : Block) (t : Token) : Option Block :=
  let v := t.ref.extractLsb' 0 32
  if cfgItem t == 0 then (if unitWordOk u v then some { b with word := v } else none)
  else if cfgItem t ≤ 8 && consts then some { b with k := SMap.set b.k (cfgItem t - 1) v } else none

/-- The word in the record of a CFG that cannot be installed (R340): the word that it would write, or for another item the
unit's own. -/
def cfgBadWord (w : BitVec 32) (t : Token) : BitVec 32 := if cfgItem t == 0 then t.ref.extractLsb' 0 32 else w

/-- A CFG at in0 of an element (R41): it is passed on to DSTA, or installed; at a sink it is progress (R323). -/
def State.elemCfg (s : State) (c e : Nat) (t : Token) : State :=
  let x := (s.cell c).elem e
  let bad := s.opFault c x.span (3 * e) x.word (cfgItem t)
  let count := fun (s : State) => (s.bump c 0x043 1).sinkToken c e t
  if cfgPass t != 0 then
    match elemInstr x.word with
    | none => bad
    | some i =>
      let d := (instrDests i).1
      if d == 0x3F then bad
      else if instrStage i ≤ x.out.length then s
      else count (s.modCell c fun y => y.setElem e { x with in0 := none, out := x.out ++ [(cfgDown t 1, [d])] })
  else match elemInstall c { x with in0 := none } t with
    | none => s.opFault c x.span (3 * e) (cfgBadWord x.word t) (cfgItem t)
    | some x' => count (s.modCell c fun y => y.setElem e x')

/-- When a stream block takes a CFG from its port 0 (R236). -/
inductive CfgWhen where
  | now
  | wait
  | fault
  deriving DecidableEq, Repr

/-- Whether a stream block takes a CFG now (R236). A repeater is about to load while its store is not loaded and a DATA, or
the SOT before the first load, heads its driver. -/
def State.cfgWhen (s : State) (c u : Nat) : CfgWhen :=
  let x := s.cell c
  if u == 16 || u == 17 then
    let k := if u == 16 then x.m.sc0 else x.m.sc1
    if k.active || !k.owed.isEmpty then .wait else .now
  else if u == 18 then (if x.m.lw.open_ then .fault else .now)
  else if u == 19 then (if x.s.mg.fibre then .fault else .now)
  else if u == 20 then
    let r := x.s.rep
    let near := match (x.block 20).head 1 with
      | some d => d.kind == 0 || d.kind == 3
      | none => false
    if r.loading then .fault else if r.loaded || r.playing || !r.owed.isEmpty || !near then .wait else .now
  else
    let r := x.reducer u
    if r.fibre then .fault else if !r.owed.isEmpty then .wait else .now

/-- Whether a repeater discards the tokens of rpt.i: its driver stands at EOT or DONE, and what was to be emitted before, the
replay and a pending STOP(0), is out (R250). -/
def State.repEnds (s : State) (c : Nat) : Bool :=
  let r := (s.cell c).s.rep
  match ((s.cell c).block 20).head 1 with
  | some d => (d.kind == 4 || d.kind == 2) && !r.playing && !r.pend && r.owed.isEmpty
  | none => false

/-- Whether a CFG at port 0 waits while the block goes on under its word (R150, R236). -/
def State.cfgWaits (s : State) (c u : Nat) : Bool :=
  if u == 23 then (s.cell c).mx.load.isSome
  else if u < 23 then (match s.cfgWhen c u with | .wait => !(u == 20 && s.repEnds c) | _ => false)
  else false

/-- A CFG at port 0 of a stream block (R236). A repeater whose driver stands at EOT or DONE discards it (R250). -/
def State.blockCfg (s : State) (c u : Nat) (t : Token) : State :=
  let b := (s.cell c).block u
  let bad := s.opFault c b.span (blockPort u) b.word (cfgItem t)
  let took := fun (s : State) =>
    let s := s.modBlock c u fun b => b.pop 0
    if u == 18 then s.sinkToken c 18 t else if u == 20 then s else s.bump c 0x044 1
  if u == 20 && s.repEnds c then took s
  else match s.cfgWhen c u with
    | .wait => s
    | .fault => bad
    | .now =>
      if cfgPass t != 0 then
        if u == 18 then bad
        else if !b.outFree then s
        else (took s).modBlock c u fun b => b.emit (cfgDown t 1)
      else match blockInstall u true b t with
        | none => s.opFault c b.span (blockPort u) (cfgBadWord b.word t) (cfgItem t)
        | some b' => took (s.modBlock c u fun _ => b')

/-- A CFG at mx.x (R150). -/
def State.streamCfg (s : State) (c : Nat) (t : Token) : State :=
  let x := s.cell c
  let b := x.block 25
  let bad := fun (u : Nat) => s.opFault c b.span 0x50 (cfgBadWord (x.block u).word t) (cfgItem t)
  let took := fun (s : State) => (s.modBlock c 25 fun b => b.pop 0).bump c 0x043 1
  let put := fun (u : Nat) (consts : Bool) => match blockInstall u consts (x.block u) t with
    | none => bad u
    | some b' => took (s.modBlock c u fun _ => b')
  if cfgPass t == 0 then put 25 false
  else if cfgPass t == 1 then
    if !x.mx.drained then s
    else if (blockInstall 26 false (x.block 26) t).isNone then bad 26
    else
      let s := put 26 false
      match (s.cell c).accCount with
      | some n => if n ≤ x.mx.ec.toNat then s.releaseNodes c else s
      | none => s
  else if cfgPass t == 2 then (if x.mx.marked || s.releasing c then s else put 27 true)
  else if x.mx.drained && (x.block 27).outFree then (took s).modBlock c 27 fun b => b.emit (cfgDown t 3)
  else s

/-- A CFG at mx.w (R150). -/
def State.loaderCfg (s : State) (c : Nat) (t : Token) : State :=
  let x := s.cell c
  let b := x.block 23
  let bad := s.opFault c b.span 0x51 b.word (cfgItem t)
  let u := if cfgPass t == 0 then 23 else 24
  if x.mx.load.isSome then s
  else if cfgPass t > 1 then bad
  else match blockInstall u false (x.block u) t with
    | none => s.opFault c b.span 0x51 (cfgBadWord (x.block u).word t) (cfgItem t)
    | some b' => ((s.modBlock c u fun _ => b').modBlock c 23 fun b => b.pop 0).bump c 0x043 1

/-- CFG_FIRING (R41, R150, R236): the engine consumes the CFG at its port 0. -/
def execCfgFiring (cell e : Nat) (s : State) : Out :=
  let t := if e < 16 then ((s.cell cell).elem e).in0 else ((s.cell cell).block e).head 0
  match t with
  | none => .next s
  | some t =>
    if t.kind != 6 || !s.cellLive cell then .next s
    else if e < 16 then .next (s.elemCfg cell e t)
    else if e == 25 then .next (s.streamCfg cell t)
    else if e == 23 then .next (s.loaderCfg cell t)
    else if e ≤ 22 then .next (s.blockCfg cell e t)
    else .next s

end Sys2Proof.Machine
end

