-- ==== Sys2Proof/Machine/Scope.lean ====
section
/-! DEFINITION. Scopes (R80, R83, R198). -/

namespace Sys2Proof.Machine

/-- Whether a cell lies in a rectangle given relative to a graph (R80, R83). -/
def inRect (q : Nat × Nat) (r : Nat × Nat × Nat × Nat) : Bool :=
  r.1 ≤ q.1 && q.1 < r.1 + r.2.2.1 && r.2.1 ≤ q.2 && q.2 < r.2.1 + r.2.2.2

/-- The innermost rectangle that holds a place: the one of least area. -/
def innermost (rs : List (Nat × Nat × Nat × Nat)) (q : Nat × Nat) : Option (Nat × Nat × Nat × Nat) :=
  rs.foldl (fun best r =>
    if inRect q r then match best with
      | none => some r
      | some b => if r.2.2.1 * r.2.2.2 < b.2.2.1 * b.2.2.2 then some r else some b
    else best) none

/-- Whether a cell lies in a scope taken relative to an issuing cell (R198). -/
def State.inScope (s : State) (c : Nat) (scope : BitVec 3) (x : Nat) : Bool :=
  if scope == 0 then x == c
  else if scope == 1 then bayOf x == bayOf c
  else match s.graphAt c with
    | none => x == c
    | some (p, g) =>
      if scope == 2 then
        match innermost (s.graphVariant p g).rects (g.rel c) with
        | some r => g.holds x && inRect (g.rel x) r
        | none => g.holds x
      else if scope == 3 then g.holds x
      else (s.part p).cfg.bays.contains (bayOf x)

/-- The cells of a scope that hold any state. -/
def State.scopeCells (s : State) (c : Nat) (scope : BitVec 3) : List Nat :=
  (s.cells.map (·.1)).filter (s.inScope c scope)
/-- The bays of a scope: those of the issuer's partition from partition scope on, those of its graph at graph and subgraph
scope (a subgraph rectangle reaches no die that its graph does not). -/
def State.scopeBays (s : State) (c : Nat) (scope : BitVec 3) : List Nat :=
  bayOf c :: match s.graphAt c with
    | none => []
    | some (p, g) => if scope.toNat ≤ 1 then [] else if scope.toNat ≤ 3 then g.bays else (s.part p).cfg.bays
/-- The dies of a scope. -/
def State.scopeDies (s : State) (c : Nat) (scope : BitVec 3) : List Nat := diesOf (s.scopeBays c scope)

end Sys2Proof.Machine
end

