-- ==== Sys2Proof/Machine/Gather.lean ====
section
/-! DEFINITION. Reads of shadow windows (R165, R187, R188, R193): the memory controller of the reading cell gathers rows of
the backing tensor under the window's binding, as the GATH class at port 0x83 (R271). -/

namespace Sys2Proof.Machine

/-- The gather port of a cell, for a reader's span. -/
def gathWho (w : Who) : Who := { cell := w.cell, span := w.span, port := 0x83, cls := .gath }

/-! ### Bindings as a reader sees them -/

/-- Whether a task's gathers in a cell see a binding: its issuer's task has passed its edge before the reader's task was
released, or an XFENCE from SEQ to GATH has reached the cell (R187, R188). -/
def State.sees (s : State) (c : Nat) (t : Task) (v : WinVer) : Bool :=
  v.edge.any (· < t.born) || v.seen.any fun q => s.inScope q.2 q.1 c
/-- The binding of a window that a task's gathers in a cell use: the newest that they see. -/
def State.bindingOf (s : State) (p c : Nat) (t : Task) (tensor : Nat) : Option WinBind :=
  ((SMap.get [] (s.part p).windows tensor).filter (s.sees c t)).getLast?.bind (·.bind)

/-- A WBIND or WFREE enters the partition's bindings for the task of the issuing cell's open span; one issued with no open span
counts for task (0, 0) of the graph (log 110). -/
def State.bindWindow (s : State) (p c tensor : Nat) (b : Option WinBind) : State :=
  let t := s.taskFor (s.seqWho c)
  let v : WinVer := { bind := b, cell := c, lid := (s.graphAt c).elim 0 (·.2.lid), x := t.elim 0 (·.x), y := t.elim 0 (·.y) }
  s.modPart p fun q => { q with windows := SMap.set q.windows tensor (SMap.get [] q.windows tensor ++ [v]) }
/-- An XFENCE from SEQ to GATH of a cell makes the bindings issued in its scope visible there (R187, R203). -/
def State.bindFence (s : State) (c : Nat) (scope : BitVec 3) : State :=
  match s.partOf c with
  | none => s
  | some p => s.modPart p fun q => { q with windows := q.windows.map fun e => (e.1, e.2.map fun v =>
      if s.inScope c scope v.cell then { v with seen := v.seen ++ [(scope, c)] } else v) }

/-! ### Gathering -/

/-- Why a window read does not return: the state with the gather port waiting or stopped, or a format that the path does not
decode, with its chunk entry (R57). -/
inductive GathFail where
  | held (s : State)
  | fmt (entry : BitVec 64)
  deriving DecidableEq, Repr

/-- Why a gather stops: an access of the backing tensor or the index vector, or a descriptor that is to be walked first. -/
inductive GathStop where
  | acc (f : AccFail)
  | desc (va : Word)
  deriving DecidableEq, Repr

/-- What a gather that stops leaves (R270, R271). -/
def State.gathFail (s : State) (p : Nat) (w : Who) : GathStop → GathFail
  | .acc (.bad cause va) => .held (s.reportXl p w.cell 0x83 (if cause == 0x06 then 6 else 3) 3 va w.span none)
  | .acc (.fmt _ e) => .fmt e
  | .acc .wait => .held s
  | .acc (.walk va) => .held (s.addWalk w va .gather)
  | .acc .supp => .held s
  | .desc va => .held (s.addWalk w va .gather none true)

/-- The parts of a backing or index access where they lie; the task's regions are those of the window (log 47). -/
def State.gathLocate (s : State) (w : Who) : List (Word × Nat) → Except AccFail (List (Word × Nat × Loc × BitVec 64))
  | [] => .ok []
  | (va, n) :: ps =>
    match s.translate w .rd va with
    | .error f => .error f
    | .ok (l, e) => (s.gathLocate w ps).map fun r => (va, n, l, e) :: r
/-- Reads bytes of a backing tensor or index vector: the bytes, the state after, the chunk entries met. -/
def State.gathParts (s : State) (w : Who) (va : Word) (n : Nat) :
    Except GathStop (List Byte × State × List (BitVec 64)) :=
  match s.gathLocate w (s.shardParts w (partsOf va n)) with
  | .error f => .error (.acc f)
  | .ok ps => match s.firstPoison w ps with
    | some v => .error (.acc (.bad 0x06 v))
    | none => let r := s.readParts w ps; .ok (r.1, r.2, ps.map fun q => q.2.2.2)

/-- The descriptor of a backing tensor or index vector in the bay's cache, or a walk that brings it there (R261, R264). -/
def State.gathDesc (s : State) (w : Who) (va : Word) : Except GathStop Desc :=
  match s.cachedDesc (bayOf w.cell) (vaTensor va) with
  | some d => .ok d
  | none => .error (.desc va)

/-- The rows of a backing tensor from a base offset (R165). -/
def WinBind.backingRows (b : WinBind) (d : Desc) : Nat := (d.bytes - vaOff b.backing) / b.row

/-- The row of the backing tensor that row r of a window names, none for a tailing: an index that the vector does not hold,
that is all ones, or that names no backing row (R165). -/
def State.gathIndex (s : State) (w : Who) (b : WinBind) (r : Nat) : Except GathStop (Option Nat × State) :=
  let o := vaOff b.index + 4 * r
  match s.gathDesc w b.index, s.gathDesc w b.backing with
  | .error f, _ => .error f
  | _, .error f => .error f
  | .ok di, .ok db =>
    if o + 4 > di.bytes then .ok (none, s)
    else (s.gathParts w (mkVa (vaTensor b.index) o) 4).map fun q =>
      let x := leNat q.1
      (if x == 0xFFFFFFFF || x ≥ b.backingRows db then none else some x, q.2.1)

/-- A row counted as a tailing of its window (counter 0x018). -/
def State.tailing (s : State) (p tensor : Nat) : State :=
  s.modPart p fun x => { x with tails := SMap.set x.tails tensor (SMap.get 0 x.tails tensor + 1) }

/-- Whether a row in gathering goes on at an offset of a window, for a reader's span: the offset is its next byte. -/
def GathRow.goesOn (g : GathRow) (w : Who) (tensor o : Nat) : Bool :=
  g.tensor == tensor && g.span == w.span && 0 < g.next && g.next < g.size && o == g.row * g.size + g.next

/-- The row that a reader gathers at an offset of a window: the one it is in the course of reading, under its index and binding
whatever binding it sees now (R187, R188), or a new read pass under the binding it sees, which reads the index and counts a
tailing (R165, log 48); PERM where it sees none. -/
def State.gathOpen (s : State) (p : Nat) (w : Who) (port tensor : Nat) (b : Option WinBind) (o : Nat) :
    Except GathStop (GathRow × State) :=
  let g := SMap.get {} (s.cell w.cell).gath port
  if g.goesOn w tensor o then .ok (g, s)
  else match b with
    | none => .error (.acc (.bad 0x05 (mkVa tensor o)))
    | some b => (s.gathIndex w b (o / b.row)).map fun q =>
      ({ tensor := tensor, span := w.span, row := o / b.row, next := o % b.row, backing := b.backing, index := b.index, size := b.row,
         idx := q.1 },
        if q.1.isNone then q.2.tailing p tensor else q.2)

/-- The bytes of a window from an offset on that lie in one row, at most n. -/
def State.gathRow (s : State) (p : Nat) (w : Who) (port tensor : Nat) (b : Option WinBind) (o n : Nat) :
    Except GathStop (List Byte × State × List (BitVec 64)) :=
  match s.gathOpen p w port tensor b o with
  | .error f => .error f
  | .ok (g, s) =>
    let k := min n (g.size - g.next)
    let keep := fun (s : State) => s.modCell w.cell fun x => { x with gath := SMap.set x.gath port { g with next := g.next + k } }
    match g.idx with
    | none => .ok (List.replicate k 0, keep s, [])
    | some x => (s.gathParts w (mkVa (vaTensor g.backing) (vaOff g.backing + x * g.size + g.next)) k).map fun q =>
        (q.1, keep q.2.1, q.2.2)

/-- Bytes of a window, row by row. The last argument is fuel. -/
def State.gathBytes (s : State) (p : Nat) (w : Who) (port tensor : Nat) (b : Option WinBind) (o n : Nat) :
    Nat → Except GathStop (List Byte × State × List (BitVec 64))
  | 0 => .ok ([], s, [])
  | f + 1 =>
    if n == 0 then .ok ([], s, [])
    else match s.gathRow p w port tensor b o n with
      | .error e => .error e
      | .ok (bs, s, es) =>
        (s.gathBytes p w port tensor b (o + bs.length) (n - bs.length) f).map fun r => (bs ++ r.1, r.2.1, es ++ r.2.2)

/-- Whether an access of a unit names a shadow window (R165, R261), as the entry it meets tells. -/
def State.isWindow (s : State) (w : Who) (va : Word) : Bool :=
  vaTensor va < 0xFFFE && (s.cachedEntry w.cell (s.taskFor w) (vaTensor va) (vaOff va / 65536)).any (·.1.shadow)
/-- The first part of a window's read whose own chunk entry is to be walked first (R264-R266). -/
def State.windowWalk (s : State) (w : Who) (t : Task) (va : Word) (n : Nat) : Option Word :=
  (partsOf va n).findSome? fun q =>
    match s.cachedEntry w.cell (some t) (vaTensor q.1) (vaOff q.1 / 65536) with
    | some (x, noCas) => if entryServes x.entry noCas .rd then none else some q.1
    | none => some q.1

/-- A read of a shadow window by a unit (R165, R193, R304): the bytes and the entries they came under, or why it does not
return. A read that stops at one of its rows opens none of them: its retry reads them all in one pass (log 48). An undeclared
read aborts the task and stops the reader's port (R136, R304, log 80). -/
def State.readWindow (s : State) (w : Who) (va : Word) (n : Nat) : Except GathFail (List Byte × State × List (BitVec 64)) :=
  let free := fun (s : State) => let r := s.freeBytes n; (r.1, r.2, ([] : List (BitVec 64)))
  match s.graphAt w.cell, s.taskFor w with
  | none, _ => .error (.held s)
  | some _, none => .error (.held (s.undeclStop w va))
  | some (p, _), some t =>
    let o := vaOff va
    if s.portBusy w.cell 0x83 then .error (.held s)
    else if t.st == 4 then .ok (free s)
    else if !covered t.regions .rd (vaTensor va) (o + n) (t.regions.length + 1) o then .error (.held (s.undeclStop w va))
    else match s.windowWalk w t va n with
      | some v => .error (.held (s.addWalk w v .read))
      | none => match s.gathBytes p (gathWho w) w.port (vaTensor va) (s.bindingOf p w.cell t (vaTensor va)) o n (n + 1) with
        | .ok r => .ok r
        | .error e => .error (s.gathFail p (gathWho w) e)

end Sys2Proof.Machine
end

