-- ==== Sys2Proof/Machine/Engines.lean ====
section
/-! DEFINITION. The copy and fill engines and the bindings of shadow windows (R173-R188, R350, R398-R401). -/

namespace Sys2Proof.Machine

/-! ### Engines and their issuers -/

/-- The serving M-cell of a cell (R173): itself, or the first of its W, E, N and S neighbours in its bay that works. -/
def State.servingCell (s : State) (c : Nat) : Option Nat :=
  if kindOf c == 0 then some c
  else (([3, 1, 0, 2].filterMap (neighbour c)).find? fun n => bayOf n == bayOf c && !s.defective n)

def State.eng (s : State) (m : Nat) : CopyEng := (s.cell m).m.copy
def State.modEng (s : State) (m : Nat) (f : CopyEng → CopyEng) : State :=
  s.modCell m fun x => { x with m := { x.m with copy := f x.m.copy } }
def State.fillEng (s : State) (m : Nat) : FillEng := (s.cell m).m.fill
def State.modFill (s : State) (m : Nat) (f : FillEng → FillEng) : State :=
  s.modCell m fun x => { x with m := { x.m with fill := f x.m.fill } }
def State.chanq (s : State) (m q : Nat) : ChanQ := SMap.get {} (s.cell m).m.queues q
def State.modChanq (s : State) (m q : Nat) (f : ChanQ → ChanQ) : State :=
  s.modCell m fun x => { x with m := { x.m with queues := SMap.set x.m.queues q (f (SMap.get {} x.m.queues q)) } }
def State.modTile (s : State) (m n : Nat) (f : Tile → Tile) : State := s.modCell m fun x => x.setTile n (f (x.tile n))

/-- The next stamp number: 1 to 2^32 - 1 (R174). -/
def seqNext (n : BitVec 32) : BitVec 32 := if n + 1 == 0 then 1 else n + 1

/-- The open span of the running slot of a cell (R175, R305). -/
def State.openSpan (s : State) (c : Nat) : Option Word :=
  let sl := (s.cell c).slot (s.seqAt c).slotNo
  if sl.spanOpen then some sl.spanid else none

/-- The engine that a command runs on, as an issuer (R193). -/
def copyWho (m : Nat) (span : Option Word) : Who := { cell := m, span := span, port := 0x81, cls := .copy }
def fillWho (m : Nat) (span : Option Word) : Who := { cell := m, span := span, port := 0x82, cls := .copy }
/-- The port of a fill command: the memory sequencer's for its own fills, else the fill engine's (R271, R287). -/
def FillCmd.port (k : FillCmd) : Nat := if k.ms then 0x84 else 0x82

/-! ### COPY at issue (R176, R177) -/

/-- Whether the command queue of a copy engine has no free entry (R174, R175). -/
def CopyEng.full (e : CopyEng) : Bool := e.queue.length + (if e.cur.isSome then 1 else 0) ≥ 16

/-- The open chain of an issuing cell: its commands, all with CHAIN set (R180). -/
def CopyEng.openChain (e : CopyEng) (c : Nat) : List CopyCmd :=
  let ran := match e.runs.find? fun r => r.1 == c with
    | some r => r.2.chain
    | none => []
  ((ran ++ e.queue.filter fun k => k.issuer == c).reverse.takeWhile fun k => k.chain).reverse

/-- The die, bay column and offset of a weight-store address (R176). -/
def wsDie (v : Word) : Nat := (v.extractLsb' 31 2).toNat
def wsCol (v : Word) : Nat := (v.extractLsb' 28 3).toNat
def wsOff (v : Word) : Nat := (v.extractLsb' 0 28).toNat
/-- The byte of the weight store as the state numbers it. -/
def wsKey (v : Word) : Nat := (wsDie v * 6 + wsCol v) * 2 ^ 28 + wsOff v

/-- Whether a D-cell of a graph holds an MLOAD with SRC 1 in a bay column (R177, R178). -/
def State.mloadIn (s : State) (g : Graph) (die col : Nat) : Bool :=
  g.cells.any fun c => kindOf c == 2 && dieOf c == die && colOf c == col
    && match decodeOp ((s.cell c).block 23).word with
      | some (.instr (.mload src ..)) => src == 1
      | _ => false

/-- Whether the bank groups of a weight-store range belong to a partition (R160). -/
def groupsOwned (k : PartCfg) (off n : Nat) : Bool :=
  (List.range ((off + n - 1) / 2 ^ 24 - off / 2 ^ 24 + 1)).all fun i => k.banks.getLsbD (off / 2 ^ 24 + i)

/-- The first check of R177 that fails, before the accesses of its last but one row: a trap cause and value. -/
def State.copyBad (s : State) (p m : Nat) (g : Graph) (cmd : CopyCmd) (word gc : Word) : Option (BitVec 8 × Word) :=
  let open_ := (s.eng m).openChain cmd.issuer
  let mem := !cmd.queue && !cmd.ws
  let so := vaOff cmd.src
  let d := cmd.dst
  if cmd.assay == 3 || (cmd.last && cmd.assay == 0) || (cmd.chain && cmd.last) || (cmd.queue && cmd.ws)
      || (cmd.queue && d.extractLsb' 16 48 != 0) || (cmd.ws && d.extractLsb' 33 31 != 0) then some (0x01, word)
  else if cmd.len < 8 || cmd.len > 0x7FFFFFF8 then some (0x01, word)
  else if !open_.isEmpty && (open_.any (fun k => k.assay != cmd.assay) || open_.length ≥ 8) then some (0x01, word)
  else if mem && vaTensor cmd.src == vaTensor d && so < vaOff d + cmd.len && vaOff d < so + cmd.len then some (0x01, word)
  else if so % 8 != 0 then some (0x03, cmd.src)
  else if (mem && vaOff d % 8 != 0) || (cmd.ws && wsOff d % 8 != 0) then some (0x03, d)
  else if cmd.len % 8 != 0 then some (0x03, gc &&& 0xFFFFFFFF)
  else if vaTensor cmd.src == 0xFFFF then some (0x05, cmd.src)
  else if mem && (vaTensor d == 0xFFFF || (vaTensor d != 0xFFFE && (s.desc p (bayOf m) (vaTensor d)).v
      && (s.desc p (bayOf m) (vaTensor d)).shadow)) then some (0x05, d)
  else if cmd.queue && (d.toNat ≥ 32 || (s.chanq m d.toNat).depth == 0) then some (0x05, d)
  else if cmd.ws && (wsCol d > 5 || !groupsOwned (s.part p).cfg (wsOff d) (cmd.len + 8)) then some (0x05, d)
  else if cmd.ws && s.mloadIn g (wsDie d) (wsCol d) then some (0x05, d)
  else none

/-- The addresses whose first byte is checked at issue (R177). -/
def CopyCmd.probes (k : CopyCmd) : List (Need × Word) :=
  (Need.rd, k.src) :: if k.queue || k.ws then [] else
    [(Need.wr, k.dst), (Need.wr, mkVa (vaTensor k.dst) (vaOff k.dst + k.len))]

/-- Who checks an address at issue for an engine: the issuing cell, whose caches its own walks fill, or in the scratchpad window
the serving M-cell. -/
def probeWho (w : Who) (x : Nat) (va : Word) : Who := if vaTensor va == 0xFFFE then w else { w with cell := x }
/-- The first probe that fails of those that a cell makes for an engine. The command of an aborted span is accepted, so that its
chain keeps its course; its accesses are suppressed as it runs (R295). -/
def State.probeFail (s : State) (w : Who) (x : Nat) : List (Need × Word) → Option (Need × Word × AccFail)
  | [] => none
  | (n, va) :: ps =>
    match s.locate (probeWho w x va) n va 1 with
    | .error .supp => s.probeFail w x ps
    | .error f => some (n, va, f)
    | .ok _ => s.probeFail w x ps

/-- COPY (R176, R177). -/
def execCopy (a b c : BitVec 5) (ws remote queue : BitVec 1) (retry : BitVec 3) (last chain : BitVec 1) (assay : BitVec 2)
    (s : State) : Out :=
  let i : Instr := .copy a b c ws remote queue retry last chain assay
  let x := s.focus.cell
  let gc := s.seq.getG c
  match s.servingCell x, s.graphAt x with
  | some m, some (p, g) =>
    let e := s.eng m
    let cmd : CopyCmd :=
      { src := s.seq.getG a, dst := s.seq.getG b, len := (gc.extractLsb' 0 32).toNat, expect := gc.extractLsb' 32 32,
        assay := assay, chain := chain == 1, last := last == 1, retry := retry.toNat, queue := queue == 1,
        remote := remote == 1, ws := ws == 1, issuer := x, seq := e.seq, span := s.openSpan x }
    match s.copyBad p m g cmd (wordOf i) gc with
    | some (cause, v) => s.trapSelf cause v (wordOf i)
    | none =>
      match s.probeFail (copyWho m cmd.span) x cmd.probes with
      | some (n, va, f) => s.seqFail i n va f
      | none =>
        if cmd.queue && cmd.len % 64 != 0 then s.trapSelf 0x03 (gc &&& 0xFFFFFFFF) (wordOf i)
        else if e.full then s.stay 3
        else (s.modEng m fun e => { e with queue := e.queue ++ [cmd], seq := seqNext e.seq }).done s.seq
  | _, _ => s.trapSelf 0x05 0 (wordOf i)

/-! ### Assays and stamps -/

/-- The assay of R179: 1 SUM32, 2 CRC32C. -/
def assayInit (k : BitVec 2) : BitVec 32 := if k == 2 then 0xFFFFFFFF else 0
def assayStep (k : BitVec 2) (v w : BitVec 32) : BitVec 32 :=
  if k == 1 then (if v.toNat + w.toNat ≥ 2 ^ 32 then v + w + 1 else v + w)
  else if k == 2 then hashCrc v w else v
def assayFinal (k : BitVec 2) (v : BitVec 32) : BitVec 32 := if k == 2 then v ^^^ 0xFFFFFFFF else v
/-- The assay over the words of a byte list, lowest first. The last argument counts the words. -/
def assayBytes (k : BitVec 2) (v : BitVec 32) (bs : List Byte) : Nat → BitVec 32
  | 0 => v
  | n + 1 => assayBytes k (assayStep k v (BitVec.ofNat 32 (leNat (bs.take 4)))) (bs.drop 4) n

/-- A stamp (R181). -/
def stampOf (seq : BitVec 32) (status retry idx : Nat) : Word :=
  BitVec.ofNat 64 (idx % 2 ^ 24 + retry % 16 * 2 ^ 24 + status % 16 * 2 ^ 28 + seq.toNat * 2 ^ 32)

/-- A stamp written to a watched address raises the watch's vectors (R350); a watch written on the same tick is a free
choice (log 19). -/
def State.stampWatch (s : State) (p : Nat) (va : Word) : State :=
  ((s.part p).watches.filter fun e => e.2.v && e.2.va == va).foldl (fun s e =>
    if e.2.fresh then
      let t := { s with freeCtr := s.freeCtr + 1 }
      if Config.freeBool s.freeCtr then t.raiseVec p e.2.vector else t
    else s.raiseVec p e.2.vector) s

/-- Makes the bytes of located parts visible at their home (R182). -/
def State.publish (s : State) (d : Nat) (ps : List (Word × Nat × Loc × BitVec 64)) : State :=
  ps.foldl (fun s q => match q.2.2.1 with
    | .hbm pa _ => (linesOf pa q.2.1).foldl (fun s ln => s.lineOut d ln) s
    | _ => s) s

/-- Poison marks on a range where it lies (R183); a newly marked HBM block counts for its stack (counter 0x029). -/
def State.markLoc (s : State) (m : Nat) (l : Loc) (n : Nat) : State :=
  let add := fun (ps : List Nat) (bs : List Nat) => ps ++ bs.filter fun b => !ps.contains b
  match l with
  | .priv _ => s
  | .scr off => s.modCell m fun x => { x with m := { x.m with poison := add x.m.poison (blocksOf off n) } }
  | .hbm pa _ =>
    let new := (blocksOf pa n).filter fun b => !s.mem.poison.contains b
    let s := { s with mem := { s.mem with poison := s.mem.poison ++ new } }
    new.foldl (fun s b => s.bumpPkg (0x029 * 256 + b * 256 / 2 ^ 36 % 8) 1) s
  | .rem _ a => { s with mem := { s.mem with remPoison := add s.mem.remPoison (blocksOf a n) } }

/-! ### Channel queues as destinations (R178, R213) -/

/-- Leading tiles that are freed: no token left, and not the open one. -/
def freedTiles (open_ : Bool) : List Nat → Nat
  | 0 :: rest => if rest.isEmpty && open_ then 0 else 1 + freedTiles open_ rest
  | _ => 0
/-- Freed tiles leave, each adding to the credit (R213: the NOTICE passes inside the M-cell). -/
def ChanQ.reap (k : ChanQ) : ChanQ :=
  let n := freedTiles k.opened.isSome k.tiles
  { k with tiles := k.tiles.drop n, credit := k.credit + n, poison := (k.poison.filter (n ≤ ·)).map (· - n) }
/-- A token of a copy enters a queue: none when it has no room, or a new tile and no credit. -/
def ChanQ.send (k : ChanQ) (t : Token) : Option ChanQ :=
  let new := k.opened.isNone || k.opened == some 16
  if k.toks.length ≥ 16 * k.depth || (new && k.credit == 0) then none
  else if new then
    some { k with toks := k.toks ++ [t], tiles := k.tiles ++ [1], opened := some 1, credit := k.credit - 1 }.reap
  else some { k with
    toks := k.toks ++ [t]
    tiles := k.tiles.dropLast ++ [k.tiles.getLastD 0 + 1]
    opened := k.opened.map (· + 1) }
def ChanQ.sendAll (k : ChanQ) : List Token → Option ChanQ
  | [] => some k
  | t :: ts => (k.send t).bind fun k => k.sendAll ts
/-- The producer has written its stamp token: the open tile is closed. -/
def ChanQ.close (k : ChanQ) : ChanQ := { k with opened := none }.reap
/-- The open tile is marked poisoned (R183). -/
def ChanQ.mark (k : ChanQ) : ChanQ := { k with poison := k.poison ++ [k.tiles.length - 1] }

/-- Whether a weight-store range waits for a refresh window (R161). -/
def State.wsRefresh (s : State) (off n : Nat) : Bool :=
  (List.range 16).any fun g => s.mem.refresh.getLsbD g && off / 2 ^ 24 ≤ g && g ≤ (off + n - 1) / 2 ^ 24
/-- Writes bytes of the weight store. -/
def State.wsWrite (s : State) (key : Nat) (bs : List Byte) : State :=
  { s with mem := { s.mem with ws := memStore s.mem.ws key bs, wsPoison := poisonAfter s.mem.wsPoison key bs.length } }

/-- The report of an injection whose chain ended (R401): the cell, bit 14 set when its stamps were written. -/
def injReport (m : Nat) (stamped : Bool) : BitVec 64 := BitVec.ofNat 64 (m + if stamped then 2 ^ 14 else 0)

/-- A chain ends: its run leaves, and an injection is reported (R401). -/
def State.endChain (s : State) (m issuer : Nat) (r : CopyRun) (stamped : Bool) : State :=
  let s := s.modEng m fun e => { e with runs := smErase e.runs issuer, cur := if e.cur == some issuer then none else e.cur }
  if r.inj.isSome then
    { s with hf := { s.hf with mail := s.hf.mail ++ [injReport m stamped] } }
  else s

/-- The run of an issuer is replaced. -/
def State.setRun (s : State) (m issuer : Nat) (r : CopyRun) : State :=
  s.modEng m fun e => { e with runs := SMap.set e.runs issuer r }

/-- A chain is discarded from a command on (R184): no stamp; what is still to come of it is dropped as it starts. -/
def State.discardChain (s : State) (m issuer : Nat) (r : CopyRun) : State :=
  if (r.chain.getLast?.map (·.chain)).getD false then
    (s.setRun m issuer { r with dead := true }).modEng m fun e => { e with cur := none }
  else s.endChain m issuer r false

/-- The copy-error event of a task (R183): a record of TYPE 8, and the mark on its completion status. -/
def State.copyError (s : State) (m : Nat) (span : Option Word) (va stamp : Word) (port : Nat) : State :=
  match s.graphAt m, s.taskFor (copyWho m span) with
  | some (p, g), some t =>
    (s.modGraph p g.lid fun g => g.modTask t.x t.y fun t => { t with cerr := true }).record p
      (evRec s g.lid 8 0 0 (t.x, t.y) (vaOff va) m 0 port stamp 0)
  | _, _ => s

/-- Whether an abort or copy-error record of a unit waits for room in the fault queue: the unit stays stopped until there is (R210). -/
def State.errWaits (s : State) (m port : Nat) : Bool :=
  match s.partOf m with
  | none => false
  | some p => (s.part p).fq.waiting.any fun r =>
      let own := r.w0.extractLsb' 16 4 == 8#4 || r.w0.extractLsb' 16 4 == 7#4 && !r.w0.getLsbD 20
      r.w0.getLsbD 23 && own && (r.w1.extractLsb' 48 14).toNat == m
        && (r.w3.extractLsb' 16 8).toNat == port
/-- Whether an engine does nothing: its port is stopped or waits for a walk, or an error record of it waits. -/
def State.engHeld (s : State) (m port : Nat) : Bool := s.portBusy m port || s.errWaits m port

/-- The stamp address of a command as records give it. -/
def CopyCmd.stampVa (k : CopyCmd) : Word :=
  if k.queue then k.dst else if k.ws then k.dst + BitVec.ofNat 64 k.len else mkVa (vaTensor k.dst) (vaOff k.dst + k.len)
/-- The payload blocks of a command (R178). -/
def CopyCmd.blocks (k : CopyCmd) : Nat := (k.len + 255) / 256

/-! ### Stamps of copies -/

/-- What a copy engine's access that is not performed leaves behind: an undeclared one aborts the task and discards the chain
(R184, R304); else a walk, or a record with a base offset, the payload block count and the progress i (R271). -/
def State.copyFail (s : State) (m issuer : Nat) (r : CopyRun) (k : CopyCmd) (kind : AccKind) (base i : Nat) : AccFail → State
  | .bad cause va =>
    if cause == 0x04 then (s.abortFor (copyWho m k.span) va).discardChain m issuer r
    else match s.graphAt m with
      | none => s
      | some (p, _) => s.reportXl p m 0x81 (if cause == 0x06 then 6 else 3) (kindCode kind) va k.span
          (some (base % 2 ^ 48, k.blocks, i))
  | .fmt _ _ => s
  | .wait => s
  | .walk va => s.addWalk (copyWho m k.span) va kind (some (base % 2 ^ 48, k.blocks, i))
  | .supp => s
/-- The same for a command's stamp (R271, log 97): the base is that from which the progress leads to the stamp. -/
def State.stampFail (s : State) (m issuer : Nat) (r : CopyRun) (k : CopyCmd) (i : Nat) (f : AccFail) : State :=
  s.copyFail m issuer r k .write (vaOff k.dst + k.len + 2 ^ 48 - 256 * i % 2 ^ 48) i f

/-- Whether a located part has a remote home. -/
def Loc.isRem : Loc → Bool
  | .rem .. => true
  | .priv _ => false
  | .scr _ => false
  | .hbm .. => false
/-- Whether some part of an access has a remote home. -/
def State.touchesRemote (s : State) (w : Who) (need : Need) (va : Word) (n : Nat) : Bool :=
  match s.locateAll w need (partsOf va n) with
  | .ok ps => ps.any fun q => q.2.2.1.isRem
  | .error _ => false

/-- A write of a copy engine that is visible at its destination's scope at once (R182). -/
def State.writeSeen (s : State) (w : Who) (va : Word) (bs : List Byte) : Except AccFail State :=
  match s.locateAll w .wr (partsOf va bs.length) with
  | .error .supp => .ok s
  | .error f => .error f
  | .ok ps => .ok ((s.writeParts w (joinParts ps) bs).publish (dieOf w.cell) ps)

/-- Writes the stamp of a command (R181, R182), whose payload is visible since its blocks were written, and makes it visible; or
why it is not written. A queue's tile that
holds a poisoned block is marked (R183). The stamp of an aborted task is suppressed (R295). -/
def State.putStamp (s : State) (p m : Nat) (k : CopyCmd) (stamp : Word) (mark : Bool) : Except AccFail State :=
  let w := copyWho m k.span
  if s.suppressed w then .ok s
  else if k.queue then
    match (s.chanq m k.dst.toNat).send { kind := 0, coord := 0xFFFFFFFF, ref := stamp } with
    | none => .error .wait
    | some q => .ok (s.modChanq m k.dst.toNat fun _ => if mark && !q.close.tiles.isEmpty then q.close.mark else q.close)
  else if k.ws then
    if s.wsRefresh (wsOff k.dst + k.len) 8 then .error .wait
    else .ok (s.wsWrite (wsKey k.dst + k.len) (natLe stamp.toNat 8))
  else
    let va := mkVa (vaTensor k.dst) (vaOff k.dst + k.len)
    if !k.remote && s.touchesRemote w .wr va 8 then .error (.bad 0x05 va)
    else (s.writeSeen w va (natLe stamp.toNat 8)).map fun s => s.stampWatch p va

/-- Writes the stamps that are due in command order (R180, R182) and ends the chain, which stays while commands of it are to
come (R183). A stamp that cannot be written leaves it and those after it due. -/
def State.finishChain (s : State) (p m issuer : Nat) (r : CopyRun) : List (CopyCmd × Word × Bool) → State
  | [] =>
    let last := r.chain.getLastD {}
    if last.chain then (s.setRun m issuer { r with due := [] }).modEng m fun e => { e with cur := none }
    else
      let bad := !r.poisoned && last.last && assayFinal last.assay r.assay != last.expect
      (if bad then s.bump m 0x00B 1 else s).endChain m issuer r true
  | (k, st, mark) :: ks =>
    match s.putStamp p m k st mark with
    | .error f =>
      let r := { r with due := (k, st, mark) :: ks }
      let i := if !r.poisoned then k.blocks else if mark then r.block
        else if (st.extractLsb' 0 24) == 0xFFFFFF then 0 else k.blocks
      (s.setRun m issuer r).stampFail m issuer r k i f
    | .ok s => s.finishChain p m issuer r ks

/-! ### Execution of copies (R178-R183) -/

/-- Whether a copy waits for kernels that load weights from its bay column (R178). -/
def State.wsBlocked (s : State) (p : Nat) (k : CopyCmd) : Bool :=
  k.ws && (s.part p).graphs.any fun g => s.mloadIn g (wsDie k.dst) (wsCol k.dst)

/-- The place in the queue of the command to start: the first that is not blocked and whose issuer has none before it. -/
def State.copyNext (s : State) (p m : Nat) : Option Nat :=
  let q := (s.eng m).queue
  (List.range q.length).find? fun k =>
    let cmd := q.getD k {}
    !s.wsBlocked p cmd && !(q.take k).any fun c => c.issuer == cmd.issuer

/-- A queue destination's credit at its command's start (R174). -/
def State.queueStart (s : State) (m : Nat) (k : CopyCmd) : State :=
  if k.queue then s.modChanq m k.dst.toNat fun q => { q with credit := q.depth } else s

/-- The flip armed for an engine's next chain (R401). -/
def State.armed (s : State) (m : Nat) : Option (Nat × Nat × Bool) := (s.hf.armed.find? fun e => e.1 == m).map (·.2)
/-- The chain that an armed flip applies to has begun. -/
def State.disarm (s : State) (m : Nat) : State := { s with hf := { s.hf with armed := smErase s.hf.armed m } }

/-- The command at a place of the queue starts (R180); a command of a discarded chain is dropped (R184), one of a chain
that poison ended gets its stamp (R183), which is suppressed once its task is aborted (R295). -/
def State.copyStart (s : State) (p m n : Nat) : State :=
  let e := s.eng m
  let cmd := e.queue.getD n {}
  let left := { e with queue := e.queue.eraseIdx n }
  match e.runs.find? fun r => r.1 == cmd.issuer with
  | some (_, r) =>
    let r' := { r with chain := r.chain ++ [cmd] }
    if r.dead || (r.poisoned && s.suppressed (copyWho m cmd.span)) then
      let s := s.modEng m fun _ => left
      if cmd.chain then s.setRun m cmd.issuer r' else s.endChain m cmd.issuer r false
    else if r.poisoned then
      match s.putStamp p m cmd (stampOf cmd.seq 1 r.pass 0xFFFFFF) false with
      | .error f => s.stampFail m cmd.issuer r cmd 0 f
      | .ok s =>
        let s := s.modEng m fun _ => left
        if cmd.chain then s.setRun m cmd.issuer r' else s.endChain m cmd.issuer r true
    else
      ((s.modEng m fun _ => { left with cur := some cmd.issuer }).setRun m cmd.issuer
        { r' with idx := r.chain.length, block := 0 }).queueStart m cmd
  | none =>
    (((s.modEng m fun _ => { left with cur := some cmd.issuer }).disarm m).setRun m cmd.issuer
      { chain := [cmd], assay := assayInit cmd.assay, inj := s.armed m }).queueStart m cmd

/-- COPY_COMMAND_START (R180): the engine reaches a command that is not a weight-store copy. -/
def execCopyCommandStart (cell : Nat) (s : State) : Out :=
  match s.graphAt cell with
  | none => .next s
  | some (p, _) =>
    if !s.cellLive cell || (s.eng cell).cur.isSome || s.portBusy cell 0x81 then .next s
    else match s.copyNext p cell with
      | none => .next s
      | some n => if ((s.eng cell).queue.getD n {}).ws then .next s else .next (s.copyStart p cell n)

/-- WEIGHT_STORE_COPY_START (R178): no placed graph of the partition loads weights from the column. -/
def execWeightStoreCopyStart (cell : Nat) (s : State) : Out :=
  match s.graphAt cell with
  | none => .next s
  | some (p, _) =>
    if !s.cellLive cell || (s.eng cell).cur.isSome || s.portBusy cell 0x81 then .next s
    else match s.copyNext p cell with
      | none => .next s
      | some n => if ((s.eng cell).queue.getD n {}).ws then .next (s.copyStart p cell n) else .next s

/-- The running chain of an engine. -/
def State.curRun (s : State) (m : Nat) : Option (Nat × CopyRun) :=
  (s.eng m).cur.bind fun i => (s.eng m).runs.find? fun r => r.1 == i

/-- A payload block of a run is done: the next block, the next command of a retry, or in pass 0 the engine is free for
another cell's command while the chain is open (R180). -/
def State.blockDone (s : State) (m issuer : Nat) (r : CopyRun) : State :=
  let k := r.chain.getD r.idx {}
  let r := { r with block := r.block + 1, ack := false }
  if 256 * r.block < k.len then s.setRun m issuer r
  else if r.pass == 0 && k.chain then (s.setRun m issuer r).modEng m fun e => { e with cur := none }
  else if r.idx + 1 < r.chain.length then
    (s.setRun m issuer { r with idx := r.idx + 1, block := 0 }).queueStart m (r.chain.getD (r.idx + 1) {})
  else s.setRun m issuer r

/-- The bytes of a payload block with an armed bit inverted (R401). -/
def flipBlock (r : CopyRun) (bs : List Byte) : List Byte :=
  match r.inj with
  | none => bs
  | some (word, bit, all) =>
    let before := (r.chain.take r.idx).foldl (fun n k => n + k.len) 0 + 256 * r.block
    let at_ := 4 * word + bit / 8
    if (all || r.pass == 0) && before ≤ at_ && at_ < before + bs.length then
      bs.set (at_ - before) (bs.getD (at_ - before) 0 ^^^ (1#8 <<< (bit % 8)))
    else bs

/-- The tokens of a payload block for a queue (R178). -/
def blockToks (r : CopyRun) (bs : List Byte) : List Token :=
  (List.range (bs.length / 64)).map fun i =>
    { kind := 0, pl := true, lmask := 0xFFFF, coord := BitVec.ofNat 32 (4 * r.block + i),
      payload := bytes512 ((bs.drop (64 * i)).take 64) }

/-- The source of the running command holds poison in the next payload block, of n bytes (R183): the destination is marked,
the copy-error event raised, and the stamps are due, which wait while its record does (R210). -/
def State.copyPoison (s : State) (p m issuer : Nat) (r : CopyRun) (cmd : CopyCmd) (n : Nat) : State :=
  let dst := mkVa (vaTensor cmd.dst) (vaOff cmd.dst + 256 * r.block)
  let marked : Except AccFail State :=
    if cmd.queue then .ok s
    else if cmd.ws then .ok { s with mem := { s.mem with wsPoison := s.mem.wsPoison ++
      (blocksOf (wsKey cmd.dst + 256 * r.block) n).filter fun b => !s.mem.wsPoison.contains b } }
    else match s.locateAll (copyWho m cmd.span) .wr (partsOf dst n) with
      | .error f => .error f
      | .ok ps =>
        if !cmd.remote && ps.any (fun q => q.2.2.1.isRem) then .error (.bad 0x05 dst)
        else .ok (ps.foldl (fun s q => s.markLoc m q.2.2.1 q.2.1) s)
  match marked with
  | .error f => s.copyFail m issuer r cmd .write (vaOff cmd.dst) r.block f
  | .ok s =>
    let own := stampOf cmd.seq 1 r.pass r.block
    let due := ((r.chain.take r.idx).map fun k => (k, stampOf k.seq 0 r.pass 0, false)) ++ (cmd, own, true) ::
      ((r.chain.drop (r.idx + 1)).map fun k => (k, stampOf k.seq 1 r.pass 0xFFFFFF, false))
    let s := s.copyError m cmd.span cmd.stampVa own 0x81
    let r := { r with poisoned := true }
    if s.errWaits m 0x81 then s.setRun m issuer { r with due := due } else s.finishChain p m issuer r due

/-- The entry that maps a chunk: the cached one, else the one in its table. -/
def State.chunkMap (s : State) (w : Who) (p tensor chunk : Nat) : Option (BitVec 64) :=
  match s.cachedEntry w.cell (s.taskFor w) tensor chunk with
  | some e => some e.1.entry
  | none => (s.walkEntry p (bayOf w.cell) tensor chunk).toOption.map (·.2)

/-- Whether a byte of a located part lies in the frames of a command's source (R177). -/
def State.inSource (s : State) (w : Who) (p : Nat) (cmd : CopyCmd) (l : Loc) (i : Nat) : Bool :=
  let lo := vaOff cmd.src
  let hit := fun (remote : Bool) (pkg frame byte : Nat) =>
    (List.range ((lo + cmd.len - 1) / 65536 - lo / 65536 + 1)).any fun j =>
      let ch := lo / 65536 + j
      match s.chunkMap w p (vaTensor cmd.src) ch with
      | some e => ceRemote e == remote && (!remote || cePkg e == pkg) && ceFrame e == frame
          && lo ≤ ch * 65536 + byte && ch * 65536 + byte < lo + cmd.len
      | none => false
  match l with
  | .hbm pa _ => hit false 0 ((pa + i) / 65536) ((pa + i) % 65536)
  | .rem pkg a => hit true pkg ((a + i) % 2 ^ 80 / 65536) ((a + i) % 65536)
  | .priv _ => false
  | .scr _ => false

/-- Which bytes of a block's destination lie in the frames of the source, through two tensors (R177). -/
def State.overlapAt (s : State) (w : Who) (p : Nat) (cmd : CopyCmd) (dst : Word) (n : Nat) : List Bool :=
  if vaTensor cmd.src == vaTensor dst || vaTensor cmd.src ≥ 0xFFFE then [] else
  match s.locateAll w .wr (partsOf dst n) with
  | .error _ => []
  | .ok ps => ps.flatMap fun q => (List.range q.2.1).map fun i => s.inSource w p cmd q.2.2.1 i

/-- The bytes that reach a block's destination: those of the overlap are free (R177, log 12). -/
def State.blurOverlap (s : State) (w : Who) (p : Nat) (cmd : CopyCmd) (dst : Word) (bs : List Byte) : List Byte × State :=
  let hits := s.overlapAt w p cmd dst bs.length
  if hits.any id then
    let r := s.freeBytes bs.length
    ((List.range bs.length).map fun i => if hits.getD i false then r.1.getD i 0 else bs.getD i 0, r.2)
  else (bs, s)

/-- COPY_PAYLOAD_BLOCK (R178, R179): one payload block is read and written, and the assay stepped. The chain of an aborted
task is discarded (R184, R295). -/
def execCopyPayloadBlock (cell : Nat) (s : State) : Out :=
  match s.curRun cell, s.graphAt cell with
  | some (issuer, r), some (p, _) =>
    let cmd := r.chain.getD r.idx {}
    let w := copyWho cell cmd.span
    let n := min 256 (cmd.len - 256 * r.block)
    let src := mkVa (vaTensor cmd.src) (vaOff cmd.src + 256 * r.block)
    let dst := mkVa (vaTensor cmd.dst) (vaOff cmd.dst + 256 * r.block)
    let mem := !cmd.queue && !cmd.ws
    let stop := fun (kind : AccKind) (f : AccFail) =>
      s.copyFail cell issuer r cmd kind (vaOff (if kind == .read then cmd.src else cmd.dst)) r.block f
    if !s.cellLive cell || r.ack || n == 0 || !r.due.isEmpty || s.engHeld cell 0x81 then .next s
    else if s.suppressed w then .next (s.discardChain cell issuer r)
    else if !cmd.remote && s.touchesRemote w .rd src n then .next (stop .read (.bad 0x05 src))
    else if !cmd.remote && mem && s.touchesRemote w .wr dst n then .next (stop .write (.bad 0x05 dst))
    else if cmd.ws && s.wsRefresh (wsOff cmd.dst + 256 * r.block) n then .next s
    else match s.readVa w src n with
      | .error (.bad 0x06 _) => .next (s.copyPoison p cell issuer r cmd n)
      | .error f => .next (stop .read f)
      | .ok (bs, s1) =>
        let bs := flipBlock r bs
        let r := { r with remoteV := r.assay, assay := assayBytes cmd.assay r.assay bs (bs.length / 4) }
        if cmd.queue then
          match (s.chanq cell cmd.dst.toNat).sendAll (blockToks r bs) with
          | none => .next s
          | some q => .next ((s1.modChanq cell cmd.dst.toNat fun _ => q).blockDone cell issuer r)
        else if cmd.ws then .next ((s1.wsWrite (wsKey cmd.dst + 256 * r.block) bs).blockDone cell issuer r)
        else
          let b := s1.blurOverlap w p cmd dst bs
          match b.2.writeSeen w dst b.1 with
          | .error f => .next (stop .write f)
          | .ok s2 =>
            if s.touchesRemote w .wr dst n then .next (s2.setRun cell issuer { r with ack := true })
            else .next (s2.blockDone cell issuer r)
  | _, _ => .next s

/-- REMOTE_BLOCK_ACK (R398): the home's running value reaches the chain slot. -/
def execRemoteBlockAck (cell : Nat) (s : State) : Out :=
  match s.curRun cell with
  | some (issuer, r) =>
    if r.ack && s.cellLive cell then .next (s.blockDone cell issuer { r with remoteV := r.assay }) else .next s
  | none => .next s

/-- CHAIN_PASS_END (R180): the assay is compared; the chain reruns, or its stamps are written in order. Stamps that are still
due are written on. The chain of an aborted task is discarded without stamps (R184, R295). -/
def execChainPassEnd (cell : Nat) (s : State) : Out :=
  match s.curRun cell, s.graphAt cell with
  | some (issuer, r), some (p, _) =>
    let k := r.chain.getD r.idx {}
    if !s.cellLive cell || s.engHeld cell 0x81 then .next s
    else if r.due.isEmpty && (k.chain || r.ack || 256 * r.block < k.len || r.idx + 1 != r.chain.length) then .next s
    else if s.suppressed (copyWho cell k.span) then .next (s.discardChain cell issuer r)
    else if !r.due.isEmpty then .next (s.finishChain p cell issuer r r.due)
    else
      let fin := fun (st : Nat) =>
        s.finishChain p cell issuer r (r.chain.map fun c => (c, stampOf c.seq st r.pass 0, false))
      if !k.last || assayFinal k.assay r.assay == k.expect then .next (fin (if r.pass == 0 then 0 else 3))
      else if r.pass == k.retry then .next (fin 2)
      else
        .next (((s.setRun cell issuer { r with
          pass := r.pass + 1, idx := 0, block := 0, assay := assayInit k.assay, remoteV := 0 }).bump cell 0x00A 1).queueStart
          cell (r.chain.getD 0 {}))
  | _, _ => .next s

/-- INJECTION_ARM (R401): PF 0 arms a flip on an M-cell's copy engine; another requester or cell gets PERM in the mailbox of the
function that asked. -/
def execInjectionArm (pf0 : Bool) (cell word bit : Nat) (all : Bool) (s : State) : Out :=
  if !s.hf.booted then .next s
  else if !pf0 || 9216 ≤ cell || kindOf cell != 0 then
    .next (s.answer 18 1)
  else .next { s with hf := { s.hf with armed := SMap.set s.hf.armed cell (word, bit % 32, all) } }

/-! ### FILL (R185, R186) -/

/-- The last checks of a FILL and its acceptance: a payload that cannot fit traps, then it waits for the tile and the
queue (R185). -/
def State.fillIssue (s : State) (i : Instr) (m : Nat) (cmd : FillCmd) (payload : Nat) : Out :=
  let t := (s.cell m).tile cmd.tile
  if t.size != 0 && payload + 8 > t.bytes then s.trapSelf 0x05 (BitVec.ofNat 64 cmd.tile) (wordOf i)
  else if t.size == 0 || t.state != 0 || (s.fillEng m).queue.length ≥ 8 then s.stay 3
  else
    ((s.modFill m fun e => { e with queue := e.queue ++ [{ cmd with seq := e.seq }], seq := seqNext e.seq }).modTile m
      cmd.tile fun t => { t with state := 1 }).done s.seq

/-- A source that COPY refuses traps PERM (R185), whatever COPY's own trap; a missing translation or a busy tile holds the
instruction. `al` is the multiple that the address must be. The command of an aborted span is accepted, as COPY's is (R295). -/
def State.fillSource (s : State) (i : Instr) (m al : Nat) (va : Word) (go : Out) : Out :=
  if vaTensor va == 0xFFFF || vaOff va % al != 0 then s.trapSelf 0x05 va (wordOf i)
  else match s.locate (probeWho (fillWho m (s.openSpan s.focus.cell)) s.focus.cell va) .rd va 1 with
    | .error (.bad _ _) => s.trapSelf 0x05 va (wordOf i)
    | .error .supp => go
    | .error f => s.seqFail i .rd va f
    | .ok _ => go

/-- FILL, contiguous (R185). -/
def execFillContiguous (a b : BitVec 5) (tile : BitVec 6) (s : State) : Out :=
  let i : Instr := .fillContiguous a b tile
  let va := s.seq.getG a
  let gb := s.seq.getG b
  let len := (gb.extractLsb' 0 32).toNat
  match s.servingCell s.focus.cell with
  | none => s.trapSelf 0x05 0 (wordOf i)
  | some m =>
    if gb.extractLsb' 32 32 != 0 || len == 0 then s.illop i
    else if len % 8 != 0 then s.trapSelf 0x03 gb (wordOf i)
    else s.fillSource i m 8 va (s.fillIssue i m
      { src := va, len := len, tile := tile.toNat, issuer := s.focus.cell, span := s.openSpan s.focus.cell } len)

/-- FILL, gather (R185, R186). -/
def execFillGather (a b c : BitVec 5) (tile : BitVec 6) (s : State) : Out :=
  let i : Instr := .fillGather a b c tile
  let va := s.seq.getG a
  let ix := s.seq.getG b
  let gc := s.seq.getG c
  let sz := (gc.extractLsb' 0 16).toNat
  let n := (gc.extractLsb' 16 16).toNat
  match s.servingCell s.focus.cell with
  | none => s.trapSelf 0x05 0 (wordOf i)
  | some m =>
    if gc.extractLsb' 32 32 != 0 || n == 0 then s.illop i
    else if sz % 8 != 0 || sz < 8 || 16384 < sz then s.trapSelf 0x03 (BitVec.ofNat 64 sz) (wordOf i)
    else s.fillSource i m 8 va (s.fillSource i m 4 ix (s.fillIssue i m
      { src := va, index := ix, gather := true, len := sz, rows := n, tile := tile.toNat, issuer := s.focus.cell,
        span := s.openSpan s.focus.cell } (n * sz)))

/-- The tag that a fill takes from a source address: format code and MXM (R185, R306). -/
def State.fillTag (s : State) (w : Who) (va : Word) : BitVec 4 × Bool :=
  let e := s.entryAt w va
  if vaTensor va ≥ 0xFFFE then (0, false) else (ceFmt e, fmtMx (ceFmt e).toNat && ceMxm e)

/-- The head command of a fill engine leaves with its progress; its tile goes to a state. -/
def State.fillPop (s : State) (m : Nat) (k : FillCmd) (st : BitVec 2) (tag : BitVec 4 × Bool) : State :=
  (s.modFill m fun e => { e with queue := e.queue.drop 1, row := 0, pos := 0, dropped := 0, fmt := none, poison := none }).modTile
    m k.tile fun t => { t with state := st, fmt := tag.1, mxm := tag.2 }

/-- A fill discarded under R184 leaves its tile EMPTY and keeps the tile's tag (R306). -/
def State.fillDrop (s : State) (m : Nat) (k : FillCmd) : State :=
  s.fillPop m k 0 (((s.cell m).tile k.tile).fmt, ((s.cell m).tile k.tile).mxm)

/-- A fill ends (R185, R183): its stamp is written after the packed payload, and the tile is READY. -/
def State.fillEnd (s : State) (p m : Nat) (k : FillCmd) (pos dropped : Nat) (poison : Option Nat) (tag : BitVec 4 × Bool) :
    State :=
  let stamp := match poison with
    | some b => stampOf k.seq 1 0 b
    | none => if dropped == 0 then stampOf k.seq 0 0 0 else stampOf k.seq 4 0 dropped
  let va := mkVa 0xFFFE (((s.cell m).tile k.tile).baseByte + pos)
  let s := s.tileWrite m k.tile pos (natLe stamp.toNat 8)
  let s := if poison.isSome then s.copyError m k.span va stamp k.port else s
  (s.fillPop m k 2 tag).stampWatch p va

/-- Marks tile bytes poisoned (R183). -/
def State.tileMark (s : State) (m n off len : Nat) : State :=
  s.markLoc m (.scr (((s.cell m).tile n).baseByte + off)) len

/-- The pattern of a contiguous fill at a faulting address (R271, R376): the source offset, payload blocks, the block. -/
def FillCmd.pattern (k : FillCmd) (va : Word) : Option (Nat × Nat × Nat) :=
  let i := (vaOff va + 2 ^ 48 - vaOff k.src) % 2 ^ 48 / 256
  if k.gather then none else some (vaOff k.src, (k.len + 255) / 256, i)

/-- What a fill's read that is not performed leaves behind (R184, R271); an undeclared one aborts the task (R304). A command of
an aborted task leaves with no stamp, its tile EMPTY (R306). -/
def State.fillStop (s : State) (w : Who) (k : FillCmd) : AccFail → State
  | .bad cause va =>
    match s.graphAt w.cell with
    | none => s
    | some (p, _) =>
      if cause == 0x04 then (s.abortFor w va).fillDrop w.cell k
      else s.reportXl p w.cell w.port (if cause == 0x06 then 6 else 3) 0 va w.span (k.pattern va)
  | .walk va => s.addWalk w va .read (k.pattern va)
  | f => s.portStop w .read f

/-- Moves the payload of a contiguous fill on from its progress, block by block, until a block is not read (R178, R185). The
last argument counts the blocks. -/
def State.fillBlocks (s : State) (w : Who) (k : FillCmd) : Nat → State × Option AccFail
  | 0 => (s, none)
  | f + 1 =>
    let pos := (s.fillEng w.cell).pos
    let n := min 256 (k.len - pos)
    if n == 0 then (s, none)
    else match s.readVa w (mkVa (vaTensor k.src) (vaOff k.src + pos)) n with
      | .error e => (s, some e)
      | .ok (bs, s) =>
        State.fillBlocks ((s.tileWrite w.cell k.tile pos bs).modFill w.cell fun e => { e with pos := pos + n }) w k f

/-- FILL_COMPLETE (R185): a contiguous fill moves its payload and writes its stamp; a gather whose rows are done writes
its stamp. The tag of a gather that packed no row is RAW (log 85). -/
def execFillComplete (cell : Nat) (s : State) : Out :=
  let e := s.fillEng cell
  match e.queue.head?, s.graphAt cell with
  | some k, some (p, _) =>
    let w := { fillWho cell k.span with port := k.port }
    if !s.cellLive cell || s.engHeld cell k.port then .next s
    else if s.suppressed w then .next (s.fillDrop cell k)
    else if k.gather then
      if e.row < k.rows && e.poison.isNone then .next s
      else .next (s.fillEnd p cell k e.pos e.dropped e.poison (e.fmt.getD (0, false)))
    else
      let e := if e.pos == 0 then { e with fmt := some (s.fillTag w k.src) } else e
      let q := (s.modFill cell fun _ => e).fillBlocks w k (k.len / 256 + 1)
      let s1 := q.1
      let tag := ((s1.fillEng cell).fmt.getD (0, false))
      match q.2 with
      | none => .next (s1.fillEnd p cell k k.len 0 none tag)
      | some (.bad 0x06 v) =>
        let b := (vaOff v + 2 ^ 48 - vaOff k.src) % 2 ^ 48 / 256
        .next ((s1.tileMark cell k.tile (256 * b) (min 256 (k.len - 256 * b))).fillEnd p cell k k.len 0 (some b) tag)
      | some f => .next (s1.fillStop w k f)
  | _, _ => .next s

/-- The bytes of a gather's backing from its base to its end (R186), none while its descriptor is to be walked (R264); those of
the scratchpad window end where the channel queues begin (R153, log 86). -/
def State.gatherExtent (s : State) (m : Nat) (va : Word) : Option Nat :=
  if vaTensor va == 0xFFFE then some ((s.cell m).queueBase - vaOff va)
  else (s.cachedDesc (bayOf m) (vaTensor va)).map fun d => d.bytes - vaOff va
/-- Whether an index drops its row: it is all ones, or its row would not lie wholly inside the backing (R186). -/
def State.rowDropped (s : State) (m : Nat) (k : FillCmd) (x : Nat) : Option Bool :=
  if x == 0xFFFFFFFF then some true else (s.gatherExtent m k.src).map fun e => (x + 1) * k.len > e

/-- The first part of a row whose chunk has another format than a tag (R185); a row in the scratchpad has none. -/
def State.rowFmtBad (s : State) (w : Who) (va : Word) (n : Nat) (tag : BitVec 4) : Option Word :=
  if vaTensor va ≥ 0xFFFE then none
  else match s.locateAll w .rd (partsOf va n) with
    | .ok ps => (ps.find? fun q => ceFmt q.2.2.2 != tag).map (·.1)
    | .error _ => none

/-- GATHER_FILL_ROW (R186): one indexed row is packed, or dropped and counted. Poison in the index list stops the port
(log 86). -/
def execGatherFillRow (cell : Nat) (s : State) : Out :=
  let e := s.fillEng cell
  match e.queue.head?, s.graphAt cell with
  | some k, some (p, _) =>
    let w := { fillWho cell k.span with port := k.port }
    let adv := fun (s : State) (pos dropped : Nat) (tag : Option (BitVec 4 × Bool)) (poison : Option Nat) =>
      s.modFill cell fun e => { e with row := e.row + 1, pos := pos, dropped := dropped, fmt := tag, poison := poison }
    if !s.cellLive cell || !k.gather || k.rows ≤ e.row || e.poison.isSome || s.engHeld cell k.port then .next s
    else if s.suppressed w then .next (s.fillDrop cell k)
    else match s.readVa w (mkVa (vaTensor k.index) (vaOff k.index + 4 * e.row)) 4 with
      | .error f => .next (s.fillStop w k f)
      | .ok (ix, s1) =>
        let x := leNat ix
        match s1.rowDropped cell k x with
        | none => .next (s.addWalk w k.src .read none true)
        | some true => .next ((adv s1 e.pos (e.dropped + 1) e.fmt none).bump cell 0x00C 1)
        | some false =>
          let src := mkVa (vaTensor k.src) (vaOff k.src + x * k.len)
          let tag := e.fmt.getD (s1.fillTag w src)
          match s1.rowFmtBad w src k.len tag.1 with
          | some v => .next (s.reportXl p cell k.port 5 0 v k.span none)
          | none =>
            match s1.readVa w src k.len with
            | .error (.bad 0x06 v) =>
              let b := (e.pos + (vaOff v - vaOff src)) / 256
              let good := 256 * b - e.pos
              let stop := min (256 * b + 256) (e.pos + k.len)
              match s1.readVa w src good with
              | .error f => .next (s.fillStop w k f)
              | .ok (bs, s2) =>
                let s2 := (s2.tileWrite cell k.tile e.pos bs).tileMark cell k.tile (256 * b) (stop - 256 * b)
                .next (adv s2 (e.pos + k.len) e.dropped (some tag) (some b))
            | .error f => .next (s.fillStop w k f)
            | .ok (bs, s2) => .next (adv (s2.tileWrite cell k.tile e.pos bs) (e.pos + k.len) e.dropped (some tag) none)
  | _, _ => .next s

/-! ### Bindings of shadow windows (R187, R188) -/

/-- WBIND or WFREE by the shadow flag of one of its tensors (R187, R188): it goes on where the flag is the wanted one and traps
PERM with the address where it is not, or in a cell-local window. While the bay's cache lacks the descriptor the instruction is
held for a walk that brings it (R261, R264, R270). -/
def State.flagged (s : State) (i : Instr) (shadow : Bool) (va : Word) (cont : Out) : Out :=
  let c := s.focus.cell
  if vaTensor va ≥ 0xFFFE then s.trapSelf 0x05 va (wordOf i)
  else match s.cachedDesc (bayOf c) (vaTensor va) with
    | none => .next ((s.setSeq { s.seq with wait := { hold := some { va := va }, stall := 1 } }).addWalk (s.seqWho c) va .read none true)
    | some d => if d.shadow == shadow then cont else s.trapSelf 0x05 va (wordOf i)

/-- Whether the chunk of an index vector has a format that WBIND takes (R187), by the entry that the issuing cell has cached; none
where it is to be walked first (R264). A row that another package owns has no entry here (log 98): the task's shard entry tells,
or with no open span the tables. -/
def State.indexFmt (s : State) (p : Nat) (ix : Word) : Option Bool :=
  let c := s.focus.cell
  let t := s.taskFor (s.seqWho c)
  match s.cachedEntry c t (vaTensor ix) (vaOff ix / 65536), t with
  | some (x, _), _ => some (!x.shadow && (ceFmt x.entry == 0 || ceFmt x.entry == 3))
  | none, some t => if (t.shardAt (vaTensor ix) (vaOff ix)).any (·.owner != s.hf.pkg.toNat) then some false else none
  | none, none => match s.walkRead p (bayOf c) (vaTensor ix) (vaOff ix) none false with
    | .ok { chunk := none, .. } => some false
    | _ => none

/-- WBIND (R187): the window's tailings restart (R322). What becomes of a bad window offset, index or backing is log 98. It waits for a free entry of the command queue (R175, log 84). -/
def execWbind (a b c : BitVec 5) (row : BitVec 10) (s : State) : Out :=
  let i : Instr := .wbind a b c row
  let win := s.seq.getG a
  let back := s.seq.getG b
  let ix := s.seq.getG c
  match s.servingCell s.focus.cell, s.partOf s.focus.cell with
  | some m, some p =>
    if vaOff win != 0 then s.illop i
    else s.flagged i true win <| s.flagged i false back <| s.flagged i false ix <| match s.indexFmt p ix with
    | none => s.seqFail i .rd ix (.walk ix)
    | some ok =>
      if !ok then s.trapSelf 0x05 ix (wordOf i)
      else if (s.eng m).full then s.stay 3
      else
      let bind : WinBind := { backing := back, index := ix, row := 8 * (row.toNat + 1) }
      ((s.bindWindow p s.focus.cell (vaTensor win) (some bind)).modPart p fun x =>
        { x with tails := SMap.set x.tails (vaTensor win) 0 }).done s.seq
  | _, _ => s.trapSelf 0x05 0 (wordOf i)

/-- WFREE (R188); of a window without a binding it has no effect. -/
def execWfree (a : BitVec 5) (s : State) : Out :=
  let i : Instr := .wfree a
  let win := s.seq.getG a
  match s.servingCell s.focus.cell, s.partOf s.focus.cell with
  | some m, some p =>
    s.flagged i true win <|
      if (s.eng m).full then s.stay 3 else (s.bindWindow p s.focus.cell (vaTensor win) none).done s.seq
  | _, _ => s.trapSelf 0x05 0 (wordOf i)

end Sys2Proof.Machine
end

