-- ==== Sys2Proof/Machine/TaskInstr.lean ====
section
/-! DEFINITION. REGION (R305), TILE (R306, R307) and STAB (R287-R289). -/

namespace Sys2Proof.Machine

/-- A failure code in bit 63's company (R305, R307). -/
def failCode (n : Nat) : Word := BitVec.ofNat 64 (2 ^ 63 + n)

/-! ### REGION -/

/-- The task of the running firing, with its partition and graph (R305). -/
def State.runTask (s : State) : Option (Nat × Graph × Task) :=
  match s.graphAt s.focus.cell, s.openSpan s.focus.cell with
  | some (p, g), some sp => (g.taskOf sp).map fun t => (p, g, t)
  | _, _ => none

/-- Whether two launches are ordered by a predecessor field (R302). -/
def launchOrdered (a b : Graph) : Bool := (a.entry.preds.any fun e => e.1 == b.lid) || b.entry.preds.any fun e => e.1 == a.lid

/-- Whether a record conflicts with a running task that is not ordered with a task (R302, R305), an update task (R319) among
them. -/
def State.addConflict (s : State) (p : Nat) (g : Graph) (t : Task) (r : BitVec 256) : Bool :=
  (s.part p).emb.any (fun e => e.2.busy && e.2.cur.isSome && regsConflict [r] (s.embRegions p e.2))
    || (s.part p).allGraphs.any fun h => h.tasks.any fun u =>
    (u.st == 1 || u.st == 2) && !(h.lid == g.lid && u.x == t.x && u.y == t.y)
      && !(if h.lid == g.lid then g.reaches (u.x, u.y) 4096 [(t.x, t.y)] || g.reaches (t.x, t.y) 4096 [(u.x, u.y)]
        else launchOrdered g h)
      && regsConflict [r] u.regions

/-- REGION.ADD (R305). -/
def execRegionAdd (d a : BitVec 5) (s : State) : Out :=
  let i : Instr := .regionAdd d a
  let va := vaPlus (s.seq.getG a) 0
  let c := s.focus.cell
  match s.runTask with
  | none => s.illop i
  | some (p, g, t) =>
    if va.toNat % 8 != 0 then s.trapSelf 0x03 va (wordOf i)
    else match s.readVa (s.seqWho c) va 32 with
      | .error f => s.seqFail i .rd va f
      | .ok (bs, s1) =>
        match s1.instRegion p (bayOf c) (BitVec.ofNat 256 (leNat bs)) t.x t.y with
        | none => s.illop i
        | some r =>
          if t.regions.length ≥ 16 then s1.doneG d (failCode 1)
          else if s1.addConflict p g t r then s1.doneG d (failCode 2)
          else match s1.takeLeases p (g.leaseList [r]) with
            | .error (none, _) => s.stay 3
            | .error (some f, v) =>
              let s := s.reportXl p c 0x80 f 0 v (s.openSpan c) none
              .next (s.setSeq { s.seq with wait := { hold := some { va := v, stopped := true }, stall := 1 } })
            | .ok (ls, s2) =>
              (s2.modGraph p g.lid fun g => g.modTask t.x t.y fun t =>
                { t with regions := t.regions ++ [r], leases := t.leases ++ ls }).doneG d (BitVec.ofNat 64 t.regions.length)

/-- The leases of a task that no record covers are released (R268, R305). -/
def State.dropUncovered (s : State) (p lid x y : Nat) : State :=
  match s.graph p lid with
  | none => s
  | some g =>
    match g.task x y with
    | none => s
    | some t =>
      let kept := fun (l : LeaseEnt) => t.regions.any fun r => rgTensor r == l.tensor && (rgChunks r).contains l.chunk
      ((t.leases.filter fun l => !kept l).foldl State.dropLease s).modGraph p lid fun g =>
        g.modTask x y fun t => { t with leases := t.leases.filter kept }

/-- REGION.SHRINK (R305). -/
def execRegionShrink (a b : BitVec 5) (s : State) : Out :=
  let i : Instr := .regionShrink a b
  let ga := s.seq.getG a
  let gb := s.seq.getG b
  match s.runTask with
  | none => s.illop i
  | some (p, g, t) =>
    let k := (ga.extractLsb' 0 4).toNat
    let n := gb.extractLsb' 0 40
    match t.regions[k]? with
    | none => s.illop i
    | some r =>
      if ga.extractLsb' 4 60 != 0 || gb.extractLsb' 40 24 != 0 || rgKind r != 0 || n.toNat > rgExtent r then s.illop i
      else
        let r' := (r &&& ~~~((0xFFFFFFFFFF#256) <<< 64)) ||| (n.zeroExtend 256 <<< 64)
        let s := s.modGraph p g.lid fun g => g.modTask t.x t.y fun t =>
          { t with regions := if n == 0 then t.regions.eraseIdx k else t.regions.set k r' }
        let s := s.dropUncovered p g.lid t.x t.y
        s.done s.seq

/-- REGION.QUERY (R305). -/
def execRegionQuery (d a : BitVec 5) (w : BitVec 2) (s : State) : Out :=
  let i : Instr := .regionQuery d a w
  let ga := s.seq.getG a
  match s.runTask with
  | none => s.illop i
  | some (_, _, t) =>
    if ga.extractLsb' 4 60 != 0 then s.illop i
    else match t.regions[(ga.extractLsb' 0 4).toNat]? with
      | none => s.doneG d (BitVec.allOnes 64)
      | some r => s.doneG d (rgWord r w.toNat)

/-! ### TILE -/

/-- The serving M-cell and tile number of a TILE instruction, or its trap (R173, R307). -/
def State.tileOp (s : State) (i : Instr) (a : BitVec 5) (go : Nat → Nat → Out) : Out :=
  match s.servingCell s.focus.cell with
  | none => s.trapSelf 0x05 0 (wordOf i)
  | some m => if (s.seq.getG a).extractLsb' 6 58 != 0 then s.illop i else go m ((s.seq.getG a).extractLsb' 0 6).toNat

/-- The lowest 64-aligned offset of tile storage with room for a size that meets no sized tile (R307). -/
def Cell.tileRoom (x : Cell) (size : Nat) : Option Nat :=
  let sized := x.m.tiles.filter fun e => e.2.size != 0
  let free := fun (o : Nat) => o + size ≤ x.queueBase
    && sized.all fun e => o + size ≤ e.2.baseByte || e.2.baseByte + e.2.bytes ≤ o
  ((0 :: sized.map fun e => e.2.baseByte + e.2.bytes).filter free).foldl
    (fun best o => match best with
      | none => some o
      | some b => some (min b o)) none

/-- TILE.CLAIM (R307). -/
def execTileClaim (d a b : BitVec 5) (s : State) : Out :=
  let i : Instr := .tileClaim d a b
  let size := s.seq.getG b
  s.tileOp i a fun m n =>
    let t := (s.cell m).tile n
    if size.toNat % 64 != 0 then s.trapSelf 0x03 size (wordOf i)
    else if size == 0 || size.toNat > 0x40000 then s.illop i
    else if t.state != 0 || t.size != 0 then s.doneG d (failCode 1)
    else match (s.cell m).tileRoom size.toNat with
      | none => s.doneG d (failCode 2)
      | some o =>
        (s.modTile m n fun t => { t with base := BitVec.ofNat 12 (o / 64), size := BitVec.ofNat 13 (size.toNat / 64) }).doneG d 0

/-- TILE.READY (R307). -/
def execTileReady (d a b : BitVec 5) (s : State) : Out :=
  let i : Instr := .tileReady d a b
  let v := s.seq.getG b
  let f := v.extractLsb' 0 4
  s.tileOp i a fun m n =>
    let t := (s.cell m).tile n
    if f == 15 || v.extractLsb' 5 59 != 0 || (v.getLsbD 4 && !fmtMx f.toNat) then s.illop i
    else if t.state != 0 || t.size == 0 then s.doneG d (failCode 1)
    else (s.modTile m n fun t => { t with fmt := f, mxm := v.getLsbD 4, state := 2 }).doneG d 0

/-- TILE.DRAIN (R307). -/
def execTileDrain (d a : BitVec 5) (s : State) : Out :=
  s.tileOp (.tileDrain d a) a fun m n =>
    if ((s.cell m).tile n).state != 2 then s.doneG d (failCode 1)
    else (s.modTile m n fun t => { t with state := 3 }).doneG d 0

/-- TILE.FREE (R307). -/
def execTileFree (d a : BitVec 5) (s : State) : Out :=
  s.tileOp (.tileFree d a) a fun m n =>
    let t := (s.cell m).tile n
    if t.state != 0 || t.size == 0 then s.doneG d (failCode 1)
    else (s.modTile m n fun t => { t with size := 0 }).doneG d 0

/-- TILE.QUERY (R307). -/
def execTileQuery (d a : BitVec 5) (s : State) : Out :=
  s.tileOp (.tileQuery d a) a fun m n => s.doneG d (tileEntry ((s.cell m).tile n))

/-! ### The memory sequencer's table -/

/-- Fields of a state (R287). -/
def msAct (e : BitVec 256) : Nat := (e.extractLsb' 0 3).toNat
def msTile (e : BitVec 256) : Nat := (e.extractLsb' 3 6).toNat
def msMx (e : BitVec 256) : Bool := e.getLsbD 9
def msEor (e : BitVec 256) : Bool := e.getLsbD 10
def msC0 (e : BitVec 256) : BitVec 8 := e.extractLsb' 12 8
def msN0 (e : BitVec 256) : BitVec 6 := e.extractLsb' 20 6
def msC1 (e : BitVec 256) : BitVec 8 := e.extractLsb' 26 8
def msN1 (e : BitVec 256) : BitVec 6 := e.extractLsb' 34 6
def msInc (e : BitVec 256) : BitVec 2 := e.extractLsb' 40 2
def msClr (e : BitVec 256) : BitVec 2 := e.extractLsb' 42 2
def msBase (e : BitVec 256) : Word := e.extractLsb' 64 64
def msLen (e : BitVec 256) : Nat := (e.extractLsb' 128 32).toNat
def msStride (e : BitVec 256) : Nat := (e.extractLsb' 160 32).toNat
def msLim0 (e : BitVec 256) : BitVec 32 := e.extractLsb' 192 32
def msLim1 (e : BitVec 256) : BitVec 32 := e.extractLsb' 224 32

/-- Whether a condition byte is assigned (R288). -/
def msCondOk (b : BitVec 8) : Bool :=
  let t := b.extractLsb' 0 4
  let o := b.extractLsb' 4 4
  t.toNat < 8 && (if t == 6 || t == 7 then o.toNat < 8 else o == 0)
/-- Whether a state has no unassigned or reserved value (R287, R289). -/
def msOk (e : BitVec 256) : Bool :=
  msAct e < 6 && !e.getLsbD 11 && e.extractLsb' 44 20 == 0 && msCondOk (msC0 e) && msCondOk (msC1 e)
    && (msAct e == 0 || msAct e == 5 || (msLen e % 64 == 0 && msLen e != 0))

/-- A state is entered: its CLR applies and its action starts; HALT has none (R287, R288). -/
def MemSeq.enter (k : MemSeq) (n : BitVec 6) : MemSeq :=
  let e := SMap.get 0 k.table n.toNat
  { k with
    cur := n
    cnt0 := if (msClr e).getLsbD 0 then 0 else k.cnt0
    cnt1 := if (msClr e).getLsbD 1 then 0 else k.cnt1
    busy := msAct e != 0, halted := msAct e == 0, prog := 0, issued := false, ended := false }

/-- The entries of a byte list, 32 bytes each. The last argument counts them. -/
def msEntries (bs : List Byte) : Nat → List (BitVec 256)
  | 0 => []
  | n + 1 => BitVec.ofNat 256 (leNat (bs.take 32)) :: msEntries (bs.drop 32) n

/-- The entries that a STAB has read are written once the memory sequencer has no action in progress; until then it waits with
them. `v` is its g[b]. -/
def State.stabWrite (s : State) (c first : Nat) (v : Word) (es : List (BitVec 256)) : Out :=
  if (s.cell c).m.ms.busy then .next (s.setSeq { s.seq with wait := { stab := some es, stall := 3 } })
  else
    let put := fun (k : MemSeq) =>
      let k := { k with table := es.zipIdx.foldl (fun m e => SMap.set m (first + e.2) e.1) k.table }
      if v.getLsbD 22 then { k with cnt0 := 0, cnt1 := 0 }.enter (v.extractLsb' 16 6) else k
    let s := s.modCell c fun x => { x with m := { x.m with ms := put x.m.ms } }
    s.done s.seq

/-- STAB (R289). -/
def execStab (a b : BitVec 5) (s : State) : Out :=
  let i : Instr := .stab a b
  let c := s.focus.cell
  let v := s.seq.getG b
  let first := (v.extractLsb' 0 6).toNat
  let count := (v.extractLsb' 8 7).toNat
  let va := vaPlus (s.seq.getG a) 0
  if kindOf c != 0 || v.extractLsb' 6 2 != 0 || v.getLsbD 15 || v.extractLsb' 23 41 != 0 || count == 0 || count > 64
      || first + count > 64 then s.illop i
  else if va.toNat % 8 != 0 then s.trapSelf 0x03 va (wordOf i)
  else match s.seq.wait.stab with
    | some es => s.stabWrite c first v es
    | none => match s.readVa (s.seqWho c) va (32 * count) with
      | .error f => s.seqFail i .rd va f
      | .ok (bs, s1) =>
        let es := msEntries bs count
        match es.findIdx? fun e => !msOk e with
        | some k => s.trapSelf 0x01 (BitVec.ofNat 64 (first + k)) (wordOf i)
        | none => s1.stabWrite c first v es

end Sys2Proof.Machine
end

