-- ==== Sys2Proof/Machine/MemSequencer.lean ====
section
/-! DEFINITION. The memory sequencer of an M-cell (R287, R288) and the end of a tile's drain (R306). -/

namespace Sys2Proof.Machine

def State.ms (s : State) (c : Nat) : MemSeq := (s.cell c).m.ms
def State.modMs (s : State) (c : Nat) (f : MemSeq → MemSeq) : State :=
  s.modCell c fun x => { x with m := { x.m with ms := f x.m.ms } }

/-- The current state's entry. -/
def MemSeq.entry (k : MemSeq) : BitVec 256 := SMap.get 0 k.table k.cur.toNat
/-- The address that FILL and DRAIN use (R287). -/
def MemSeq.va (k : MemSeq) : Word :=
  mkVa (vaTensor (msBase k.entry)) (vaOff (msBase k.entry) + k.cnt0.toNat * msStride k.entry)

/-- A status line (R288). -/
def State.msLine (s : State) (c : Nat) (n : Nat) : Bool :=
  let k := s.ms c
  let t := (s.cell c).tile (msTile k.entry)
  let head := fun (kind : BitVec 4) => (k.inq.head?.map (·.kind)) == some kind
  match n with
  | 0 => t.size != 0 && t.state == 2
  | 1 => t.state == 0
  | 2 => head 3
  | 3 => head 4
  | 4 => head 2
  | 5 => (s.eng c).queue.isEmpty && (s.eng c).cur.isNone
  | 6 => (s.fillEng c).queue.isEmpty
  | _ => k.out.isEmpty

/-- Whether a condition byte holds (R288). -/
def State.msCond (s : State) (c : Nat) (b : BitVec 8) : Bool :=
  let k := s.ms c
  let line := s.msLine c (b.extractLsb' 4 4).toNat
  match (b.extractLsb' 0 4).toNat with
  | 1 => true
  | 2 => k.cnt0 == msLim0 k.entry
  | 3 => k.cnt0 != msLim0 k.entry
  | 4 => k.cnt1 == msLim1 k.entry
  | 5 => k.cnt1 != msLim1 k.entry
  | 6 => line
  | 7 => !line
  | _ => false

/-- MS_TRANSITION (R288): with the action complete, C0 then C1 is tested; HALT is left by STAB only. -/
def execMsTransition (cell : Nat) (s : State) : Out :=
  let k := s.ms cell
  let e := k.entry
  if !s.cellLive cell || k.busy || k.halted || msAct e == 0 || s.errWaits cell 0x84 then .next s
  else if s.msCond cell (msC0 e) then .next (s.modMs cell fun k => k.enter (msN0 e))
  else if s.msCond cell (msC1 e) then .next (s.modMs cell fun k => k.enter (msN1 e))
  else .next s

/-- The memory sequencer as an issuer (R193). -/
def State.msWho (s : State) (c : Nat) : Who :=
  let k := s.ms c
  { cell := c, span := k.span, port := 0x84, cls := if msMx k.entry then .mtx else .strm }

/-- The current action is complete: INC is applied (R287). -/
def State.msDone (s : State) (c : Nat) : State :=
  s.modMs c fun k =>
    let i := msInc k.entry
    { k with
      busy := false
      cnt0 := if i.getLsbD 0 then k.cnt0 + 1 else k.cnt0
      cnt1 := if i.getLsbD 1 then k.cnt1 + 1 else k.cnt1 }

/-- The memory sequencer stops as a faulting port (R271, R287). -/
def State.msStop (s : State) (p c cls kind : Nat) (va : Word) : State := s.reportXl p c 0x84 cls kind va (s.ms c).span none

/-- A piece of a PUSH as a token (R287). -/
def msPiece (n : Nat) (bs : List Byte) : Token :=
  { kind := 0, pl := true, lmask := 0xFFFF, coord := BitVec.ofNat 32 n, payload := bytes512 bs }

/-- A step of PUSH (R287): one piece, or the closing EOR; complete when the last token has left. The pieces of an aborted task
are free (R295, log 23). -/
def State.msPush (s : State) (p c : Nat) : State :=
  let k := s.ms c
  let e := k.entry
  let x := s.cell c
  let t := x.tile (msTile e)
  let pieces := msLen e / 64
  let total := pieces + if msEor e then 1 else 0
  if !k.out.isEmpty then s
  else if total ≤ k.prog then s.msDone c
  else if k.prog == pieces then s.modMs c fun k => { k with out := [tkEor], prog := k.prog + 1 }
  else if s.suppressed (s.msWho c) then
    let f := s.freeBytes 64
    f.2.modMs c fun k => { k with out := [msPiece k.prog f.1], prog := k.prog + 1 }
  else if t.size == 0 || !(t.state == 2 || (t.state == 3 && k.prog != 0)) then s
  else if msLen e > t.bytes then s.msStop p c 4 0 (mkVa 0xFFFE t.baseByte)
  else match x.tilePoison (msTile e) (64 * k.prog) 64 with
    | some o => s.msStop p c 6 0 (mkVa 0xFFFE o)
    | none =>
      s.modMs c fun k => { k with out := [msPiece k.prog (x.tileBytes (msTile e) (64 * k.prog) 64)], prog := k.prog + 1 }

/-- An ACCEPT is complete: its tile is READY (R306). -/
def State.msAccepted (s : State) (c : Nat) : State :=
  let e := (s.ms c).entry
  (s.modTile c (msTile e) fun t => { t with state := 2, fmt := if msMx e then 5 else 0, mxm := false }).msDone c

/-- A step of ACCEPT (R287): the tile is taken, then one token of ms.i. -/
def State.msAccept (s : State) (p c : Nat) : State :=
  let k := s.ms c
  let e := k.entry
  let t := (s.cell c).tile (msTile e)
  if !k.issued then
    if t.size == 0 || t.state != 0 then s
    else if msLen e > t.bytes then s.msStop p c 4 1 (mkVa 0xFFFE t.baseByte)
    else (s.modTile c (msTile e) fun t => { t with state := 1 }).modMs c fun k => { k with issued := true }
  else match k.inq.head? with
    | none => s
    | some tok =>
      let took := fun (s : State) =>
        (s.modMs c fun k => { k with inq := k.inq.drop 1, span := spanAfter k.span tok }).sinkToken c 19 tok
      if tok.kind == 0 then
        let s := took (s.tileStore (s.msWho c) (msTile e) k.prog (bytesOf512 tok.payload 64))
        let s := s.modMs c fun k => { k with prog := k.prog + 64 }
        if msLen e ≤ k.prog + 64 then s.msAccepted c else s
      else if !k.out.isEmpty then s
      else
        let s := (took s).modMs c fun k => { k with out := [tok] }
        if tok.kind == 5 || tok.kind == 4 || tok.kind == 2 then s.msAccepted c else s

/-- A step of FILL (R185, R287): a contiguous fill is queued; complete when it has written its stamp or was discarded. -/
def State.msFill (s : State) (p c : Nat) : State :=
  let k := s.ms c
  let e := k.entry
  let t := (s.cell c).tile (msTile e)
  if k.issued then (if (s.fillEng c).queue.any fun f => f.ms then s else s.msDone c)
  else if vaTensor k.va == 0xFFFF || vaOff k.va % 8 != 0 then s.msStop p c 3 0 k.va
  else if t.size == 0 || t.state != 0 || (s.fillEng c).queue.length ≥ 8 then s
  else if msLen e + 8 > t.bytes then s.msStop p c 3 0 k.va
  else
    let seq := (s.fillEng c).seq
    let cmd : FillCmd := { src := k.va, len := msLen e, tile := msTile e, seq := seq, issuer := c, span := k.span, ms := true }
    ((s.modFill c fun f => { f with queue := f.queue ++ [cmd], seq := seqNext f.seq }).modTile c (msTile e) fun t =>
      { t with state := 1 }).modMs c fun k => { k with issued := true }

/-- A step of DRAIN (R287): the tile is taken, then its bytes are written. Of an aborted task nothing is read or written
(R295). -/
def State.msDrain (s : State) (p c : Nat) : State :=
  let k := s.ms c
  let e := k.entry
  let x := s.cell c
  let t := x.tile (msTile e)
  if s.suppressed (s.msWho c) then
    (if t.size == 0 || t.state != 2 then s else s.modTile c (msTile e) fun t => { t with state := 3 }).msDone c
  else if !k.issued then
    if t.size == 0 || t.state != 2 then s
    else if msLen e > t.bytes then s.msStop p c 4 1 (mkVa 0xFFFE t.baseByte)
    else (s.modTile c (msTile e) fun t => { t with state := 3 }).modMs c fun k => { k with issued := true }
  else match x.tilePoison (msTile e) 0 (msLen e) with
    | some o => s.msStop p c 6 0 (mkVa 0xFFFE o)
    | none =>
      match s.writeStrm (s.msWho c) [(k.va, x.tileBytes (msTile e) 0 (msLen e))] with
      | .error s' => s'
      | .ok s' => s'.msDone c

/-- MS_ACTION_COMPLETE (R287): the running action takes its next step, and completes with its last. -/
def execMsActionComplete (cell : Nat) (s : State) : Out :=
  match s.graphAt cell with
  | none => .next s
  | some (p, _) =>
    let k := s.ms cell
    if !s.cellLive cell || !k.busy || s.engHeld cell 0x84 then .next s
    else match msAct k.entry with
      | 1 => .next (s.msPush p cell)
      | 2 => .next (s.msAccept p cell)
      | 3 => .next (s.msFill p cell)
      | 4 => .next (s.msDrain p cell)
      | _ => .next (s.msDone cell)

/-- Whether a D-cell beside an M-cell loads weights from one of its tiles (R141, R306). -/
def State.tileLoading (s : State) (c tile : Nat) : Bool :=
  (List.range 4).any fun d => match neighbour c d with
    | none => false
    | some n => kindOf n == 2 && (s.cell n).mx.load.isSome && match decodeOp ((s.cell n).block 23).word with
      | some (.instr (.mload src dir t _ _)) => src == 0 && t.toNat == tile && neighbour n dir.toNat == some c
      | _ => false

/-- TILE_DRAIN_COMPLETE (R306): a DRAINING tile becomes EMPTY once the accesses begun while it was READY are done. -/
def execTileDrainComplete (cell tile : Nat) (s : State) : Out :=
  let k := s.ms cell
  let mine := k.busy && msTile k.entry == tile
  let held := mine && ((msAct k.entry == 4 && k.issued) || (msAct k.entry == 1 && k.prog != 0))
  if !s.cellLive cell || ((s.cell cell).tile tile).state != 3 || held || s.tileLoading cell tile then .next s
  else .next (s.modTile cell tile fun t => { t with state := 0 })

end Sys2Proof.Machine
end

