-- ==== Sys2Proof/Machine/Parking.lean ====
section
/-! DEFINITION. The wait queue of parked tokens and the fetches that it starts (R310, R311, R313, R314): what admission, the end
of a fetch and the end of a launch share. -/

namespace Sys2Proof.Machine

/-- The fetch progress of an expert. -/
def Experts.at (q : Experts) (x : Nat) : XpProg := SMap.get {} q.prog x
/-- Changes the expert state of a partition: where it is swapped out, the saved one (R329). -/
def State.modXp (s : State) (p : Nat) (f : Experts → Experts) : State :=
  if (s.part p).swapped then
    { s with caisson := s.caisson.map fun (e : Nat × Option Caisson) =>
        (e.1, if e.1 == p then e.2.map fun k => { k with part := { k.part with xp := f k.part.xp } } else e.2) }
  else s.modPart p fun q => { q with xp := f q.xp }
def State.modProg (s : State) (p x : Nat) (f : XpProg → XpProg) : State :=
  s.modXp p fun e => { e with prog := SMap.set e.prog x (f (e.at x)) }

/-- A fetch is requested (R310): the entry is FETCHING and waits for a slot in its turn, from its first frame (R311). -/
def State.xpRequest (s : State) (p x : Nat) : State :=
  ((s.modErt p x fun e => { e with state := 1, req := false }).modProg p x fun k => { k with refetch := none, frames := 0 }).modXp p
    fun e => { e with reqs := e.reqs ++ [x] }
/-- A demand on an ABSENT expert starts a fetch; where FAIL is set it clears FAIL and the error count (R311). -/
def State.xpDemand (s : State) (p x : Nat) : State :=
  let e := s.ert p x
  if e.state != 0 then s
  else if e.fail then ((s.modErt p x fun e => { e with fail := false }).modProg p x fun k => { k with errs := 0 }).xpRequest p x
  else s.xpRequest p x

/-- A list cut into runs of 32. The second argument is fuel. -/
def runs32 {α : Type} (l : List α) : Nat → List (List α)
  | 0 => []
  | f + 1 => if l.isEmpty then [] else l.take 32 :: runs32 (l.drop 32) f

/-- A task of an expert joins a launch's creation list (R297, R312); LEASE rises and LAST is set. -/
def State.addTile (s : State) (p lid x y xid : Nat) (toks : List (BitVec 32)) : State :=
  (s.modGraph p lid fun g =>
    { g with tasks := g.tasks ++ [{ x := x, y := y, xid := some xid, toks := toks }], named := g.named ++ [(x, y)] }).modErt p xid
    fun e => { e with lease := e.lease + 1, last := s.tbase }

/-- Parked tokens of one launch become tasks (R314): (2048 + k, y), y the record of the first token. -/
def State.formTiles (s : State) (p xid lid : Nat) (l : List Parked) : State :=
  (runs32 l l.length).foldl (fun s r =>
    let y := (r.head?.map (·.ri)).getD 0
    let k := match s.graphAny p lid with
      | some g => (g.named.filter fun n => n.2 == y && n.1 ≥ 2048).length
      | none => 0
    s.addTile p lid (2048 + k) y xid (r.map (·.tok))) s

/-- Tokens leave the wait queue as tasks (R314); those of one launch form tasks together (log 33). -/
def State.releaseToks (s : State) (p xid : Nat) (l : List Parked) : State :=
  (l.map (·.lid)).eraseDups.foldl (fun s lid => (s.formTiles p xid lid (l.filter fun k => k.lid == lid)).depAbort p lid) s

/-- Room left for parked tokens: 65,536 places, then the spill area, which creation lists share at 16 bytes a task; a
spilled token takes 16 bytes (log 34). -/
def Part.parkRoom (q : Part) : Nat :=
  let listed := (q.allGraphs.filter fun g => g.entry.ragged.isSome).foldl
    (fun n g => n + (g.tasks.filter fun t => !t.ended).length) 0
  65536 + (q.cfg.spillSize.toNat / 16 - listed) - q.xp.parked.length

/-- Tokens of admissions whose expert is RESIDENT leave as tasks; the others enter the wait queue while it has room, in order
(R313). The last argument is fuel. -/
def State.parkMore (s : State) (p : Nat) : Nat → State
  | 0 => s
  | f + 1 =>
    let q := s.part p
    match q.xp.blocked.find? fun k => (s.ert p k.xid).state == 2 with
    | some k =>
      let same := q.xp.blocked.filter fun j => j.xid == k.xid
      let s := s.modXp p fun e => { e with blocked := e.blocked.filter fun j => j.xid != k.xid }
      (s.releaseToks p k.xid same).parkMore p f
    | none => match q.xp.blocked with
      | [] => s
      | k :: rest =>
        if q.parkRoom == 0 then s
        else
          let s := (s.modXp p fun e => { e with blocked := rest, parked := e.parked ++ [k] }).modErt p k.xid
            fun e => { e with wait := e.wait + 1 }
          ((s.bumpPart p 0x01A 1).xpDemand p k.xid).parkMore p f
/-- Entries have left the wait queue or a creation list: admissions that wait for room go on (R313). -/
def State.unblock (s : State) (p : Nat) : State := s.parkMore p (s.part p).xp.blocked.length

/-- The parked tokens of a launch leave with it; WAIT of their experts and the count of parked tokens fall (R309, R322). -/
def State.dropParked (s : State) (p lid : Nat) : State :=
  let q := s.part p
  let gone := q.xp.parked.filter fun k => k.lid == lid
  let s := gone.foldl (fun s k => s.modErt p k.xid fun e => { e with wait := e.wait - 1 }) s
  let xp : Experts :=
    { q.xp with
      parked := q.xp.parked.filter (fun k => k.lid != lid)
      blocked := q.xp.blocked.filter (fun k => k.lid != lid) }
  s.modPart p fun q => { q with xp := xp, cnt := SMap.set q.cnt 0x01A (SMap.get 0 q.cnt 0x01A - BitVec.ofNat 32 gone.length) }

end Sys2Proof.Machine
end

