-- ==== Sys2Proof/Machine/Order.lean ====
section
/-! DEFINITION. Scopes (R198), FENCE (R201), XFENCE (R203), the widening of ABUT (R204), and barriers (R327). -/

namespace Sys2Proof.Machine

/-- Whether a scope reaches writes of kind UN (R195). -/
def wideScope (scope : BitVec 3) : Bool := 4 ≤ scope.toNat

/-- What a scope reaches of the dirty bytes of a cell's cache goes to its die, and of a die's cache to HBM. -/
def State.cellOut (s : State) (wide : Bool) (c : Nat) : State :=
  ((s.cell c).dc.map (·.1)).foldl (fun s ln => s.cellRelease wide c ln) s
def State.dieOut (s : State) (wide : Bool) (d : Nat) : State :=
  ((s.dieCache d).map (·.1)).foldl (fun s ln => s.dieRelease wide d ln) s
/-- The lines of a cell's cache and of a die's cache are refreshed. -/
def State.cellIn (s : State) (wide : Bool) (c : Nat) : State :=
  ((s.cell c).dc.map (·.1)).foldl (fun s ln => s.cellRefresh wide c ln) s
def State.dieIn (s : State) (wide : Bool) (d : Nat) : State :=
  ((s.dieCache d).map (·.1)).foldl (fun s ln => s.dieRefresh wide d ln) s

/-- The release of a FENCE (R201): dirty lines of the cell's cache go to its die's cache, and past one bay on to HBM. What
its graph wrote on another die stands in HBM since the move (R286, log 81). -/
def State.release (s : State) (c : Nat) (scope : BitVec 3) : State :=
  if scope == 0 then s
  else
    let s := s.cellOut (wideScope scope) c
    if scope == 1 then s else s.dieOut (wideScope scope) (dieOf c)

/-- The acquire of a FENCE (R201, R408): what the scope reaches of the cell's dirty bytes is written back; past one bay the lines
of its die are refreshed, and then those of the cell, so that a line which stays for other dirty bytes is read again from a
fresh one (R196). -/
def State.acquire (s : State) (c : Nat) (scope : BitVec 3) : State :=
  if scope == 0 then s
  else
    let s := s.cellOut (wideScope scope) c
    let s := if scope == 1 then s else s.dieIn (wideScope scope) (dieOf c)
    s.cellIn (wideScope scope) c

/-- FENCE kind=REL (R201). -/
def execFenceRel (scope : BitVec 3) (s : State) : Out :=
  if scope == 7 then s.illop (.fenceRel scope)
  else let s := s.release s.focus.cell scope; s.done s.seq

/-- FENCE kind=ACQ (R201). -/
def execFenceAcq (scope : BitVec 3) (s : State) : Out :=
  if scope == 7 then s.illop (.fenceAcq scope)
  else let s := s.acquire s.focus.cell scope; s.done s.seq

/-- FENCE kind=FULL (R201). -/
def execFenceFull (scope : BitVec 3) (s : State) : Out :=
  if scope == 7 then s.illop (.fenceFull scope)
  else let s := (s.release s.focus.cell scope).acquire s.focus.cell scope; s.done s.seq

/-- Whether a class code selects the SEQ class (R73). -/
def selectsSeq (cls : BitVec 3) : Bool := cls == 0 || cls == 6

/-- Writes of a class that cells and dies hold are made visible at a scope to every class, and the view of another class is
refreshed there (R203, R204). The writes of every class but SEQ stand in the die caches. Every die writes back before any is
refreshed, so that a line which stays for other dirty bytes shows every covered write. `up` are cells outside the scope whose
writes are covered too. -/
def State.widen (s : State) (c : Nat) (scope cls dst : BitVec 3) (up : List Nat) : State :=
  let wide := wideScope scope
  let cells := s.scopeCells c scope
  let dies := s.scopeDies c scope
  let s := if selectsSeq cls then (cells ++ up).foldl (fun s x => s.cellOut wide x) s else s
  let s := ((List.range 4).filter fun d => dies.contains d || up.any fun x => dieOf x == d).foldl (fun s d => s.dieOut wide d) s
  let s := dies.foldl (fun s d => s.dieIn wide d) s
  if selectsSeq dst then cells.foldl (fun s x => s.cellIn wide x) s else s

/-- XFENCE (R203): the markers leave; the fence completes by XFENCE_COMPLETE. -/
def execXfence (dst frm scope : BitVec 3) (s : State) : Out :=
  if scope == 7 || frm.toNat > 5 || dst.toNat > 5 then s.illop (.xfence dst frm scope)
  else .next (s.setSeq { s.seq with wait := { xfence := some (frm, dst, scope) } })

/-- XFENCE_COMPLETE (R203): every engine has acknowledged its marker; the next instruction may issue. -/
def execXfenceComplete (cell : Nat) (s : State) : Out :=
  match (s.seqAt cell).wait.xfence with
  | none => .next s
  | some (frm, dst, scope) =>
    if !s.mayAnswer cell then .next s
    else
      let s := s.widen cell scope frm dst []
      let s := if frm == 0 && dst == 4 then s.bindFence cell scope else s
      .next (s.setSeqAt cell (s.seqAt cell).stepPc)

/-- Whether g[a] of BAR names a subgroup of the graph's rectangle that holds the cell (R327). -/
def subgroupOk (g : Graph) (c : Nat) (v : Word) : Bool :=
  let x0 := (v.extractLsb' 0 7).toNat
  let y0 := (v.extractLsb' 8 7).toNat
  let w := 2 ^ (v.extractLsb' 16 3).toNat
  let h := 2 ^ (v.extractLsb' 20 3).toNat
  v &&& ~~~0x77_7F7F#64 == 0 && x0 % w == 0 && y0 % h == 0 && x0 + w ≤ 8 * g.w && y0 + h ≤ 8 * g.h
    && inRect (g.rel c) (x0, y0, w, h)

/-- The barrier entry of a subgroup, or the first free one of sixteen (R327). -/
def Graph.barrierEntry (g : Graph) (grp : Word) : Option Nat :=
  let e := fun k => SMap.get {} g.barriers k
  match (List.range 16).find? fun k => (e k).used && (e k).grp == grp with
  | some k => some k
  | none => (List.range 16).find? fun k => !(e k).used

/-- A BAR whose generation has changed completes: ARR clears and it acquires (R327). -/
def State.barDone (s : State) (c : Nat) (scope : BitVec 3) : State :=
  let s := s.acquire c scope
  let q := s.seqAt c
  s.setSeqAt c { q with barst := { q.barst with arr := false } }.stepPc

/-- BAR (R327). -/
def execBar (a b : BitVec 5) (scope : BitVec 3) (s : State) : Out :=
  let c := s.focus.cell
  let i : Instr := .bar a b scope
  let v := s.seq.getG a
  let n := s.seq.getG b
  match s.graphAt c with
  | none => s.illop i
  | some (p, g) =>
    if scope == 7 || n.extractLsb' 16 48 != 0 || n == 0 || !subgroupOk g c v then s.illop i
    else
      let wait := fun (s : State) (e : Nat) (gen : BitVec 16) =>
        let cur := match s.graph p g.lid with
          | some g => (SMap.get {} g.barriers e).gen
          | none => gen
        if cur != gen then Host.Outcome.next (s.barDone c scope)
        else Host.Outcome.next (s.setSeqAt c { s.seqAt c with wait := { bar := some scope } })
      if s.seq.barst.arr then wait s s.seq.barst.entry.toNat s.seq.barst.gen
      else
        let s := s.release c scope
        match g.barrierEntry v with
        | none => s.trapSelf 0x01 v (wordOf i)
        | some k =>
          let e := SMap.get {} g.barriers k
          let e := if e.used then e else { grp := v, n := n.setWidth 16, used := true }
          if e.n != n.setWidth 16 then s.trapSelf 0x01 v (wordOf i)
          else
            let e' := if e.arrivals + 1 == e.n then { e with arrivals := 0, gen := e.gen + 1 }
              else { e with arrivals := e.arrivals + 1 }
            let s := s.modGraph p g.lid fun g => { g with barriers := SMap.set g.barriers k e' }
            let s := s.setSeq { s.seq with barst := { arr := true, entry := BitVec.ofNat 4 k, gen := e.gen } }
            wait s k e.gen

/-- BAR_WAKE (R327): a waiting BAR sees the generation change. -/
def execBarWake (cell : Nat) (s : State) : Out :=
  let q := s.seqAt cell
  match q.wait.bar, s.graphAt cell with
  | some scope, some (_, g) =>
    if (SMap.get {} g.barriers q.barst.entry.toNat).gen != q.barst.gen && s.cellLive cell && !q.dbg then
      .next (s.barDone cell scope)
    else .next s
  | _, _ => .next s

end Sys2Proof.Machine
end

