-- ==== Sys2Proof/Machine/Switch.lean ====
section
/-! DEFINITION. Switch words (R221-R227), links and credits (R211), taps and unread tokens (R228, R229), the endpoint map
(R214) and channel queues (R212, R213). A switch word acts on the router of the step's focus; its store position is the
focus's unit. -/

namespace Sys2Proof.Machine

/-! ### Buffers -/

/-- The neighbour through a port, if it lies in the same placed graph; a port that faces a defective cell is disabled
(R20). -/
def State.linkPeer (s : State) (c port : Nat) : Option Nat :=
  match neighbour c port, s.graphAt c with
  | some n, some (_, g) => if g.holds n && !s.defective n then some n else none
  | _, _ => none

/-- Where a token that leaves on a local port goes (R214); none for a port and VC without an entry. -/
def State.localDest (s : State) (c port vc : Nat) : Option OutDest :=
  let r := (s.cell c).router
  let e := if vc == 2 then SMap.get 0 r.epBin (port - 4) else SMap.get 0 r.epIn (2 * (port - 4) + vc)
  if e.getLsbD 7 then (inEndpoint c (e.extractLsb' 0 7).toNat).map OutDest.ep else none

/-- The head of a router's input buffer. -/
def State.swHead (s : State) (c port vc : Nat) : Option Token := (SMap.get [] (s.cell c).router.inb (rIdx port vc)).head?

/-- A place of an input buffer is freed; over a link its credit is owed to the sender (R211). -/
def State.owe (s : State) (c port vc : Nat) : State :=
  if (s.linkPeer c port).isSome then
    s.modRouter c fun r => { r with owed := SMap.set r.owed (rIdx port vc) (SMap.get 0 r.owed (rIdx port vc) + 1) }
  else s
/-- A switch word takes the head of an input buffer. -/
def State.swTake (s : State) (c port vc : Nat) : State :=
  (s.modRouter c fun r => { r with inb := SMap.set r.inb (rIdx port vc) ((SMap.get [] r.inb (rIdx port vc)).drop 1) }).owe c port vc

/-- Whether the destination of an output has a free place (R211, R222): nothing is on its way there, and the neighbour's
buffer, or the endpoint behind a local port, has room. -/
def State.outRoom (s : State) (c port vc : Nat) : Bool :=
  (SMap.get [] (s.cell c).router.outb (rIdx port vc)).isEmpty &&
    if port < 4 then match s.linkPeer c port with
      | none => true
      | some n => SMap.get 0 (s.cell c).router.used (rIdx port vc) < inbDepth n ((port + 2) % 4) vc
    else (s.localDest c port vc).all (s.destRoom c)
/-- A switch word moves a token to an output; over a link it takes a credit (R211). -/
def State.swPut (s : State) (c port vc : Nat) (t : Token) : State :=
  let link := (s.linkPeer c port).isSome
  s.modRouter c fun r =>
    { r with
      outb := SMap.set r.outb (rIdx port vc) [t]
      used := if link then SMap.set r.used (rIdx port vc) (SMap.get 0 r.used (rIdx port vc) + 1) else r.used }
/-- The DONEs that stand at the inputs of a STEER or MERGE are noted as arrived (R230). -/
def State.noteDones (s : State) (ports : List Nat) : State :=
  let c := s.focus.cell
  let bits := (ports.zip (List.range 3)).foldl (fun (m : BitVec 3) q =>
    if ((s.swHead c q.1 0).map (·.kind)) == some 2 then m ||| (1#3 <<< q.2) else m) 0
  if SMap.get 0 (s.cell c).router.arrived s.focus.unit == bits then s
  else s.modRouter c fun r => { r with arrived := SMap.set r.arrived s.focus.unit bits }
/-- The outcome of a switch word with the DONEs at its inputs noted. -/
def noteAfter (ports : List Nat) : Out → Out
  | .next s => .next (s.noteDones ports)
  | .fault r => .fault r
  | .refused r => .refused r

/-- The cell and store position of the step. -/
def State.swCell (s : State) : Nat := s.focus.cell

/-- Discarded at control inputs and at the loop and control inputs of a CARRY (R224-R226). -/
def isFrame (t : Token) : Bool := t.kind == 1 || t.kind == 3 || t.kind == 4 || t.kind == 5
/-- A control value (R224). -/
def isValue (t : Token) : Bool := t.kind == 0 || t.kind == 7
/-- The same control token (R225). -/
def sameCtl (a b : Token) : Bool :=
  a.kind == b.kind && !isValue a
    && (a.kind != 1 || a.level == b.level) && (!(a.kind == 3 || a.kind == 4) || a.ref == b.ref) && (a.kind != 6 || a == b)

/-! ### Switch words -/

/-- IDLE (R222). -/
def execIdle (s : State) : Out := .next s

/-- The head of a buffer moves to every port of a mask on one channel, when each has a free place. -/
def State.moveAll (s : State) (src vc : Nat) (mask : BitVec 8) : Out :=
  let c := s.swCell
  match s.swHead c src vc with
  | none => .next s
  | some t =>
    if (maskPorts mask).all fun p => s.outRoom c p vc then
      .next ((maskPorts mask).foldl (fun s p => s.swPut c p vc t) (s.swTake c src vc))
    else .next s

/-- ROUTE (R222). -/
def execRoute (src : BitVec 3) (mask : BitVec 8) (vc : BitVec 1) (s : State) : Out := s.moveAll src.toNat vc.toNat mask
/-- ROUTE.B (R222). -/
def execRouteB (src : BitVec 3) (mask : BitVec 8) (s : State) : Out := s.moveAll src.toNat 2 mask

/-- The move of a STEER (R224). -/
def State.steerMove (s : State) (dat ctl outT outF : BitVec 3) : Out :=
  let c := s.swCell
  let d := s.swHead c dat.toNat 0
  match s.swHead c ctl.toNat 0 with
  | some k =>
    if isFrame k then .next (s.swTake c ctl.toNat 0)
    else if k.kind == 6 then .next (s.tokFault c none 0 k)
    else match d with
      | none => .next s
      | some t =>
        if isValue t then
          if !isValue k then .next s
          else
            let o := if tkCtlVal k then outT.toNat else outF.toNat
            if s.outRoom c o 0 then .next (((s.swTake c dat.toNat 0).swTake c ctl.toNat 0).swPut c o 0 t) else .next s
        else if t.kind == 2 && k.kind != 2 then .next s
        else if s.outRoom c outT.toNat 0 && s.outRoom c outF.toNat 0 then
          let s := if t.kind == 2 then s.swTake c ctl.toNat 0 else s
          .next (((s.swTake c dat.toNat 0).swPut c outT.toNat 0 t).swPut c outF.toNat 0 t)
        else .next s
  | none =>
    match d with
    | none => .next s
    | some t =>
      if isValue t || t.kind == 2 then .next s
      else if s.outRoom c outT.toNat 0 && s.outRoom c outF.toNat 0 then
        .next (((s.swTake c dat.toNat 0).swPut c outT.toNat 0 t).swPut c outF.toNat 0 t)
      else .next s

/-- STEER (R224, R230). -/
def execSteer (dat ctl outT outF : BitVec 3) (s : State) : Out :=
  noteAfter [dat.toNat, ctl.toNat] (s.steerMove dat ctl outT outF)

/-- The move of a MERGE (R225). -/
def State.mergeMove (s : State) (ctl inT inF out : BitVec 3) : Out :=
  let c := s.swCell
  let k := s.swHead c ctl.toNat 0
  let a := s.swHead c inT.toNat 0
  let b := s.swHead c inF.toNat 0
  let room := s.outRoom c out.toNat 0
  match k, a, b with
  | some k, _, _ =>
    if isFrame k then .next (s.swTake c ctl.toNat 0)
    else if k.kind == 6 then .next (s.tokFault c none 0 k)
    else match a, b with
      | some x, some y =>
        if sameCtl x y && (x.kind != 2 || k.kind == 2) then
          if !room then .next s
          else
            let s := if x.kind == 2 then s.swTake c ctl.toNat 0 else s
            .next (((s.swTake c inT.toNat 0).swTake c inF.toNat 0).swPut c out.toNat 0 x)
        else if !isValue k then .next s
        else
          let (h, o, p) := if tkCtlVal k then (x, y, inT.toNat) else (y, x, inF.toNat)
          if isValue h then
            (if room then .next (((s.swTake c p 0).swTake c ctl.toNat 0).swPut c out.toNat 0 h) else .next s)
          else if sameCtl h o then .next s
          else .next (s.tokFault c none 0 h)
      | x, y =>
        if !isValue k then .next s
        else match (if tkCtlVal k then x else y) with
          | none => .next s
          | some h =>
            if isValue h && room then
              .next (((s.swTake c (if tkCtlVal k then inT.toNat else inF.toNat) 0).swTake c ctl.toNat 0).swPut c out.toNat 0 h)
            else .next s
  | none, some x, some y =>
    if sameCtl x y && x.kind != 2 && room then
      .next (((s.swTake c inT.toNat 0).swTake c inF.toNat 0).swPut c out.toNat 0 x)
    else .next s
  | _, _, _ => .next s

/-- MERGE (R225, R230). -/
def execMerge (ctl inT inF out : BitVec 3) (s : State) : Out :=
  noteAfter [inT.toNat, ctl.toNat, inF.toNat] (s.mergeMove ctl inT inF out)

/-- What a CARRY does with the head of its loop (bit 0) or control input (bit 1) before its phase is looked at (R226):
none when the head is a value for the phase or waits. -/
def State.carrySide (s : State) (port bit : Nat) : Option State :=
  let c := s.swCell
  let pos := s.focus.unit
  let ab := SMap.get 0 (s.cell c).router.absorb pos
  match s.swHead c port 0 with
  | none => none
  | some t =>
    if isFrame t then some (s.swTake c port 0)
    else if t.kind == 6 then some (s.tokFault c none 0 t)
    else if t.kind == 2 then
      if ab.getLsbD bit then
        some ((s.swTake c port 0).modRouter c fun r =>
          { r with absorb := SMap.set r.absorb pos ((ab &&& ~~~(1#4 <<< bit)) ||| (4#4 <<< bit)) })
      else none
    else if bit == 0 && ab.getLsbD 2 then some (s.tokFault c none 0 t)
    else none

/-- CARRY (R226). -/
def execCarry (init lp ctl out : BitVec 3) (s : State) : Out :=
  let c := s.swCell
  let pos := s.focus.unit
  let setPhase := fun (s : State) (b : Bool) => s.modRouter c fun r => { r with phase := SMap.set r.phase pos b }
  match s.carrySide lp.toNat 0 with
  | some s' => .next s'
  | none =>
    match s.carrySide ctl.toNat 1 with
    | some s' => .next s'
    | none =>
      if SMap.get false (s.cell c).router.phase pos then
        match s.swHead c ctl.toNat 0 with
        | none => .next s
        | some k =>
          if !isValue k then .next s
          else if !tkCtlVal k then .next (setPhase (s.swTake c ctl.toNat 0) false)
          else match s.swHead c lp.toNat 0 with
            | none => .next s
            | some t =>
              if isValue t && s.outRoom c out.toNat 0 then
                .next (((s.swTake c lp.toNat 0).swTake c ctl.toNat 0).swPut c out.toNat 0 t)
              else .next s
      else
        match s.swHead c init.toNat 0 with
        | none => .next s
        | some t =>
          if !s.outRoom c out.toNat 0 then .next s
          else
            let s := (s.swTake c init.toNat 0).swPut c out.toNat 0 t
            if isValue t then .next (setPhase s true)
            else if t.kind == 2 then .next (s.modRouter c fun r => { r with absorb := SMap.set r.absorb pos 3 })
            else .next s

/-- FORK (R223). -/
def execFork (inp : BitVec 3) (mask : BitVec 8) (s : State) : Out :=
  let c := s.swCell
  let pos := s.focus.unit
  match s.swHead c inp.toNat 0 with
  | none => .next s
  | some t =>
    let r := SMap.get 0 (s.cell c).router.ready pos
    let owed := if r == 0 then mask else r
    let go := (maskPorts owed).filter fun p => s.outRoom c p 0
    let left := go.foldl (fun m p => m &&& ~~~(1#8 <<< p)) owed
    let s' := (go.foldl (fun s p => s.swPut c p 0 t) s).modRouter c fun r => { r with ready := SMap.set r.ready pos left }
    .next (if left == 0 then s'.swTake c inp.toNat 0 else s')

/-- The cells of the subgraphs that an ABUT widens the writes of (R204): those of the producers of the channels that the scope map
sends through it (R83), or where the map names none, of the in port's neighbour, or of the cell itself for a local port. -/
def State.upstream (s : State) (c pos inp : Nat) : List Nat :=
  let near := s.scopeCells ((s.linkPeer c inp).getD c) 2
  match s.graphAt c with
  | none => near
  | some (p, g) =>
    let r := g.rel c
    match (s.graphVariant p g).scopes.filter fun e => e.abut == some (r.2 * 96 + r.1, pos) with
    | [] => near
    | es => ((es.filter fun e => e.channel.2 < 0x80).flatMap fun e =>
        s.scopeCells (g.cellOf (e.channel.1 % 96) (e.channel.1 / 96)) 2).eraseDups

/-- ABUT (R227, R204): the release of the upstream subgraph's writes widens before the token is delivered. -/
def execAbut (inp out scope cls : BitVec 3) (s : State) : Out :=
  let c := s.swCell
  match s.swHead c inp.toNat 0 with
  | none => .next s
  | some t =>
    if s.outRoom c out.toNat 0 then .next (((s.widen c scope cls 0 (s.upstream c s.focus.unit inp.toNat)).swTake c inp.toNat 0).swPut c out.toNat 0 t)
    else .next s

/-- SWITCH_STORE_SOFT_ERROR (R74): one of the 32 store positions holds a word that is invalid when the router reads it; a defective cell's router holds no words (R20). -/
def execSwitchStoreSoftError (cell pos : Nat) (word : BitVec 16) (s : State) : Out :=
  if 32 ≤ pos || s.defective cell then .next s else
  let s := s.modRouter cell fun r =>
    { r with words := (List.range (max r.words.length (pos + 1))).map fun k => if k == pos then word else r.words.getD k 0 }
  .next (if (decodeSwitch word).isNone then s.routerFault cell pos word else s)

/-! ### Taps and links -/

/-- TAP (R228): a token leaves a router on a port; each TAP of that port records it while tracing is on. -/
def State.tap (s : State) (c port : Nat) (t : Token) : State :=
  match s.partOf c with
  | none => s
  | some p =>
    if !(s.part p).trace then s
    else (s.cell c).router.decoded.foldl (fun s w => match w with
      | .tap q id =>
        if q.toNat != port then s
        else if (s.part p).traceBuf.length < (s.part p).cfg.traceRoom then
          s.modPart p fun x => { x with traceBuf := x.traceBuf ++ [(id.zeroExtend 64, s.tick, t.ref ++ tkHead t)] }
        else s.bump c 0x021 1
      | _ => s) s

/-- Whether an output of a router has a token on its way, with a place at the receiver taken for it (R211). -/
def State.linkReady (s : State) (c port vc : Nat) : Bool := !(SMap.get [] (s.cell c).router.outb (rIdx port vc)).isEmpty

/-- LINK_TOKEN_TRANSFER (R211): a token crosses a link; the two data VCs alternate while both are ready. -/
def execLinkTokenTransfer (cell port : Nat) (back : Bool) (s : State) : Out :=
  match s.linkPeer cell port with
  | none => .next s
  | some n =>
    let r := (s.cell cell).router
    let turn := if SMap.get false r.turn port then 1 else 0
    let r0 := s.linkReady cell port 0
    let r1 := s.linkReady cell port 1
    let vc := if back then 2 else if r0 && r1 then turn else if r1 then 1 else 0
    if !s.cellLive cell || !s.cellLive n || !s.linkReady cell port vc then .next s
    else match (SMap.get [] r.outb (rIdx port vc)).head? with
      | none => .next s
      | some t =>
        let s := s.modRouter cell fun r => { r with
          outb := SMap.set r.outb (rIdx port vc) []
          turn := if !back && r0 && r1 then SMap.set r.turn port (vc == 0) else r.turn }
        let far := (port + 2) % 4
        let s := s.tap cell port t
        let unread := kindOn vc t && !(s.cell n).router.reads far vc
        let s := s.enterRouter n far vc t
        .next (if unread then s.owe n far vc else s)

/-- CREDIT_RETURN (R211): a place freed at the input port of a cell returns its credit to the sender. -/
def execCreditReturn (cell port vc : Nat) (s : State) : Out :=
  let owed := SMap.get 0 (s.cell cell).router.owed (rIdx port vc)
  match s.linkPeer cell port with
  | none => .next s
  | some n =>
    if owed == 0 || !s.cellLive cell || !s.cellLive n then .next s
    else
      let far := (port + 2) % 4
      .next ((s.modRouter cell fun r => { r with owed := SMap.set r.owed (rIdx port vc) (owed - 1) }).modRouter n fun r =>
        { r with used := SMap.set r.used (rIdx far vc) (SMap.get 0 r.used (rIdx far vc) - 1) })

/-! ### The endpoint map -/

/-- A channel queue loses its head (R212, R213): a tile whose last token left is freed. -/
def ChanQ.popHead (k : ChanQ) : ChanQ :=
  { k with
    toks := k.toks.drop 1
    tiles := modFirst (fun n => n != 0) (fun n => n - 1) k.tiles }.reap

/-- The source of a delivery: an output endpoint below 0x80, 0x80 + 2n + vc for a token on local port Ln, 0x90 + n for a
back token on Ln. The token it offers. -/
def State.srcHead (s : State) (c src : Nat) : Option Token :=
  let x := s.cell c
  if src < 0x80 then
    match outEndpoint c src with
    | some (.actor n p) => (SMap.get [] (x.slot n).outq p).head?
    | some (.block u) => (x.block u).out.head?
    | some .push => x.m.ms.out.head?
    | some (.back side) => (SMap.get [] (x.block 19).back side).head?
    | some (.queue q) => (SMap.get {} x.m.queues q).toks.head?
    | none => none
  else if src < 0x88 then (SMap.get [] x.router.outb (rIdx (4 + (src - 0x80) / 2) ((src - 0x80) % 2))).head?
  else if 0x90 ≤ src && src < 0x94 then (SMap.get [] x.router.outb (rIdx (4 + (src - 0x90)) 2)).head?
  else none

/-- The source gives up its token. -/
def State.srcPop (s : State) (c src : Nat) : State :=
  let clear := fun (i : Nat) => s.modRouter c fun r => { r with outb := SMap.set r.outb i [] }
  if src < 0x80 then
    match outEndpoint c src with
    | some (.actor n p) => s.modCell c fun x =>
        let sl := x.slot n
        x.setSlot n { sl with outq := SMap.set sl.outq p ((SMap.get [] sl.outq p).drop 1) }
    | some (.block u) => s.modBlock c u fun b => { b with out := b.out.drop 1 }
    | some .push => s.modCell c fun x => { x with m := { x.m with ms := { x.m.ms with out := x.m.ms.out.drop 1 } } }
    | some (.back side) => s.modBlock c 19 fun b => { b with back := SMap.set b.back side ((SMap.get [] b.back side).drop 1) }
    | some (.queue q) => s.modChanq c q ChanQ.popHead
    | none => s
  else if src < 0x88 then clear (rIdx (4 + (src - 0x80) / 2) ((src - 0x80) % 2))
  else if 0x90 ≤ src && src < 0x94 then clear (rIdx (4 + (src - 0x90)) 2)
  else s

/-- Where a source sends (R214). -/
def State.srcDest (s : State) (c src : Nat) : Option OutDest :=
  if src < 0x80 then s.outDest c src
  else if src < 0x88 then s.localDest c (4 + (src - 0x80) / 2) ((src - 0x80) % 2)
  else if 0x90 ≤ src && src < 0x94 then s.localDest c (4 + (src - 0x90)) 2
  else none

/-- A token on a router's local port leaves the router there (R228). -/
def State.srcTap (s : State) (c src : Nat) (t : Token) : State :=
  if src < 0x80 then s else s.tap c (if src < 0x90 then 4 + (src - 0x80) / 2 else 4 + (src - 0x90)) t

/-- A token arrives at an actor port that is a sink (R30, R323): progress. An EOT and a DONE reach it when the firing that
takes them ends (R31, log 72). -/
def State.portSink (s : State) (c : Nat) (d : OutDest) (t : Token) : State :=
  match d with
  | .ep (.actor n p) =>
    if !((s.cell c).slot n).sinks.contains p || t.kind == 4 || t.kind == 2 then s else s.sinkToken c (32 + 4 * n + p) t
  | _ => s

/-- ENDPOINT_DELIVERY (R214): the token of a source goes to its endpoint or router buffer, when there is room. Queues take
theirs by CHANNEL_QUEUE_ARRIVAL and give theirs by CHANNEL_QUEUE_OFFER. -/
def execEndpointDelivery (cell src : Nat) (s : State) : Out :=
  match s.srcHead cell src with
  | none => .next s
  | some t =>
    if !s.cellLive cell || (0x60 ≤ src && src < 0x80) then .next s
    else match s.srcDest cell src with
      | none => if src < 0x80 then .next s else .next ((s.srcPop cell src).unread cell)
      | some d =>
        if d.isQueue || !s.destRoom cell d then .next s
        else .next ((((s.srcPop cell src).srcTap cell src t).putDest cell d t).portSink cell d t)

/-- The sources bound to a channel queue (R214). -/
def State.queueSources (s : State) (c q : Nat) : List Nat :=
  let r := (s.cell c).router
  ((List.range 8).filter fun k => SMap.get 0 r.epIn k == BitVec.ofNat 8 (0x80 + 0x60 + q)).map (· + 0x80)
    ++ (r.epOut.filter fun e => e.2.extractLsb' 8 2 == 2 && (e.2.extractLsb' 0 7).toNat == 0x60 + q).map (·.1)

/-- CHANNEL_QUEUE_ARRIVAL (R212): a token enters a queue at qN.i. -/
def execChannelQueueArrival (cell q : Nat) (s : State) : Out :=
  match (s.queueSources cell q).find? fun k => (s.srcHead cell k).isSome with
  | none => .next s
  | some k =>
    match s.srcHead cell k with
    | none => .next s
    | some t =>
      if !s.cellLive cell || !s.inRoom cell (.queue q) then .next s
      else .next (((s.srcPop cell k).srcTap cell k t).queueIn cell q t)

/-- CHANNEL_QUEUE_OFFER (R212): the head leaves a queue at qN.o when its destination has room. A poisoned tile's token
faults its consumer's read (R183). -/
def execChannelQueueOffer (cell q : Nat) (s : State) : Out :=
  let k := s.chanq cell q
  match k.toks.head?, s.outDest cell (0x60 + q), s.graphAt cell with
  | some t, some d, some (p, _) =>
    if !s.cellLive cell || d.isQueue || !s.destRoom cell d || s.portBusy cell (0x60 + q) then .next s
    else if k.poison.contains 0 then .next (s.reportXl p cell (0x60 + q) 6 0 0 none none)
    else .next (((s.modChanq cell q ChanQ.popHead).putDest cell d t).portSink cell d t)
  | _, _, _ => .next s

end Sys2Proof.Machine
end

