-- ==== Sys2Proof/Machine/LaunchOps.lean ====
section
/-! DEFINITION. Operations over launches: accesses of the scheduler at partition scope, completion words (R280), adit
streams (R275, R276, R347, R409), launch ids and queues (R273, R277, R279), refusals (R280), and fencing (R338). -/

namespace Sys2Proof.Machine

/-- The tables of a partition: its own, or the saved ones while it is swapped out. -/
def State.tablesOf (s : State) (p : Nat) : Part :=
  match (s.part p).swapped, SMap.get none s.caisson p with
  | true, some k => k.part
  | _, _ => s.part p

/-! ### Accesses at partition scope -/

/-- The lines of a range are written back and dropped by every die, so that home memory holds them (R198, R205). -/
def State.settle (s : State) (pa n : Nat) : State := (linesOf pa n).foldl (fun s ln => s.lineOut (homeDie pa) ln) s

/-- The home of one part of an access that no region governs (R280, R292, R312), or why it has none: a fault, or a wait for a path
to it (R355). The walk sets A and D (R266). -/
def State.partHome (s : State) (p : Nat) (need : Need) (va : Word) : Except AccFail (Loc × State) :=
  match s.walkRead p ((s.part p).cfg.bays.headD 0) (vaTensor va) (vaOff va) none false with
  | .error _ => .error (.bad 0x05 va)
  | .ok r =>
    if vaTensor va ≥ 0xFFFE || (descOf r.desc).shadow then .error (.bad 0x05 va)
    else match r.chunk, r.shard with
      | some (.ok (pa, x)), _ =>
        if !permits x.entry need then .error (.bad 0x05 va)
        else
          let e := x.entry ||| adBits x.entry need
          let s := if e == x.entry then s else s.homeStore pa (natLe e.toNat 8)
          (s.frameLoc 0 e va).map fun l => match l with
            | .hbm a _ => (.hbm a 0, s)
            | l => (l, s)
      | none, some h =>
        (s.viaLink 0 h.owner va (.rem h.owner (remTensor h.owner h.ten ((descOf h.desc).fromRow h.geo (vaOff va) h.first)))).map
          fun l => (l, s)
      | _, _ => .error (.bad 0x05 va)
/-- The home of one part where it has one now. -/
def State.partPart (s : State) (p : Nat) (need : Need) (va : Word) : Option (Loc × State) := (s.partHome p need va).toOption
/-- The pieces of a part, each in one row of a sharded tensor (R269). -/
def State.partCuts (s : State) (p : Nat) (q : Word × Nat) : List (Word × Nat) :=
  match s.walkRead p ((s.part p).cfg.bays.headD 0) (vaTensor q.1) (vaOff q.1) none false with
  | .ok { shard := some h, .. } => rowPieces h q.1 q.2 q.2
  | _ => [q]

/-- Whether a part of an access waits for a path to its home (R355); the access is then made later. -/
def State.partWaits (s : State) (p : Nat) (need : Need) (va : Word) (n : Nat) : Bool :=
  ((partsOf va n).flatMap (s.partCuts p)).any fun q => match s.partHome p need q.1 with
    | .error .wait => true
    | _ => false

def State.partList (s : State) (p : Nat) (need : Need) : List (Word × Nat) → Option (List (Loc × Nat) × State)
  | [] => some ([], s)
  | (va, n) :: ps =>
    match s.partPart p need va with
    | none => none
    | some (l, s) => (s.partList p need ps).map fun r => ((l, n) :: r.1, r.2)
/-- The homes of the parts of an access. -/
def State.partParts (s : State) (p : Nat) (need : Need) (ps : List (Word × Nat)) : Option (List (Loc × Nat) × State) :=
  s.partList p need (ps.flatMap (s.partCuts p))

/-- The bytes of a located part as partition scope sees them; none if one is poisoned. -/
def State.partRd (s : State) (l : Loc) (n : Nat) : Option (List Byte × State) :=
  match l with
  | .hbm pa _ =>
    if (poisonAt s.mem.poison pa n).isSome then none
    else let s := s.settle pa n; some (memBytes s.mem.hbm pa n, s)
  | .rem _ a => if (poisonAt s.mem.remPoison a n).isSome then none else some (memBytes s.mem.remote a n, s)
  | _ => none

def State.partRdAll (s : State) : List (Loc × Nat) → Option (List Byte × State)
  | [] => some ([], s)
  | (l, n) :: ps =>
    match s.partRd l n with
    | none => none
    | some (bs, s) => (s.partRdAll ps).map fun r => (bs ++ r.1, r.2)

/-- A read at partition scope; none where it faults in any way. -/
def State.partRead (s : State) (p : Nat) (va : Word) (n : Nat) : Option (List Byte × State) :=
  match s.partParts p .rd (partsOf va n) with
  | none => none
  | some (ps, s) => s.partRdAll ps

/-- Bytes written at home as an SO store: no cache of any die holds another value after it. -/
def State.settleStore (s : State) (pa : Nat) (bs : List Byte) : State :=
  let s := (s.settle pa bs.length).setHbm (memStore (s.settle pa bs.length).mem.hbm pa bs)
  { s with mem := { s.mem with poison := poisonAfter s.mem.poison pa bs.length } }

def State.partWrAll (s : State) : List (Loc × Nat) → List Byte → State
  | [], _ => s
  | (l, n) :: ps, bs =>
    let s := match l with
      | .hbm pa _ => s.settleStore pa (bs.take n)
      | .rem _ a => { s with mem := { s.mem with
          remote := memStore s.mem.remote a (bs.take n), remPoison := poisonAfter s.mem.remPoison a n } }
      | _ => s
    s.partWrAll ps (bs.drop n)

/-- A write at partition scope; none where it faults. -/
def State.partWrite (s : State) (p : Nat) (va : Word) (bs : List Byte) : Option State :=
  match s.partParts p .wr (partsOf va bs.length) with
  | none => none
  | some (ps, s) => some (s.partWrAll ((joinParts (ps.map fun q => (0, q.2, q.1, 0))).map fun q => (q.2.2.1, q.2.1)) bs)

/-! ### Completion words (R280) -/

/-- The completion word. -/
def doneWord (lid status info : Nat) : Word :=
  BitVec.ofNat 64 (lid % 65536 * 2 ^ 48 + status % 16 * 2 ^ 28 + info % 2 ^ 24)

/-- Writes a launch's completion word and raises its vector after it. `only` tells that the vector goes out with a word
only (a host launch refused at enqueue). A word without a path to its home is owed until there is one (R355). -/
def State.complete (s : State) (p : Nat) (r : BitVec 512) (lid status info : Nat) (only : Bool) : State :=
  let va := lrDoneva r
  let none_ := va == 0 || va.toNat % 8 != 0
  if !none_ && s.partWaits p .wr va 8 then
    let o : OwedWord := { part := p, lrec := r, lid := lid, status := status, info := info, only := only }
    { s with hf := { s.hf with owed := s.hf.owed ++ [o] } }
  else
    let wrote := if none_ then none else s.partWrite p va (natLe (doneWord lid status info).toNat 8)
    let s := wrote.getD s
    if lrIrq r && lrVector r ≥ 4 && (wrote.isSome || !only) then s.raiseVec p (lrVector r) else s
/-- A path has come back: the completion words owed are written where there is one (R355). -/
def State.payOwed (s : State) : State :=
  s.hf.owed.foldl (fun s o => s.complete o.part o.lrec o.lid o.status o.info o.only) { s with hf := { s.hf with owed := [] } }

/-! ### Adits and their streams -/

def Part.adit (q : Part) (a : Nat) : Adit := SMap.get {} q.adits a
def State.modAdit (s : State) (p a : Nat) (f : Adit → Adit) : State :=
  s.modPart p fun q => { q with adits := SMap.set q.adits a (f (q.adit a)) }
/-- FREE of STATUS (R346). -/
def Adit.free (a : Adit) : Nat := 512 - a.queue.length

/-- How many tokens at the head of a queue belong to a stream: up to its DONE, or those left of a stream whose DONE was
discarded; none while the stream is open. -/
def Stream.size (st : Stream) (q : List Token) : Option Nat :=
  match st.left with
  | some n => some n
  | none => (q.findIdx? fun t => t.kind == 2).map (· + 1)

/-- Where the first stream that has not opened a launch starts in a queue, and its place among the streams. -/
def openFrom : List Stream → List Token → Nat → Nat → Option (Nat × Nat)
  | [], q, pos, i => if q.isEmpty then none else some (pos, i)
  | st :: sts, q, pos, i =>
    if st.lid.isNone then some (pos, i)
    else match st.size q with
      | none => none
      | some n => openFrom sts (q.drop n) (pos + n) (i + 1)

/-- Whether the last stream of a queue is open, its opening token waiting for its launch or taken (R275, R276): the adit is
held until its DONE has entered. -/
def lastOpen : List Stream → List Token → Bool
  | [], q => q.getLast?.any fun t => t.kind != 2
  | st :: sts, q =>
    match st.size q with
    | none => true
    | some n => lastOpen sts (q.drop n)

/-- Whether an adit is reserved to a launch (R276): named in word 0x38, carrying a stream of its own that is open, or a fenced
launch's stream whose DONE has not come. -/
def Adit.reserved (a : Adit) : Bool := a.named.isSome || a.fencedOpen || lastOpen a.streams a.queue

/-- The streams of a queue after the DONE of its last one was discarded (R347, R409). -/
def closeLost : List Stream → List Token → List Stream
  | [], q => if q.isEmpty then [] else [{ left := some q.length }]
  | st :: sts, q =>
    match st.size q with
    | none => [{ st with left := some q.length }]
    | some n => st :: closeLost sts (q.drop n)

/-- Streams for every stream of a queue that ends with a DONE and has not opened. The second argument is fuel. -/
def listStreams (q : List Token) : Nat → List Stream
  | 0 => []
  | f + 1 =>
    match q.findIdx? fun t => t.kind == 2 with
    | none => []
    | some n => {} :: listStreams (q.drop (n + 1)) f
/-- The streams of a queue with every complete one listed. -/
def fullStreams : List Stream → List Token → List Stream
  | [], q => listStreams q q.length
  | st :: sts, q =>
    match st.size q with
    | none => st :: sts
    | some n => st :: fullStreams sts (q.drop n)

/-- A DONE that is discarded closes the stream it belongs to; a launch that reserved the adit has no stream there. -/
def Adit.loseDone (a : Adit) : Adit :=
  { a with broken := false, discard := false, fencedOpen := false,
           streams := if a.named.isSome then a.streams else closeLost (fullStreams a.streams a.queue) a.queue }

/-- Removes the tokens of the stream at a place of the queue, with the number removed; the stream's later tokens are
discarded as they arrive where it is open. -/
def Adit.cutStream (a : Adit) (pos i : Nat) : Adit × Nat :=
  let st := a.streams.getD i {}
  let rest := a.queue.drop pos
  match st.size rest with
  | some n => ({ a with queue := a.queue.take pos ++ rest.drop n, streams := a.streams.eraseIdx i }, n)
  | none => ({ a with queue := a.queue.take pos, streams := a.streams.eraseIdx i, discard := true }, rest.length)

/-- The place of a launch's stream in a queue. -/
def streamOf (lid : Nat) : List Stream → List Token → Nat → Nat → Option (Nat × Nat)
  | [], _, _, _ => none
  | st :: sts, q, pos, i =>
    if st.lid == some lid then some (pos, i)
    else match st.size q with
      | none => none
      | some n => streamOf lid sts (q.drop n) (pos + n) (i + 1)

/-- Counts discarded tokens of an adit (counter 0x01F). -/
def State.aditDrop (s : State) (p a n : Nat) : State := s.bumpPart p (0x01F * 256 + a) n

/-- The waiting tokens of a launch's own stream are discarded and counted, up to its DONE (R275, R276). A fenced launch's adit
stays reserved until then. -/
def State.dropStream (s : State) (p lid : Nat) (fenced : Bool) : State :=
  (s.part p).adits.foldl (fun s e =>
    match streamOf lid e.2.streams e.2.queue 0 0 with
    | none => s
    | some (pos, i) =>
      let r := e.2.cutStream pos i
      (s.modAdit p e.1 fun _ => { r.1 with fencedOpen := r.1.fencedOpen || (fenced && r.1.discard) }).aditDrop p e.1 r.2) s

/-- The tokens that stand in an adit queue past its own streams. -/
def pastStreams : List Stream → List Token → Nat → Nat
  | [], _, pos => pos
  | st :: sts, q, pos =>
    match st.size q with
    | none => pos + q.length
    | some n => pastStreams sts (q.drop n) (pos + n)

/-- The waiting tokens of the adits that a launch reserved in word 0x38 are discarded and counted (R276). -/
def State.dropNamed (s : State) (p lid : Nat) : State :=
  (s.part p).adits.foldl (fun s e =>
    if e.2.named == some lid then
      let k := pastStreams e.2.streams e.2.queue 0
      (s.modAdit p e.1 fun a => { a with queue := a.queue.take k }).aditDrop p e.1 (e.2.queue.length - k)
    else s) s

/-- The reservations of a launch in word 0x38 end (R276). -/
def State.freeAdits (s : State) (p lid : Nat) : State :=
  let s := s.dropNamed p lid
  s.modPart p fun q => { q with adits := q.adits.map fun e => (e.1, if e.2.named == some lid then { e.2 with named := none } else e.2) }

/-! ### Launch ids and queues -/

/-- The next launch id that is not live, cyclic from a candidate and skipping 0 (R279). The last argument is fuel. -/
def freeLid (live : List Nat) (n : Nat) : Nat → Nat
  | 0 => n
  | f + 1 => if n == 0 || n ≥ 65536 || live.contains n then freeLid live ((n + 1) % 65536) f else n

/-- Takes a launch id. -/
def State.takeLid (s : State) (p : Nat) : Nat × State :=
  let q := s.part p
  let n := freeLid q.liveLids q.nextLid (q.liveLids.length + 3)
  (n, s.modPart p fun q => { q with nextLid := (n + 1) % 65536, liveLids := q.liveLids ++ [n] })
/-- A launch id is live no more. -/
def State.dropLid (s : State) (p lid : Nat) : State :=
  s.modPart p fun q => { q with liveLids := q.liveLids.filter (· != lid) }

def Part.lq (q : Part) (n : Nat) : List LqEntry := SMap.get [] q.lqs n
def State.modLq (s : State) (p n : Nat) (f : List LqEntry → List LqEntry) : State :=
  s.modPart p fun q => { q with lqs := SMap.set q.lqs n (f (q.lq n)) }
/-- The queued entry of a launch. -/
def Part.queued (q : Part) (lid : Nat) : Option LqEntry := (q.lqs.flatMap (·.2)).find? fun e => e.lid == lid
/-- Every queued entry and every placed one, changed alike. -/
def Part.mapEntries (q : Part) (f : LqEntry → LqEntry) : Part :=
  { q with lqs := q.lqs.map fun e => (e.1, e.2.map f)
           graphs := q.graphs.map fun g => { g with entry := f g.entry } }

/-- A predecessor ends with a status (R296). -/
def LqEntry.predEnd (e : LqEntry) (lid : Nat) (status : BitVec 4) : LqEntry :=
  { e with preds := e.preds.map fun x => if x.1 == lid && x.2.isNone then (lid, some status) else x }
/-- Whether a predecessor of an entry was refused or fenced (R280). -/
def LqEntry.predLost (e : LqEntry) : Bool := e.preds.any fun x => x.2 == some 2 || x.2 == some 3

/-- Whether word 0x38 joins a valid adit to a binding that an image lacks (R280). -/
def lrLacks (r : BitVec 512) (img : Image) : Bool :=
  (List.range 7).any fun k => (lrAdit r k).isSome && (if k < 3 then k + 1 ≥ img.ingress.length else k - 3 ≥ img.egress.length)

/-- The check code of a record at enqueue (R275, R279): the first of R274's fields, the image, the stencil and the
reservations; 0 for none. `fields` tells whether the field checks stand here (a host launch). -/
def State.launchCode (s : State) (p : Nat) (r : BitVec 512) (fields : Bool) : Nat :=
  let q := s.part p
  if fields && (lrMalformed r || lrNrec r != 0) then 8
  else match q.images.find? fun e => e.img.id == lrImage r with
    | none => 9
    | some e =>
      if e.code != 0 then e.code
      else if (lrStencil r).extractLsb' 24 24 != 0 then 6
      else if (lrAdits r).any fun a => (q.adit a).reserved then 11
      else 0

/-- Clears the yield requests and moves that were made for a launch (R285, R286). -/
def State.clearYreq (s : State) (p lid : Nat) : State :=
  s.modPart p fun q => { q with graphs := q.graphs.map fun g =>
    if g.yfor == lid then { g with yreq := false, yfor := 0, target := none } else g }

/-- The bindings that a launch's tasks issued have passed their edges when it leaves (R187, R205). -/
def Part.leave (q : Part) (lid : Nat) : Part :=
  { q with
    edges := q.edges + 1
    windows := q.windows.map fun (e : Nat × List WinVer) => (e.1, e.2.map fun v =>
      if v.lid == lid && v.edge.isNone then { v with edge := some q.edges } else v) }

/-- A launch leaves the queues and the placed graphs of a partition; admissions that wait for its room go on (R313). -/
def State.removeLaunch (s : State) (p lid : Nat) : State :=
  let s : State := match s.graphAny p lid with
    | none => s
    | some g => g.tasks.foldl (fun (s : State) (t : Task) =>
        let s := t.leases.foldl State.dropLease s
        if t.ended then s else s.expertEnd p t) s
  let s := s.dropParked p lid
  let s := ((s.modPart p fun q => { q with
    lqs := q.lqs.map (fun (e : Nat × List LqEntry) => (e.1, e.2.filter fun x => x.lid != lid))
    graphs := q.graphs.filter fun g => g.lid != lid
    yields := smErase q.yields lid }.leave lid).clearYreq p lid).unblock p
  if (s.part p).inval.isEmpty then s else s.invalDone p

/-- A queued or placed launch is refused with a code (R280): its word, one record, its stream and reservations. -/
def State.refuseOne (s : State) (p : Nat) (e : LqEntry) (code : Nat) : State :=
  let s := s.removeLaunch p e.lid
  let s := s.record p (evRec s e.lid 9 0 0 (0, 0) code 0 0 0 (lrImage e.lrec) 0)
  let s := (s.dropStream p e.lid false).complete p e.lrec e.lid 2 code false
  let s := ((s.dropNamed p e.lid).freeAdits p e.lid).dropLid p e.lid
  s.modPart p fun q => q.mapEntries fun x => x.predEnd e.lid 2

/-- Launches one of whose predecessors ended with STATUS 2 or 3 are refused with LR_PRED (R280, R338); a graph in which a freeze is
raised is fenced instead when it takes effect (R337). The last argument is fuel. -/
def State.refusePreds (s : State) (p : Nat) : Nat → State
  | 0 => s
  | f + 1 =>
    let q := s.part p
    match (q.lqs.flatMap (·.2) ++ (q.graphs.filter fun g => !g.fenced && g.freeze.isNone).map (·.entry)).find? LqEntry.predLost with
    | none => s
    | some e => (s.refuseOne p e 10).refusePreds p f

/-- A refusal with what follows from it for launches that name it. -/
def State.refuse (s : State) (p : Nat) (e : LqEntry) (code : Nat) : State := (s.refuseOne p e code).refusePreds p 8192

/-- Enqueues a record (R275, R277, R279): its id and the state after. The image's checks start if it is unchecked; an image
already checked that lacks a named binding, or a fenced predecessor, refuses the launch at once. -/
def State.enqueue (s : State) (p : Nat) (r : BitVec 512) (tie : Nat) (ragged : Option Word) (adit : Option Nat) : Nat × State :=
  let live := (s.part p).liveLids
  let (lid, s) := s.takeLid p
  let fenced := fun n => match s.graph p n with
    | some g => g.fenced
    | none => false
  let preds := (List.range (lrNpred r)).map fun i =>
    (lrPred r i, if !live.contains (lrPred r i) then some 0 else if fenced (lrPred r i) then some 3 else (none : Option (BitVec 4)))
  let checked := match (s.part p).images.find? fun e => e.img.id == lrImage r with
    | some e => e.state == 2
    | none => false
  let e : LqEntry :=
    { lrec := r, lid := lid, age := s.tbase.toNat, tie := tie, istate := if checked then 2 else 1, ragged := ragged,
      adit := adit, preds := preds }
  let s := s.modLq p (lrQueue r) fun l => l ++ [e]
  let s := (lrAdits r).foldl (fun s a => s.modAdit p a fun x =>
    { x with named := some lid, streams := fullStreams x.streams x.queue }) s
  let s := s.modPart p fun q => { q with images := q.images.map fun x =>
    (if x.img.id == lrImage r && x.state == 0 then { x with state := 1 } else x) }
  let lacks := match s.imageOf p (lrImage r) with
    | some img => checked && lrLacks r img
    | none => false
  (lid, if lacks then s.refuse p e 11 else s.refusePreds p 8192)

/-! ### Fencing and dumps -/

/-- The bytes of a record (R340). -/
def recBytes (r : FaultRec) : List Byte := [r.w0, r.w1, r.w2, r.w3, r.w4, r.w5, r.w6, r.w7].flatMap fun w => natLe w.toNat 8

/-- The sections of a dump, in the order of R342. -/
def dumpSecs (q : Part) (bays : List (Nat × Bay)) (cells : List (Nat × Cell)) : List DumpSec :=
  .tables q :: bays.map (fun e => .bay e.1 e.2) ++ cells.map (fun e => .cell e.1 e.2)
    ++ (cells.filter fun e => kindOf e.1 == 0).map (fun e => .scratch e.1 e.2.m.scratch) ++ [.counters q.cnt, .faults q.fq.queue]
/-- The type and unit number of a section (R342). -/
def secKey : DumpSec → Nat × Nat
  | .tables _ => (1, 0)
  | .bay b _ => (2, b)
  | .cell c _ => (3, c)
  | .scratch c _ => (4, c)
  | .counters _ => (5, 0)
  | .faults _ => (6, 0)
/-- The section table: each section follows the one before it; the lengths are free (log 43). -/
def secTable : List DumpSec → Nat → List (Nat × Nat × Nat × Nat)
  | [], _ => []
  | x :: xs, off =>
    let k := secKey x
    (k.1, k.2, off, Config.sectionBytes k.1 k.2) :: secTable xs (off + Config.sectionBytes k.1 k.2)
/-- The header of a dump (R342). -/
def dumpHead (scope : Nat) (trunc : Bool) (lid : Nat) (tbase : Word) (nsect : Nat) (event : FaultRec) : List Byte :=
  natLe 0x504D5544 4 ++ natLe 1 4 ++ natLe (scope + (if trunc then 4 else 0) + lid % 65536 * 16) 8 ++ natLe tbase.toNat 8
    ++ natLe nsect 8 ++ List.replicate 32 0 ++ recBytes event ++ List.replicate 128 0

/-- Writes a dump into the partition's dump region: it ends at the section that the region has no room for (R342, log 43). -/
def State.dump (s : State) (p scope lid : Nat) (tbase : Word) (event : FaultRec) (secs : List DumpSec) : State :=
  let room := (s.part p).cfg.dumpRoom
  let kept := secs.take room
  let d : Dump :=
    { head := dumpHead scope (decide (room < secs.length)) lid tbase kept.length event
      table := secTable kept (256 + 16 * kept.length), secs := kept }
  { s with dumps := s.dumps ++ [(p, d)] }

/-- The items of a list of units, in ascending order of the unit (R342). -/
def byIndex {α : Type} (f : Nat → α) (l : List Nat) : SMap α := l.foldl (fun m k => SMap.set m k (f k)) []
/-- A dump of a graph: the partition's tables of it, and every bay and cell that it holds but the defective ones (R20, R341). -/
def State.dumpGraph (s : State) (p scope : Nat) (tbase : Word) (event : FaultRec) (g : Graph) : State :=
  s.dump p scope g.lid tbase event (dumpSecs { s.part p with graphs := [g], lqs := [], images := [] }
    (byIndex s.bay g.bays) (byIndex s.cell (g.cells.filter fun c => !s.defective c)))
/-- A dump of a partition; of one that is swapped out its context is the saved one. -/
def State.dumpPart (s : State) (p scope : Nat) (tbase : Word) (event : FaultRec) : State :=
  let q := s.part p
  let cells := (q.cfg.bays.flatMap bayCells).filter fun c => !s.defective c
  s.dump p scope 0 tbase event (match q.swapped, SMap.get none s.caisson p with
    | true, some k => dumpSecs k.part (byIndex (SMap.get {} k.bays) q.cfg.bays) (byIndex (SMap.get {} k.cells) cells)
    | _, _ => dumpSecs q (byIndex s.bay q.cfg.bays) (byIndex s.cell cells))

/-- The reports of the injections whose chains a freeze discards (R337, R401). -/
def State.injDiscards (s : State) (g : Graph) : List (BitVec 64) :=
  (s.cells.filter fun e => g.holds e.1).flatMap fun e =>
    (e.2.m.copy.runs.filter fun r => r.2.inj.isSome).map fun _ => injReport e.1 false

/-- What a frozen graph's units stop (R337): copies and fills are discarded without stamps, waits for walks end. -/
def State.stopUnits (s : State) (g : Graph) : State :=
  let s := { s with hf := { s.hf with mail := s.hf.mail ++ s.injDiscards g } }
  let s := g.bays.foldl (fun s b => s.modBay b fun x => { x with walks := x.walks.filter fun k => !g.holds k.cell }) s
  { s with cells := s.cells.map fun e =>
      if g.holds e.1 then
        (e.1, { e.2 with m := { e.2.m with
          copy := { e.2.m.copy with queue := [], runs := [], cur := none }
          fill := { e.2.m.fill with queue := [], row := 0, pos := 0, dropped := 0, fmt := none, poison := none } } })
      else e }

/-- Fencing a graph (R338): STATUS 3, launches that name it are refused, its waiting tokens are discarded, and the headframe
dumps it. -/
def State.fenceGraph (s : State) (p lid : Nat) : State :=
  match s.graph p lid with
  | none => s
  | some g =>
    if g.fenced then s
    else
      let s := s.modGraph p lid fun g => { g with frozen := true, fenced := true, yreq := false, target := none }
      let s := s.complete p g.entry.lrec lid 3 0 false
      let s := (s.dropStream p lid true).dropNamed p lid
      let s := s.modPart p fun q => q.mapEntries fun x => x.predEnd lid 3
      match s.graph p lid with
      | none => s
      | some g =>
        let r := g.freeze.getD {}
        (s.dumpGraph p 0 (if g.freeze.isNone then s.tbase else r.w2) r g).refusePreds p 8192

/-! ### Mailboxes and commands (R343) -/

/-- A command that PF 0 alone gives (R343); from a VF it is refused with PERM. -/
def State.pfOnly (s : State) (cmd : Nat) (go : Out) : Out := if s.focus.fn == 0 then go else .next (s.answer cmd 1)
/-- A command for a partition, given by PF 0 or by the partition's own VF (R343); from another VF it is refused with PERM. -/
def State.ownCmd (s : State) (p cmd : Nat) (go : Out) : Out :=
  if s.focus.fn == 0 || s.focus.fn == p + 1 then go else .next (s.answer cmd 1)

end Sys2Proof.Machine
end

