-- ==== Sys2Proof/Machine/Expert.lean ====
section
/-! DEFINITION. Expert residency (R308-R316, R352) and embedding updates (R317-R320). -/

namespace Sys2Proof.Machine

/-! ### The expert residency table -/

/-- Whether an expert exists (R309, R316). -/
def State.expert (s : State) (p x : Nat) : Bool :=
  let k := (s.part p).cfg
  x < k.ertN && (s.ert p x).v && 1 ≤ (s.ert p x).size.toNat && (s.ert p x).size.toNat ≤ k.slotSz

/-- The entries of a partition's table by expert. -/
def State.ertAll (s : State) (p : Nat) : List (Nat × Ert) := (List.range (s.part p).cfg.ertN).map fun x => (x, s.ert p x)
/-- The experts that hold a slot: FETCHING with one taken, RESIDENT or EVICTING (R309). -/
def State.slotted (s : State) (p : Nat) : List (Nat × Ert) :=
  (s.ertAll p).filter fun e => e.2.state != 0 && !(e.2.state == 1 && (s.part p).xp.reqs.contains e.1)

/-- A slot is freed: SLOT and FRAME of an entry that holds none are free values (log 32). -/
def State.freeSlot (s : State) (p x : Nat) : State :=
  let f := s.free
  f.2.modErt p x fun e => { e with slot := f.1.extractLsb' 0 12, frame := f.1.extractLsb' 12 23 }

/-- Word w of an entry (R309). -/
def Ert.word (e : Ert) (w : Nat) : Word := e.bits.extractLsb' (64 * w) 64

/-! ### Residency instructions (R316) -/

/-- The partition and expert that an instruction names, or its answer: ILLOP, or failure code 1. -/
def State.xpOp (s : State) (i : Instr) (d a : BitVec 5) (go : Nat → Nat → Ert → Out) : Out :=
  let v := s.seq.getG a
  let x := (v.extractLsb' 0 16).toNat
  match s.partOf s.focus.cell with
  | none => s.illop i
  | some p =>
    if v.extractLsb' 16 48 != 0 then s.illop i
    else if !s.expert p x then s.doneG d (failCode 1)
    else go p x (s.ert p x)

/-- XPREF. -/
def execXpref (d a : BitVec 5) (s : State) : Out :=
  s.xpOp (.xpref d a) d a fun p x e =>
    let s := if e.state == 3 then s.modErt p x (fun e => { e with req := true }) else s.xpDemand p x
    s.doneG d (e.state.zeroExtend 64)

/-- XPIN.PIN. -/
def execXpinPin (d a : BitVec 5) (s : State) : Out :=
  s.xpOp (.xpinPin d a) d a fun p x e =>
    if e.pin == 255 then s.doneG d (failCode 3)
    else ((s.modErt p x fun e => { e with pin := e.pin + 1 }).xpDemand p x).doneG d ((e.pin + 1).zeroExtend 64)

/-- XPIN.UNPIN. -/
def execXpinUnpin (d a : BitVec 5) (s : State) : Out :=
  s.xpOp (.xpinUnpin d a) d a fun p x e =>
    if e.pin == 0 then s.doneG d (failCode 2)
    else (s.modErt p x fun e => { e with pin := e.pin - 1 }).doneG d ((e.pin - 1).zeroExtend 64)

/-- XEVICT. -/
def execXevict (d a : BitVec 5) (s : State) : Out :=
  s.xpOp (.xevict d a) d a fun p x e =>
    if e.state != 2 then s.doneG d (failCode 2)
    else if e.pin != 0 || e.lease != 0 || e.wait != 0 then s.doneG d (failCode 4)
    else (s.modErt p x fun e => { e with state := 3 }).doneG d 0

/-- XLOOK. -/
def execXlook (d a : BitVec 5) (w : BitVec 2) (s : State) : Out :=
  s.xpOp (.xlook d a w) d a fun _ _ e => s.doneG d (e.word w.toNat)

/-! ### Parked tokens (R313, R314) -/

/-- The tokens of a record park (R312, R313). -/
def State.park (s : State) (p lid xid ri : Nat) (toks : List (BitVec 32)) : State :=
  let new := toks.map fun t => { lid := lid, xid := xid, ri := ri, tok := t : Parked }
  let s := s.modPart p fun q => { q with xp := { q.xp with blocked := q.xp.blocked ++ new } }
  s.unblock p

/-- An expert is RESIDENT: its parked tokens are released, and tokens that waited for room may park (R313, R314). -/
def State.unpark (s : State) (p xid : Nat) : State :=
  let mine := (s.part p).xp.parked.filter fun k => k.xid == xid
  let s := (s.releaseToks p xid mine).modErt p xid fun e => { e with wait := e.wait - BitVec.ofNat 32 mine.length }
  let s := s.modPart p fun q => { q with
    xp := { q.xp with parked := q.xp.parked.filter fun k => k.xid != xid }
    cnt := SMap.set q.cnt 0x01A (SMap.get 0 q.cnt 0x01A - BitVec.ofNat 32 mine.length) }
  s.unblock p

/-! ### Ragged records (R312) -/

/-- The token indices of a byte list. The last argument counts them. -/
def tokList (bs : List Byte) : Nat → List (BitVec 32)
  | 0 => []
  | n + 1 => BitVec.ofNat 32 (leNat (bs.take 4)) :: tokList (bs.drop 4) n

/-- A record is skipped (counter 0x019), as malformed with a record of TYPE 10. -/
def State.skipRec (s : State) (p lid xid : Nat) (malformed : Bool) : State :=
  let s := s.bumpPart p 0x019 1
  if malformed then s.record p (evRec s lid 10 0 0 (0, 0) xid 0 0 0 0 0) else s

/-- One ragged record at admission (R312). -/
def State.raggedRec (s : State) (p lid ri : Nat) (va : Word) : State :=
  match s.partRead p va 16 with
  | none => s.skipRec p lid 0 true
  | some (bs, s) =>
    let w0 := BitVec.ofNat 64 (leNat (bs.take 8))
    let list := BitVec.ofNat 64 (leNat (bs.drop 8))
    let xid := (w0.extractLsb' 0 16).toNat
    let count := (w0.extractLsb' 16 16).toNat
    if w0.extractLsb' 33 31 != 0 || !s.expert p xid then s.skipRec p lid xid true
    else if list.toNat % 4 != 0 then s.skipRec p lid xid true
    else if count == 0 then s.skipRec p lid xid false
    else match s.partRead p list (4 * count) with
      | none => s.skipRec p lid xid true
      | some (ts, s) =>
        let toks := tokList ts count
        if (s.ert p xid).state == 2 then
          ((runs32 toks toks.length).zipIdx).foldl (fun s r => s.addTile p lid r.2 ri xid r.1) s
        else if w0.getLsbD 32 then s.bumpPart p 0x01B count
        else s.park p lid xid ri toks

/-- The ragged records of a launch, in order. -/
def State.raggedRecs (s : State) (p lid : Nat) (va : Word) (n : Nat) : State :=
  (List.range n).foldl (fun s k => s.raggedRec p lid k (vaPlus va (BitVec.ofNat 48 (16 * k)))) s

/-! ### Fetches and evictions (R310, R311, R315) -/

/-- The expert that eviction takes: PIN, LEASE and WAIT 0, least LAST, lowest XID. -/
def State.victim (s : State) (p : Nat) : Option Nat :=
  ((s.ertAll p).foldl (fun (best : Option (Nat × Ert)) k =>
    if k.2.state == 2 && k.2.pin == 0 && k.2.lease == 0 && k.2.wait == 0 then
      match best with
      | none => some k
      | some b => if k.2.last.toNat < b.2.last.toNat then some k else some b
    else best) none).map (·.1)

/-- The slots that no expert holds. -/
def State.freeSlots (s : State) (p : Nat) : List Nat :=
  (List.range (s.part p).cfg.nslot).filter fun n => !((s.slotted p).any fun k => k.2.slot.toNat == n)

/-- EXPERT_FETCH_START (R310): the oldest request takes the lowest free slot (log 35); with none free each request that waits has
one expert evicted for it, if one can be. -/
def execExpertFetchStart (part : Nat) (s : State) : Out :=
  let q := s.part part
  match q.xp.reqs with
  | [] => .next s
  | x :: rest =>
    let free := s.freeSlots part
    if !q.loaded || q.swapped || s.swapping part then .next s
    else if free.isEmpty then
      match q.xp.reqs.find? (fun r => !q.xp.asked.contains r), s.victim part with
      | some r, some v => .next ((s.modErt part v fun e => { e with state := 3 }).modXp part fun e =>
          { e with asked := e.asked ++ [r] })
      | _, _ => .next s
    else
      let n := free.headD 0
      .next ((s.modErt part x fun e =>
        { e with slot := BitVec.ofNat 12 n, frame := BitVec.ofNat 23 (q.cfg.slotF + n * q.cfg.slotSz) }).modXp part fun e =>
          { e with reqs := rest, asked := e.asked.filter (· != x), runs := e.runs ++ [x] })

/-- Bytes of one memory copied over bytes of another, in canonical form. -/
def memCopy (dst src : Mem) (a b n : Nat) : Mem :=
  (src.filter fun c => b ≤ c.1 && c.1 < b + n).foldl (fun m c => memWrite m (c.1 - b + a) c.2)
    (dst.filter fun c => !(a ≤ c.1 && c.1 < a + n))

/-- Every cached line of a range is written back and dropped. -/
def State.settleCached (s : State) (pa n : Nat) : State :=
  (List.range 4).foldl (fun s d =>
    (((s.dieCache d).map (·.1)).filter fun ln => pa / 64 ≤ ln && 64 * ln < pa + n).foldl (fun s ln => s.dieDrop d ln) s) s

/-- Whole frames written to HBM from the lode tier, and back (R310, R352). -/
def State.lodeIn (s : State) (lode pa n : Nat) : State :=
  let s := s.settleCached pa n
  { s with mem := { s.mem with
    hbm := memCopy s.mem.hbm s.mem.lode pa lode n
    poison := poisonAfter s.mem.poison pa n } }
def State.lodeOut (s : State) (lode pa n : Nat) : State :=
  let s := s.settleCached pa n
  { s with mem := { s.mem with
    lode := memCopy s.mem.lode s.mem.hbm lode pa n
    lodePoison := s.mem.lodePoison.filter fun f => !(lode ≤ 65536 * f && 65536 * f + 65536 ≤ lode + n) } }

/-- Whether a frame at a lode address lies in a decoded range of a port that is up (R351, R352). -/
def State.lodeOk (s : State) (a : BitVec 64) : Bool :=
  let port := (a.extractLsb' 48 2).toNat
  let off := (a.extractLsb' 0 48).toNat
  a.extractLsb' 50 14 == 0 && a.extractLsb' 0 16 == 0 && s.hf.lodeUp.getLsbD port
    && s.hf.lodeRanges.any fun r => r.1 == port && r.2.1 ≤ off && off + 65536 ≤ r.2.1 + r.2.2
/-- Whether it can also be read: the port answers in time and without poison (R352). -/
def State.lodeReads (s : State) (a : BitVec 64) : Bool := s.lodeOk a && !s.mem.lodePoison.contains (a.toNat / 65536)

/-- The first byte of an expert's slab and its frames. -/
def Part.slab (q : Part) (e : Ert) : Nat × Nat := ((q.cfg.slotF + e.slot.toNat * q.cfg.slotSz) * 65536, e.size.toNat)

/-- Whether an expert's fetch reads from the lode tier: it holds a slot and is one of the four that run (R310). -/
def State.fetching (s : State) (p x : Nat) : Bool :=
  let q := s.part p
  (q.xp.runs.take 4).contains x && (s.ert p x).state == 1 && q.loaded && !q.swapped && !s.swapping p

/-- A read error of a fetch (R310, R311): the slot is freed, one record and the counter; after eight errors in a row FAIL,
else with tokens parked a refetch is due 1 ms later. -/
def State.fetchError (s : State) (p x : Nat) : State :=
  if !s.fetching p x then s
  else
    let n := ((s.part p).xp.at x).errs + 1
    let again := n < 8 && (s.ert p x).wait != 0
    let s := (s.freeSlot p x).modErt p x fun e => { e with state := 0, fail := decide (8 ≤ n) }
    let s := s.modProg p x fun _ => { errs := n, refetch := if again then some s.tbase else none }
    let s := s.modXp p fun k => { k with runs := k.runs.filter (· != x) }
    (s.record p (evRec s 0 10 1 0 (0, 0) x 0 0 0 0 0)).bumpPart p 0x01C 1

/-- EXPERT_FETCH_COMPLETE (R310, R314, R334): the next frame of 64 KiB is written; with the last the expert is RESIDENT. A
frame that cannot be read is a read error (R352). -/
def execExpertFetchComplete (part xid : Nat) (s : State) : Out :=
  let q := s.part part
  let e := s.ert part xid
  let n := (q.xp.at xid).frames
  if !s.fetching part xid then .next s
  else if !s.lodeReads (e.lode + BitVec.ofNat 64 (65536 * n)) then .next (s.fetchError part xid)
  else
    let s := s.lodeIn (e.lode.toNat + 65536 * n) ((q.slab e).1 + 65536 * n) 65536
    if n + 1 < (q.slab e).2 then .next (s.modProg part xid fun k => { k with frames := n + 1 })
    else
      let s := (s.modProg part xid fun _ => {}).modXp part fun k => { k with runs := k.runs.filter (· != xid) }
      .next ((s.modErt part xid fun e => { e with state := 2 }).unpark part xid)

/-- EXPERT_FETCH_ERROR (R310). -/
def execExpertFetchError (part xid : Nat) (s : State) : Out := .next (s.fetchError part xid)
/-- LODE_READ_TIMEOUT (R352): a read error. -/
def execLodeReadTimeout (part xid : Nat) (s : State) : Out := .next (s.fetchError part xid)

/-- EXPERT_REFETCH_TIMER (R311): 1 ms after the error. -/
def execExpertRefetchTimer (part xid : Nat) (s : State) : Out :=
  let q := s.part part
  let e := s.ert part xid
  match (q.xp.at xid).refetch with
  | none => .next s
  | some t =>
    if 1000000 ≤ (s.tbase - t).toNat && e.state == 0 && e.wait != 0 && !e.fail && !q.swapped && !s.swapping part then
      .next (s.xpRequest part xid)
    else .next s

/-- EXPERT_EVICTION_DONE (R310, R315): a DIRTY slab is written back, wherever its LODE lies (log 101); the entry is ABSENT and
requests its fetch where one is wanted. -/
def execExpertEvictionDone (part xid : Nat) (s : State) : Out :=
  let q := s.part part
  let e := s.ert part xid
  if e.state != 3 || q.cfg.ertN ≤ xid || !q.loaded || q.swapped || s.swapping part then .next s
  else
    let s := if e.dirty then s.lodeOut e.lode.toNat (q.slab e).1 (65536 * (q.slab e).2) else s
    let s := (s.freeSlot part xid).modErt part xid fun e => { e with state := 0, dirty := false }
    if e.wait != 0 || e.pin != 0 || e.req then .next (s.xpRequest part xid) else .next s

/-! ### Embedding updates (R318-R320) -/

def Emb.tensor (e : Emb) : Nat := (e.w0.extractLsb' 0 16).toNat
def Emb.set (e : Emb) : Bool := e.w0.getLsbD 16
def Emb.fmt (e : Emb) : Nat := (e.w0.extractLsb' 17 4).toNat
def Emb.rowb (e : Emb) : Nat := ((e.w0.extractLsb' 21 11).toNat + 1) * 8
def Emb.inbox (e : Emb) : Nat := (e.w0.extractLsb' 32 16).toNat
def Emb.nsrc (e : Emb) : Nat := (e.w0.extractLsb' 48 10).toNat + 1
def Emb.slotBytes (e : Emb) : Nat := (e.w1.extractLsb' 0 32).toNat
def Emb.next (e : Emb) : BitVec 32 := e.w1.extractLsb' 32 32
/-- The offset of a source's slot for a step (R318). -/
def Emb.slotOff (e : Emb) (src : Nat) : Nat := 64 + (e.next.toNat % 2 * 1024 + src) * e.slotBytes
def Emb.slotVa (e : Emb) (src off : Nat) : Word := mkVa e.inbox (e.slotOff src + off)

def State.modEmb (s : State) (p i : Nat) (f : Emb → Emb) : State :=
  s.modPart p fun q => { q with emb := SMap.set q.emb i (f (SMap.get {} q.emb i)) }

/-- The stamp of a source's slot; 0 where it cannot be read. -/
def State.embStamp (s : State) (p : Nat) (e : Emb) (src : Nat) : Word :=
  match s.partRead p (e.slotVa src (e.slotBytes - 8)) 8 with
  | some (bs, _) => BitVec.ofNat 64 (leNat bs)
  | none => 0

/-- One lane of an ADD (R318, R319). A format code other than 3, 5 and 7 adds as I32 (log 113). -/
def embLane (fmt : Nat) (a b : Nat) : Nat :=
  if fmt == 5 then (f32add (BitVec.ofNat 32 a) (BitVec.ofNat 32 b)).toNat
  else if fmt == 7 then (bf16add (BitVec.ofNat 16 a) (BitVec.ofNat 16 b)).toNat
  else (a + b) % 2 ^ 32
/-- ADD of update bytes to row bytes, lane by lane. The last argument counts the lanes. -/
def embAdd (fmt w : Nat) (row upd : List Byte) : Nat → List Byte
  | 0 => []
  | n + 1 => natLe (embLane fmt (leNat (row.take w)) (leNat (upd.take w))) w ++ embAdd fmt w (row.drop w) (upd.drop w) n

/-- Where the bytes of a row of a tensor lie, in layout order: offset and length; one piece where SDIM is outermost (R260, R317). -/
def Desc.rowPieces (d : Desc) (r : Nat) : List (Nat × Nat) :=
  let n := d.rowBytes * d.extent d.sdim
  (List.range (if n == 0 then 0 else d.bytes / n)).map fun o => (o * n + r * d.rowBytes, d.rowBytes)
/-- The pieces of a row that its first bytes fill. -/
def cutPieces : List (Nat × Nat) → Nat → List (Nat × Nat)
  | [], _ => []
  | (o, n) :: ps, left => if left == 0 then [] else (o, min n left) :: cutPieces ps (left - n)
/-- A row read and written at partition scope; none where it faults. -/
def State.rowRead (s : State) (p t : Nat) : List (Nat × Nat) → Option (List Byte × State)
  | [] => some ([], s)
  | (o, n) :: ps => match s.partRead p (mkVa t o) n with
    | none => none
    | some (bs, s) => (s.rowRead p t ps).map fun r => (bs ++ r.1, r.2)
def State.rowWrite (s : State) (p t : Nat) : List (Nat × Nat) → List Byte → Option State
  | [], _ => some s
  | (o, n) :: ps, bs => match s.partWrite p (mkVa t o) (bs.take n) with
    | none => none
    | some s => s.rowWrite p t ps (bs.drop n)

/-- One record of a batch (R319). One that cannot be read counts as dropped, and a row that cannot be reached is skipped
(log 113). -/
def State.embRec (s : State) (p idx : Nat) (e : Emb) (src i : Nat) : State :=
  let off := 32 + i * (8 + e.rowb)
  match s.partRead p (e.slotVa src off) (8 + e.rowb) with
  | none => s.modEmb p idx fun e => { e with dropped := e.dropped + 1 }
  | some (bs, s) =>
    let r := leNat (bs.take 4)
    let upd := bs.drop 8
    let owned := (s.ownRows p e.tensor).any fun k => k.1 ≤ r && r < k.1 + k.2
    let d := s.desc p ((s.part p).cfg.bays.headD 0) e.tensor
    let ps := cutPieces (d.rowPieces r) e.rowb
    if !owned || r ≥ d.ext.getD d.sdim 1 then s.modEmb p idx fun e => { e with dropped := e.dropped + 1 }
    else if e.set then (s.rowWrite p e.tensor ps upd).getD s
    else match s.rowRead p e.tensor ps with
      | none => s
      | some (row, s) =>
        let w := if e.fmt == 7 then 2 else 4
        (s.rowWrite p e.tensor ps (embAdd e.fmt w row upd (row.length / w))).getD s

/-- The first source from one on whose slot is stamped. -/
def State.embNext (s : State) (p : Nat) (e : Emb) (n : Nat) : Option Nat :=
  (List.range 1024).find? fun src => n ≤ src && s.embStamp p e src != 0

/-- The stamp of a slot is cleared once the slot is applied or discarded, and the engine goes on to the next source. -/
def State.embClear (s : State) (p idx : Nat) (e : Emb) (src : Nat) : State :=
  let s := (s.partWrite p (e.slotVa src (e.slotBytes - 8)) (natLe 0 8)).getD s
  s.modEmb p idx fun e => { e with cur := some (src + 1, none) }

/-- The header of a slot (R319): its count of records, or none where the slot is discarded. -/
def State.embHead (s : State) (p : Nat) (e : Emb) (src : Nat) : Option Nat :=
  let status := ((s.embStamp p e src).extractLsb' 28 4).toNat
  match s.partRead p (e.slotVa src 0) 32 with
  | none => none
  | some (h, _) =>
    if (status == 0 || status == 3) && leNat (h.take 4) == e.next.toNat && leNat ((h.drop 4).take 2) % 1024 == src then
      some (leNat ((h.drop 8).take 4))
    else none

/-- The update task retires (R319): the flush of R300 over its region, in the cells and on every die of the partition; then
APPLIED and NEXT. -/
def State.embRetire (s : State) (p idx : Nat) (e : Emb) : State :=
  let hs := (s.embRegions p e).flatMap fun r =>
    ((partsOf (mkVa (rgTensor r) (rgBase r)) (rgExtent r)).flatMap (s.partCuts p)).flatMap fun k =>
      (((s.partList p .rd [k]).orElse fun _ => s.partList p .wr [k]).map (·.1)).getD []
  let hit := fun (ln : Nat) => hs.any fun h => match h.1 with
    | .hbm pa _ => pa < 64 * ln + 64 && 64 * ln < pa + h.2
    | _ => false
  let mine := fun (m : SMap Line) => (m.map (·.1)).filter hit
  let s := (s.cells.filter fun c => (s.part p).cfg.bays.contains (bayOf c.1)).foldl (fun s c =>
    (mine c.2.dc).foldl (fun s ln => s.cellDrop c.1 ln) s) s
  let s := (List.range 4).foldl (fun s d => (mine (s.dieCache d)).foldl (fun s ln => s.dieDrop d ln) s) s
  let t := e.next
  let s := s.modEmb p idx fun e =>
    { e with applied := t.zeroExtend 64, w1 := (t + 1) ++ e.w1.extractLsb' 0 32, busy := false, cur := none }
  (s.partWrite p (mkVa e.inbox 0) (natLe t.toNat 8)).getD s

/-- One action of the apply engine on a released update task (R319): the header of the next stamped slot in ascending source
order, a record of it, or the end of the task. A halt lies between two of them (R334). -/
def State.embStep (s : State) (p idx : Nat) : State :=
  let e := SMap.get {} (s.part p).emb idx
  match e.cur with
  | none => s
  | some (src, some (i, n)) =>
    let s := if i < n then s.embRec p idx e src i else s
    if i + 1 < n then s.modEmb p idx fun e => { e with cur := some (src, some (i + 1, n)) } else s.embClear p idx e src
  | some (src, none) =>
    match s.embNext p e src with
    | none => s.embRetire p idx e
    | some k => match s.embHead p e k with
      | none => (s.record p (evRec s 0 10 2 0 (0, 0) idx 0 0 0 0 0)).embClear p idx e k
      | some n => s.modEmb p idx fun e => { e with cur := some (k, some (0, n)) }

/-- Whether another update task ranks above one (R277, R319). -/
def Emb.aboveEmb (a : Emb) (i : Nat) (b : Emb) (j : Nat) : Bool :=
  a.prio > b.prio || (a.prio == b.prio && (a.age < b.age || (a.age == b.age && i < j)))

/-- Whether the update task of an entry is kept from running (R302, R319): the engine runs another, or a task that runs, or one
that waits and ranks higher, is in conflict with it. -/
def State.embBlocked (s : State) (p idx : Nat) (e : Emb) : Bool :=
  let rs := s.embRegions p e
  let q := s.part p
  s.parts.any (fun k => !k.2.swapped && k.2.emb.any fun o => o.2.cur.isSome)
    || q.running.any (fun t => regsConflict rs t.regions)
    || q.emb.any (fun o => o.1 != idx && o.2.busy && o.2.aboveEmb o.1 e idx && regsConflict rs (s.embRegions p o.2))
    || q.allGraphs.any fun g => !e.above g.entry && g.allWaiting.any fun w => match s.instRegions p g w.1 w.2 with
      | some ws => regsConflict rs ws
      | none => false

/-- Whether the next action of an update task waits for a path to the inbox, or to the row that a record names (R355). -/
def State.embWaits (s : State) (p : Nat) (e : Emb) : Bool :=
  s.partWaits p .wr (mkVa e.inbox 0) (64 + 2048 * e.slotBytes) || match e.cur with
    | some (src, some (i, _)) => (s.partRead p (e.slotVa src (32 + i * (8 + e.rowb))) 4).any fun b =>
      (cutPieces ((s.desc p ((s.part p).cfg.bays.headD 0) e.tensor).rowPieces (leNat b.1)) e.rowb).any fun k =>
        s.partWaits p .wr (mkVa e.tensor k.1) k.2
    | _ => false

/-- The update task of an entry is released if nothing keeps it from running, or goes on by one action. -/
def State.embGo (s : State) (p idx : Nat) : State :=
  let e := SMap.get {} (s.part p).emb idx
  if !e.busy || (s.part p).fenced || (s.part p).swapped || s.swapping p then s
  else if e.cur.isSome then (if s.embWaits p e then s else s.embStep p idx)
  else if s.embBlocked p idx e then s
  else s.modEmb p idx fun e => { e with cur := some (0, none) }

/-- EMBEDDING_STEP_COMPLETE (R319): the step's slots are all stamped, so the update task is created; its release and its actions
follow as the event, or TASK_RELEASE, comes again. -/
def execEmbeddingStepComplete (part idx : Nat) (s : State) : Out :=
  let q := s.part part
  match q.emb.find? fun e => e.1 == idx with
  | none => .next s
  | some (_, e) =>
    if q.swapped || q.fenced || s.swapping part then .next s
    else if e.busy then .next (s.embGo part idx)
    else if ((List.range 1024).filter fun src => s.embStamp part e src != 0).length < e.nsrc then .next s
    else .next ((s.modEmb part idx fun e => { e with busy := true, age := s.tbase.toNat }).embGo part idx)

end Sys2Proof.Machine
end

