-- ==== Sys2Proof/Machine/ImageLoad.lean ====
section
/-! DEFINITION. The die loader's checks of an image (R85, R216, R221, R242, R276, R289) and the cells that a variant's
records make at a load (R284). -/

namespace Sys2Proof.Machine

/-! ### The paths of a variant -/

/-- A router buffer of a variant: cell place, port, VC (2 back), and whether the path has crossed a link (R212). -/
structure PathNode where
  x   : Nat
  y   : Nat
  pt  : Nat
  vc  : Nat
  far : Bool
  deriving DecidableEq, Repr

/-- Where a path ends: an input endpoint, the control input of a switch word, or a port out of the rectangle. -/
inductive PathEnd where
  | ep (x y n : Nat) (far : Bool)
  | ctl (far : Bool)
  | edge (x y port vc : Nat)
  deriving DecidableEq, Repr

/-- The record of a place. -/
def recAt (v : Variant) (x y : Nat) : Option CellRec := v.cells.find? fun r => r.x == x && r.y == y
/-- The switch words of a record. -/
def recWords (r : CellRec) : List SwWord := r.words.filterMap decodeSwitch
/-- The place beyond a port, if it lies in the image's rectangle. -/
def beyond (i : Image) (x y port : Nat) : Option (Nat × Nat) :=
  if port == 0 then (if y == 0 then none else some (x, y - 1))
  else if port == 1 then (if x + 1 == 8 * i.width then none else some (x + 1, y))
  else if port == 2 then (if y + 1 == 8 * i.height then none else some (x, y + 1))
  else if x == 0 then none else some (x - 1, y)
/-- The facing port. -/
def facing (port : Nat) : Nat := (port + 2) % 4

/-- Where a record's local port delivers (R214): IN, or BIN for the back channel. -/
def recLocal (r : CellRec) (n vc : Nat) : Option Nat :=
  let e := if vc == 2 then SMap.get 0 r.epBin n else SMap.get 0 r.epIn (2 * n + vc)
  if e.getLsbD 7 then some (e.extractLsb' 0 7).toNat else none

/-- The ports that a switch word passes the tokens of a buffer to; none where it takes them as control values (R224-R226). -/
def swFlows (w : SwWord) (src : Nat × Nat) : Option (List (Nat × Nat)) :=
  match w with
  | .instr (.steer _ ctl _ _) => if src == (ctl.toNat, 0) then none else some (swSends w)
  | .instr (.merge ctl _ _ _) => if src == (ctl.toNat, 0) then none else some (swSends w)
  | .instr (.carry _ _ ctl _) => if src == (ctl.toNat, 0) then none else some (swSends w)
  | _ => some (swSends w)

/-- One step of a path: the buffers and ends that a buffer's token goes to. A token on a local port without an entry goes
nowhere (R229). -/
def pathStep (i : Image) (v : Variant) (k : PathNode) : List PathNode × List PathEnd :=
  match recAt v k.x k.y with
  | none => ([], [])
  | some r =>
    let flows := ((recWords r).filter fun w => (swReads w).contains (k.pt, k.vc)).map fun w => swFlows w (k.pt, k.vc)
    let outs := (flows.filterMap id).flatMap id
    let go := fun (o : Nat × Nat) =>
      if o.1 < 4 then
        match beyond i k.x k.y o.1 with
        | some q => (some { x := q.1, y := q.2, pt := facing o.1, vc := o.2, far := true : PathNode }, none)
        | none => (none, some (PathEnd.edge k.x k.y o.1 o.2))
      else match recLocal r (o.1 - 4) o.2 with
        | some n => (none, some (PathEnd.ep k.x k.y n k.far))
        | none => (none, none)
    let rs := outs.map go
    (rs.filterMap (·.1), rs.filterMap (·.2) ++ (flows.filter Option.isNone).map fun _ => PathEnd.ctl k.far)

/-- Every end that paths from a list of buffers reach. The first argument is fuel. -/
def pathEnds (i : Image) (v : Variant) : Nat → List PathNode → List PathNode → List PathEnd
  | 0, _, _ => []
  | _, [], _ => []
  | f + 1, k :: todo, seen =>
    if seen.contains k then pathEnds i v f todo seen
    else
      let r := pathStep i v k
      r.2 ++ pathEnds i v f (r.1 ++ todo) (k :: seen)

/-- Fuel for the paths of a variant. -/
def pathFuel (v : Variant) : Nat := 64 * v.cells.length + 64

/-- The ends that an output endpoint of a record reaches (R214). -/
def outEnds (i : Image) (v : Variant) (r : CellRec) (n : Nat) : List PathEnd :=
  let e := SMap.get 0 r.epOut n
  if e.extractLsb' 8 2 == 1 then
    let vc := if n == 0x30 || n == 0x31 then 2 else (e.extractLsb' 2 1).toNat
    pathEnds i v (pathFuel v) [{ x := r.x, y := r.y, pt := 4 + (e.extractLsb' 0 2).toNat, vc := vc, far := false }] []
  else if e.extractLsb' 8 2 == 2 then [.ep r.x r.y (e.extractLsb' 0 7).toNat false]
  else []

/-- The destination codes of a record's elements. -/
def recDests (r : CellRec) : List (BitVec 6) :=
  (r.engines.filter fun e => e.1 < 16).flatMap fun e => match elemInstr e.2.word with
    | some k => destList k
    | none => []

/-- Whether an end is the input of a channel queue. -/
def PathEnd.isQueue : PathEnd → Bool
  | .ep x y n _ => kindOf (cellAt x y) == 0 && 0x60 ≤ n && n < 0x80
  | .ctl _ => false
  | .edge .. => false
def PathEnd.isFar : PathEnd → Bool
  | .ep _ _ _ f => f
  | .ctl f => f
  | .edge .. => true
/-- The ends past a queue that a path enters. -/
def pastQueue (i : Image) (v : Variant) : PathEnd → List PathEnd
  | .ep x y n _ => match recAt v x y with
    | some r => outEnds i v r n
    | none => []
  | .ctl _ => []
  | .edge .. => []

/-- Whether a path to a consumer crosses a link and passes another number of channel queues than one; `n` and `far` tell of
the path so far. The first argument is fuel. -/
def badPath (i : Image) (v : Variant) : Nat → Nat → Bool → PathEnd → Bool
  | 0, _, _, _ => true
  | f + 1, n, far, e =>
    if e.isQueue then (pastQueue i v e).any (badPath i v f (n + 1) (far || e.isFar)) else (far || e.isFar) && n != 1
/-- Whether a channel path from a producer holds no channel queue, or more than one (R212, R216). -/
def badChannel (i : Image) (v : Variant) (ends : List PathEnd) : Bool := ends.any (badPath i v (pathFuel v) 0 false)

/-! ### Layout checks (R81, R82, R216, R221, R242, R276, R289) -/

/-- The header, section table and counts (R81). -/
def headBad (i : Image) : Bool :=
  let n := fun (t : Nat) => (i.sections.filter (· == t)).length
  let signed := i.flags.getLsbD 0
  i.magic != 0x4E4B4249 || i.version != 1 || i.flags.extractLsb' 1 15 != 0 || !i.rsvZero || !i.tableOk
    || i.width < 1 || i.width > 12 || i.height < 1 || i.height > 12 || i.nvar < 1 || i.nvar > 64
    || i.nvar != i.variants.length || i.nsect != i.sections.length
    || i.sections.any (fun t => t < 1 || t > 6) || n 1 != 1 || n 2 != 1 || n 3 != 1 || n 4 > 1 || n 5 > 1
    || n 6 != (if signed then 1 else 0) || (signed && i.sections.getLast? != some 6)

/-- An endpoint map that breaks R216. -/
def mapBad (r : CellRec) : Bool :=
  let c := cellAt r.x r.y
  let back := fun n => match inEndpoint c n with
    | some (.seek _) => true
    | _ => false
  let known := fun n => (inEndpoint c n).isSome
  r.epIn.any (fun e => e.1 > 7 || (e.2.getLsbD 7 && (!known (e.2.extractLsb' 0 7).toNat || back (e.2.extractLsb' 0 7).toNat)))
    || r.epBin.any (fun e => e.1 > 3 || (e.2.getLsbD 7 && !back (e.2.extractLsb' 0 7).toNat))
    || r.epOut.any fun e =>
      let m := e.2.extractLsb' 8 2
      let bk := e.1 == 0x30 || e.1 == 0x31
      m == 3 || (m != 0 && (outEndpoint c e.1).isNone) || (m == 2 && (bk || !known (e.2.extractLsb' 0 7).toNat))
        || (m == 1 && bk && e.2.getLsbD 2)

/-- The input endpoints of a record that have a source, once per source (R216). -/
def recSources (r : CellRec) : List Nat :=
  (r.epIn.filter fun e => e.2.getLsbD 7).map (fun e => (e.2.extractLsb' 0 7).toNat)
    ++ (r.epBin.filter fun e => e.2.getLsbD 7).map (fun e => (e.2.extractLsb' 0 7).toNat)
    ++ (r.epOut.filter fun e => e.2.extractLsb' 8 2 == 2).map (fun e => (e.2.extractLsb' 0 7).toNat)
    ++ ((recDests r).filter fun d => d.toNat < 0x30).map fun d => 3 * (d.toNat % 16) + d.toNat / 16

/-- Whether a list holds a value twice. -/
def hasDup {α : Type} [BEq α] (l : List α) : Bool := l.eraseDups.length != l.length

/-- Switch words in conflict (R221). -/
def wordsBad (r : CellRec) : Bool :=
  let ws := recWords r
  let own := fun w => match w with
    | SwWord.instr (.route src mask _) => src.toNat < 4 && mask.getLsbD src.toNat
    | SwWord.instr (.routeB src mask) => src.toNat < 4 && mask.getLsbD src.toNat
    | SwWord.instr (.fork inp mask) => inp.toNat < 4 && mask.getLsbD inp.toNat
    | _ => false
  hasDup (ws.flatMap fun w => (swSends w).eraseDups) || hasDup (ws.flatMap fun w => (swReads w).eraseDups) || ws.any own

/-- A word that sends where nothing reads (R216). -/
def unreadBad (i : Image) (v : Variant) (r : CellRec) : Bool :=
  let reads := fun (q : CellRec) (o : Nat × Nat) =>
    (recWords q).any (fun w => (swReads w).contains o) || (recWords q).contains .clrr
  ((recWords r).flatMap swSends).any fun o =>
    if o.1 < 4 then
      match beyond i r.x r.y o.1 with
      | none => false
      | some q => match recAt v q.1 q.2 with
        | none => true
        | some q => !reads q (facing o.1, o.2)
    else (recLocal r (o.1 - 4) o.2).isNone && !(recWords r).contains .clrr

/-- The bindings of a variant (R276): the ports out of the rectangle that its words read (true) or send to. -/
def varBindings (i : Image) (v : Variant) (ins : Bool) : List Binding :=
  v.cells.flatMap fun r =>
    (((recWords r).flatMap fun w => if ins then swReads w else swSends w).eraseDups.filter fun o =>
      o.1 < 4 && o.2 < 2 && (beyond i r.x r.y o.1).isNone).map fun o => { x := r.x, y := r.y, port := o.1, vc := o.2 : Binding }
/-- A ROUTE.B that names a port out of the rectangle. -/
def backOut (i : Image) (r : CellRec) : Bool :=
  (recWords r).any fun w => (swReads w ++ swSends w).any fun o => o.1 < 4 && o.2 == 2 && (beyond i r.x r.y o.1).isNone
/-- Two lists of bindings that hold the same. -/
def sameBindings (a b : List Binding) : Bool := a.length == b.length && a.all fun x => b.contains x

/-- The seek bits of an ISECT word by side. -/
def seekSide (w : BitVec 32) (side : Nat) : Bool :=
  match decodeOp w with
  | some (.instr (.isect _ _ ska skb _)) => if side == 0 then ska == 1 else skb == 1
  | _ => false
/-- SEEKEN of a SCAN word. -/
def seekEn (w : BitVec 32) : Bool :=
  match decodeOp w with
  | some (.instr (.scanD _ _ k)) | some (.instr (.scanC _ _ _ _ k)) | some (.instr (.scanB _ _ _ _ k)) => k == 1
  | _ => false
def recWord (r : CellRec) (u : Nat) : BitVec 32 := (SMap.get {} r.engines u).word

/-- The consumers of an output endpoint, past its channel queue. -/
def consumers (i : Image) (v : Variant) (r : CellRec) (n : Nat) : List PathEnd :=
  (outEnds i v r n).flatMap fun e => if e.isQueue then pastQueue i v e else [e]

/-- A scanner with SEEKEN 1 whose output or seeks are routed against R242. -/
def scanSeekBad (i : Image) (v : Variant) (r : CellRec) (u : Nat) : Bool :=
  kindOf (cellAt r.x r.y) == 0 && seekEn (recWord r u) &&
    match consumers i v r (0x20 + (u - 16)) with
    | [.ep x y n _] =>
      match recAt v x y with
      | some q =>
        let side := n - 0x50
        !(kindOf (cellAt x y) == 1 && (n == 0x50 || n == 0x51) && seekSide (recWord q 19) side
          && match outEnds i v q (0x30 + side) with
            | [.ep x' y' n' _] => x' == r.x && y' == r.y && n' == 0x58 + (u - 16)
            | _ => false)
      | none => true
    | _ => true
/-- A seek-enabled merge side whose back output is routed elsewhere than to the scanner that feeds it (R242). -/
def mergeSeekBad (i : Image) (v : Variant) (r : CellRec) (side : Nat) : Bool :=
  kindOf (cellAt r.x r.y) == 1 && seekSide (recWord r 19) side &&
    match outEnds i v r (0x30 + side) with
    | [.ep x y n _] =>
      match recAt v x y with
      | some q => !((n == 0x58 || n == 0x59) && match consumers i v q (0x20 + (n - 0x58)) with
          | [.ep x' y' n' _] => x' == r.x && y' == r.y && n' == 0x50 + side
          | _ => false)
      | none => true
    | _ => true

/-- A cell record that breaks R82, R216, R221, R242 or R289. The channel of a queue with no bound source, which a copy engine
fills (R178, R213), has passed that queue. -/
def recBad (i : Image) (v : Variant) (r : CellRec) : Bool :=
  let c := cellAt r.x r.y
  let m := kindOf c == 0
  r.x ≥ 8 * i.width || r.y ≥ 8 * i.height
    || r.actors.any (fun e => e.1 > 7 || (e.2.take ++ e.2.emit).any (fun k => k.1 > 3 || k.2 > 8) || e.2.sinks.any (· > 3))
    || r.stab.any (fun e => !m || e.1 > 63 || !msOk e.2)
    || r.depths.any (fun e => !m || e.1 > 31 || e.2 < 1 || e.2 > 255)
    || mapBad r || hasDup (recSources r) || wordsBad r || unreadBad i v r || backOut i r
    || r.epOut.any (fun e =>
      !(m && 0x60 ≤ e.1 && e.1 < 0x80) && e.1 != 0x30 && e.1 != 0x31 && badChannel i v (outEnds i v r e.1))
    || (recDests r).any (fun d => 0x30 ≤ d.toNat && badChannel i v
      (pathEnds i v (pathFuel v) [{ x := r.x, y := r.y, pt := 4 + d.toNat % 16, vc := 0, far := false }] []))
    || (m && r.depths.any fun e => !(recSources r).contains (0x60 + e.1) && (outEnds i v r (0x60 + e.1)).any (badPath i v (pathFuel v) 1 false))
    || scanSeekBad i v r 16 || scanSeekBad i v r 17 || mergeSeekBad i v r 0 || mergeSeekBad i v r 1

/-- IMG_LAYOUT (R85). -/
def layoutBad (i : Image) : Bool :=
  headBad i || hasDup (i.variants.map (·.masks)) || i.ingress.length > 4 || i.egress.length > 4 || i.ingress.isEmpty
    || i.variants.any fun v =>
      v.masks.length != i.width * i.height || hasDup (v.cells.map fun r => (r.x, r.y)) || v.cells.any (recBad i v)
        || !sameBindings (varBindings i v true) i.ingress || !sameBindings (varBindings i v false) i.egress
        || i.ingress.any fun b =>
          badChannel i v (pathEnds i v (pathFuel v) [{ x := b.x, y := b.y, pt := b.port, vc := b.vc, far := true }] [])

/-- IMG_SIG (R84, R85, R358). -/
def sigBad (k : PartCfg) (i : Image) : Bool :=
  if !i.flags.getLsbD 0 then k.require
  else match k.keys.find? fun e => e.1 == i.keyIdx with
    | none => true
    | some e => !Config.ed25519Verify e.2 (Config.sha512 i.bytes) i.sig

/-- Whether a unit exists in a cell kind (R12). -/
def unitIn (c u : Nat) : Bool :=
  if u < 16 then u < elemCount c
  else if kindOf c == 0 then u ≤ 18 else if kindOf c == 1 then 19 ≤ u && u ≤ 22 else 23 ≤ u && u ≤ 27

/-- IMG_OPCODE (R71, R74, R85, R216). A record of a unit that its cell kind lacks is refused with it too (log 95). -/
def opcodeBad (i : Image) : Bool :=
  i.variants.any fun v => v.cells.any fun r =>
    let c := cellAt r.x r.y
    r.words.length > 32 || r.words.any (fun w => (decodeSwitch w).isNone)
      || r.engines.any fun e => !unitIn c e.1 || (if e.1 < 16 then match elemInstr e.2.word with
          | some k => !elemWordOk c k
          | none => true
        else !unitWordOk e.1 e.2.word)

/-- The bays of a rectangle at an origin. -/
def rectBays (ox oy w h : Nat) : List Nat :=
  (List.range h).flatMap fun j => (List.range w).map fun i => (oy + j) * 12 + (ox + i)
/-- The origins of an image in row-major order. -/
def origins (i : Image) : List (Nat × Nat) :=
  (List.range (13 - i.height)).flatMap fun oy => (List.range (13 - i.width)).map fun ox => (ox, oy)

/-- The ports that a switch word names: those it reads and sends to, and the one that a TAP observes (R222-R228). -/
def wordPorts (w : SwWord) : List Nat :=
  (swReads w ++ swSends w).map (·.1) ++ match w with
    | .tap port _ => [port.toNat]
    | _ => []
/-- Whether a variant at an origin has a word that names the port of a defective neighbour which its masks do not cover (R20,
R74). -/
def State.portBad (s : State) (i : Image) (v : Variant) (o : Nat × Nat) : Bool :=
  v.cells.any fun r => ((recWords r).flatMap wordPorts).any fun k =>
    k < 4 && match beyond i r.x r.y k with
      | none => false
      | some q => s.defective (cellAt (8 * o.1 + q.1) (8 * o.2 + q.2))
          && !(v.masks.getD (q.2 / 8 * i.width + q.1 / 8) 0).getLsbD (q.2 % 8 * 8 + q.1 % 8)
/-- IMG_OPCODE for the ports that words name (R85): the partition has origins for the image, and at each of them every variant
names the port of a defective neighbour that it does not mask (log 87). -/
def State.portsBad (s : State) (p : Nat) (i : Image) : Bool :=
  let os := (origins i).filter fun o => (rectBays o.1 o.2 i.width i.height).all (s.part p).cfg.bays.contains
  !os.isEmpty && os.all fun o => i.variants.all fun v => s.portBad i v o

/-- IMG_SCOPE (R85): a channel of a variant crosses scopes, and names no ABUT word on its way. -/
def scopeBad (i : Image) : Bool :=
  i.variants.any fun v => v.scopes.any fun e => e.scopeFrom != e.scopeTo && match e.abut with
    | none => true
    | some q => match recAt v (q.1 % 96) (q.1 / 96) with
      | none => true
      | some r => match (r.words[q.2]?).bind decodeSwitch with
        | some (.instr (.abut ..)) => false
        | _ => true

/-- IMG_BUFFER (R83, R85, R155). An entry that names a variant which the image does not have is refused too (log 88). -/
def bufferBad (i : Image) : Bool :=
  let depth := fun (v : Variant) (q : Nat × Nat) => match recAt v (q.1 % 96) (q.1 / 96) with
    | some r => SMap.get 0 r.depths q.2
    | none => 0
  i.cycles.any (fun e => match i.variants[e.variant]? with
    | some v => (e.queues.map (depth v)).foldl (· + ·) 0 < e.need
    | none => true)
    || i.variants.any fun v => v.cells.any fun r => (r.depths.foldl (fun n e => n + e.2) 0) * 1280 > 0x40000

/-- IMG_STENCIL (R85, R278). -/
def stencilBad (i : Image) : Bool :=
  i.stencils.any fun d => d.1 < -3 || d.1 > 3 || d.2 < -3 || d.2 > 3 || !(d.2 < 0 || (d.2 == 0 && d.1 < 0))

/-- The code with which the loader refuses an image at checks 1-6, the lowest in order; 0 for none (R85). -/
def State.imageCode (s : State) (p : Nat) (i : Image) : Nat :=
  if layoutBad i then 7
  else if sigBad (s.part p).cfg i then 1
  else if opcodeBad i || s.portsBad p i then 2
  else if scopeBad i then 4
  else if bufferBad i then 3
  else if stencilBad i then 6
  else 0

/-- IMAGE_CHECK (R85, R280): the checks run once; launches that name a refused image, or join an adit to a binding that the
image lacks, are refused. -/
def execImageCheck (part : Nat) (id : BitVec 64) (s : State) : Out :=
  let q := s.part part
  match q.images.find? fun e => e.img.id == id with
  | none => .next s
  | some e =>
    if e.state != 1 || q.fenced || q.swapped then .next s
    else
      let code := s.imageCode part e.img
      let s := s.modPart part fun q => { q with
        images := q.images.map (fun x => if x.img.id == id then { x with state := if code == 0 then 2 else 3, code := code } else x)
        lqs := q.lqs.map (fun l => (l.1, l.2.map fun x => if lrImage x.lrec == id then { x with istate := 2 } else x)) }
      let mine := ((s.part part).lqs.flatMap (·.2)).filter fun x => lrImage x.lrec == id
      .next (mine.foldl (fun s x =>
        if ((s.part part).queued x.lid).isNone then s
        else if code != 0 then s.refuse part x code
        else if lrLacks x.lrec e.img then s.refuse part x 11
        else s) s)

/-! ### The cells of a variant (R284) -/

/-- A slot as an image gives it (R33, R86, R88). -/
def slotOf (a : ActorRec) : Slot := { valid := true, entry := a.entry, prio := a.prio, take := a.take, emit := a.emit, sinks := a.sinks }
def elemOf (e : EngineRec) : Elem := { word := e.word, k := e.k }
def blockOf (e : EngineRec) : Block := { word := e.word, k := e.k }

/-- The bytes of a list put into canonical form. -/
def normMem (m : Mem) : Mem := m.foldl (fun a c => memWrite a c.1 c.2) []

/-- A cell that nothing has written, at image load: the record's items, every other item at its image-load value. The memory
sequencer enters state 0 (R273). -/
def cellOf (r : CellRec) : Cell :=
  { code := normMem r.code, priv := normMem r.priv
    slots := r.actors.map fun e => (e.1, slotOf e.2)
    elems := (r.engines.filter fun e => e.1 < 16).map fun e => (e.1, elemOf e.2)
    blocks := (r.engines.filter fun e => e.1 ≥ 16).map fun e => (e.1, blockOf e.2)
    router := { words := r.words, epIn := r.epIn, epBin := r.epBin, epOut := r.epOut }
    m :=
      { queues := r.depths.map fun e => (e.1, { depth := e.2 })
        ms := ({ table := r.stab } : MemSeq).enter 0 } }

/-- An element at image load with the tokens that it holds: R114 lists no image load as a changer of its slots and output stage. -/
def Elem.reload (x : Elem) (new : Elem) : Elem := { new with in0 := x.in0, in1 := x.in1, in2 := x.in2, out := x.out }
/-- A weight plane with its contents and the state that an image load gives it (R139). -/
def Plane.reload (x : Plane) : Plane := { x with state := 0 }

/-- A cell at image load (R284): what the record gives, and every item that an image load changes at its value. What the
catalogues do not list an image load for stays (R4): the scratchpad and its poison, the bytes of the code store and the
private memory that the record does not give, general registers, clause state and ACTOR, the trap's registers and a latched
trap, the monitor, the slots and output stages of elements, the VC turns, the contents of weight planes and of column FIFOs,
the commands of the engines, and the translation cache (R86, R88, R114, R139, R152, R174, R230, R328; log 89). -/
def loadCell (x : Cell) (r : CellRec) : Cell :=
  let new := cellOf r
  let tr := x.seq.tr
  { new with
    code := r.code.foldl (fun m c => memWrite m c.1 c.2) x.code
    priv := r.priv.foldl (fun m c => memWrite m c.1 c.2) x.priv
    tlb := x.tlb
    elems := (x.elems.map (·.1) ++ new.elems.map (·.1)).foldl (fun m k => SMap.set m k ((x.elem k).reload (new.elem k))) []
    mx := { planeA := x.mx.planeA.reload, planeB := x.mx.planeB.reload, fifos := x.mx.fifos }
    seq := { g := x.seq.g, p := x.seq.p, lk := x.seq.lk, mon := x.seq.mon, loopst := x.seq.loopst, actor := x.seq.actor,
             pending := x.seq.pending
             tr := { cause := tr.cause, pc := tr.pc, value := tr.value, ls := tr.ls } }
    router := { new.router with turn := x.router.turn }
    m := { new.m with
      scratch := x.m.scratch, poison := x.m.poison, copy := { x.m.copy with seq := 1 }, fill := { x.m.fill with seq := 1 } } }
/-- A yielded cell's context loaded over an image load (R329, R330). The translation cache, the engines' state and the cell's
counters are no part of it and stay as the image load leaves them (R174, R322). -/
def restoreCell (x : Cell) (y : Cell) : Cell :=
  { y with
    tlb := x.tlb, cnt := x.cnt, now := x.now
    m := { y.m with copy := x.m.copy, fill := x.m.fill }
    seq := { x.seq with tr := { x.seq.tr with vec := y.seq.tr.vec, be := y.seq.tr.be, ss := y.seq.tr.ss }, sched := y.seq.sched } }

/-- A cell's data cache written back and emptied (R205, R408). -/
def State.emptyDc (s : State) (c : Nat) : State := ((s.cell c).dc.map (·.1)).foldl (fun s ln => s.cellDrop c ln) s
/-- Every line of a die cache written back and dropped: the acquire of a placement (R205). -/
def State.emptyDie (s : State) (d : Nat) : State := ((s.dieCache d).map (·.1)).foldl (fun s ln => s.dieDrop d ln) s

/-- Empties the data caches of the cells of a list of bays, their dirty lines written back first. -/
def State.drainCells (s : State) (bs : List Nat) : State :=
  ((s.cells.map (·.1)).filter fun c => bs.contains (bayOf c)).foldl State.emptyDc s
/-- Every line of a die cache written back and kept. -/
def State.cleanDie (s : State) (d : Nat) : State := ((s.dieCache d).map (·.1)).foldl (fun s ln => s.dieClean d ln) s

/-- Whether a variant leaves the place of a record unused (R20, R80): a defective cell holds nothing, and a variant that fits
masks every one. The argument is the rectangle's width in cells. -/
def placeUnused (v : Variant) (w : Nat) (r : CellRec) : Bool :=
  (v.masks.getD (r.y / 8 * (w / 8) + r.x / 8) 0).getLsbD (maskBit (cellAt r.x r.y))

/-- PLACEMENT_LOAD_COMPLETE (R284, R330): the variant's cells, or those of a yielded context by cell-record index, stand in
the rectangle; the placement acts as the acquire of R205. -/
def execPlacementLoadComplete (part lid : Nat) (s : State) : Out :=
  match s.graph part lid with
  | none => .next s
  | some g =>
    if !g.loading || s.swapping part || s.hf.toPoint.isSome then .next s
    else
      let s := g.cells.foldl (fun s c => s.modCell c fun x => loadCell x {}) (s.drainCells g.bays)
      let v := s.graphVariant part g
      let recs := v.cells.zipIdx.filter fun r => !placeUnused v (8 * g.w) r.1
      let ctx := (s.part part).yields.find? fun e => e.1 == lid
      let put := fun (s : State) (k : CellRec × Nat) => s.modCell (g.cellOf k.1.x k.1.y) fun x =>
        let x := loadCell x k.1
        match ctx with
        | some e => (e.2.cells[k.2]?).elim x fun y => restoreCell x y.2
        | none => x
      let s := recs.foldl put s
      let s := (diesOf g.bays).foldl State.emptyDie s
      let s := s.modPart part fun q => { q with yields := smErase q.yields lid }
      .next (s.modGraph part lid fun g => { g with loading := false })

end Sys2Proof.Machine
end

