-- ==== Sys2Proof/Machine/Launch.lean ====
section
/-! DEFINITION. LAUNCH and RLAUNCH (R279), adits (R275, R347), admission and placement (R281-R283), time-sharing, yield
and compaction (R285, R286, R330). -/

namespace Sys2Proof.Machine

/-! ### LAUNCH and RLAUNCH (R279) -/

/-- Whether a record breaks R274 or the rows of its instruction (R279). -/
def launchBad (r : BitVec 512) (ragged : Bool) : Bool :=
  lrMalformed r || (if ragged then lrNrec r == 0 || (lrWord r 1).extractLsb' 0 24 != 0 || lrStencil r != 0 else lrNrec r != 0)

/-- The enqueue of LAUNCH and RLAUNCH, on the record read at issue: a wait for room, then the checks (R279). -/
def State.launchRec (s : State) (p : Nat) (d : BitVec 5) (r : BitVec 512) (ragged : Option Word) : Out :=
  if launchBad r ragged.isSome then s.doneG d (failCode 8)
  else if ((s.part p).lq (lrQueue r)).length ≥ 64 then
    .next (s.setSeq { s.seq with wait := { s.seq.wait with lrec := some r, stall := 3 } })
  else
    let code := s.launchCode p r false
    if code != 0 then s.doneG d (failCode code)
    else
      let e := s.enqueue p r (64 + s.focus.cell) ragged none
      e.2.doneG d (BitVec.ofNat 64 e.1)

/-- LAUNCH and RLAUNCH: a release at partition scope, the read of the record, the enqueue. -/
def State.launchOp (s : State) (i : Instr) (d a : BitVec 5) (ragged : Option Word) : Out :=
  let c := s.focus.cell
  match s.partOf c with
  | none => s.illop i
  | some p =>
    match s.seq.wait.lrec with
    | some r => s.launchRec p d r ragged
    | none =>
      let s := s.release c 4
      let va := vaPlus (s.seq.getG a) 0
      if va.toNat % 8 != 0 then s.trapSelf 0x03 va (wordOf i)
      else match s.readVa (s.seqWho c) va 64 with
        | .error f => s.seqFail i .rd va f
        | .ok (bs, s) => s.launchRec p d (bytes512 bs) ragged

/-- LAUNCH (R279). -/
def execLaunch (d a : BitVec 5) (s : State) : Out := s.launchOp (.launch d a) d a none
/-- RLAUNCH (R279). -/
def execRlaunch (d a b : BitVec 5) (s : State) : Out := s.launchOp (.rlaunch d a b) d a (some (s.seq.getG b))

/-! ### Adits -/

/-- Whether the tokens written to an adit go to a fenced launch that reserved it (R276), placed or saved in the caisson. -/
def State.aditFenced (s : State) (p : Nat) (a : Adit) : Bool :=
  match a.named with
  | some lid => (s.tablesOf p).graphs.any fun g => g.lid == lid && g.fenced
  | none => false

/-- The launch that an adit is held by: the one that named it, or that of its last stream; 0 for none. -/
def Adit.holder (a : Adit) : Nat := (a.named.orElse fun _ => a.streams.getLast?.bind (·.lid)).getD 0
/-- IMAGE_ID of a queued or placed launch, as a record gives it (R340); 0 for none. -/
def State.launchImage (s : State) (p lid : Nat) : Word :=
  match s.graphAny p lid, (s.part p).queued lid with
  | some g, _ => lrImage g.entry.lrec
  | none, some e => lrImage e.lrec
  | none, none => 0

/-- A token as the 128 bytes of a TOKEN slot give it (R347): the head, and the payload where PL is 1. -/
def tokenOf128 (d : BitVec 1024) : Token := tkOfHead (d.extractLsb' 0 64) (d.extractLsb' 64 64) (d.extractLsb' 128 512)

/-- ADIT_TOKEN_WRITE (R347): none stands for a write of another size or alignment. -/
def execAditTokenWrite (part adit : Nat) (data : Option (BitVec 1024)) (s : State) : Out :=
  let q := s.part part
  let a := q.adit adit
  let gone := fun (s : State) (t : Token) =>
    let s := s.aditDrop part adit 1
    if t.kind == 2 then s.modAdit part adit Adit.loseDone else s
  if !q.loaded || adit ≥ 64 then .next s
  else match data.map tokenOf128 with
    | none => .next (s.aditDrop part adit 1)
    | some t =>
      if q.fenced then .next (s.aditDrop part adit 1)
      else if a.broken then .next (gone s t)
      else if a.discard then
        .next ((s.aditDrop part adit 1).modAdit part adit fun a =>
          if t.kind == 2 then { a with discard := false, fencedOpen := false } else a)
      else if s.aditFenced part a then .next (s.aditDrop part adit 1)
      else if a.queue.length ≥ 512 || t.kind == 6 || t.kind.toNat ≥ 8 then
        let lid := a.holder
        let s := s.record part (evRec s lid 9 1 0 (0, 0) adit 0 0 0 (s.launchImage part lid) 0)
        .next (gone (s.modAdit part adit fun a => { a with broken := true }) t)
      else .next (s.modAdit part adit fun a => { a with queue := a.queue ++ [t] })

/-- Whether a token opens a host launch (R275). -/
def opens (t : Token) : Bool := t.kind == 0 && t.pl && t.coord == 0xFFFFFFFF

/-- A host launch refused at enqueue (R275, R280): it takes a LID, writes its word and one record, and its stream is
discarded; the LID is live only until the word is written. -/
def State.refuseHost (s : State) (p adit pos i : Nat) (r : BitVec 512) (code : Nat) : State :=
  let (lid, s) := s.takeLid p
  let s := s.record p (evRec s lid 9 0 0 (0, 0) code 0 0 0 (lrImage r) 0)
  let k := ((s.part p).adit adit).cutStream pos i
  let s := (s.modAdit p adit fun _ => k.1).aditDrop p adit k.2
  (s.complete p r lid 2 code true).dropLid p lid

/-- ADIT_LAUNCH_ENQUEUE (R275): the opening token of the next stream in the queue. -/
def execAditLaunchEnqueue (part adit : Nat) (s : State) : Out :=
  let q := s.part part
  let a := q.adit adit
  if !q.loaded || q.fenced || q.swapped || s.swapping part then .next s
  else match openFrom a.streams a.queue 0 0 with
    | none => .next s
    | some (pos, i) =>
      match if a.named.isSome && a.streams.length ≤ i then none else a.queue[pos]? with
      | none => .next s
      | some t =>
        if !opens t then
          let k := a.cutStream pos i
          let s := s.record part (evRec s 0 9 1 0 (0, 0) adit 0 0 0 0 0)
          .next ((s.modAdit part adit fun _ => k.1).aditDrop part adit k.2)
        else
          let r := t.payload
          if (q.lq (lrQueue r)).length ≥ 64 then .next s
          else
            let own := (lrAdits r).contains adit
            let code := s.launchCode part r true
            let code := if code == 0 && own then 11 else code
            if code != 0 then .next (s.refuseHost part adit pos i r code)
            else
              let open_ := fun (lid : Nat) (a : Adit) =>
                let st := a.streams.getD i {}
                let st := { st with lid := some lid, left := st.left.map (· - 1) }
                { a with queue := a.queue.eraseIdx pos, streams := if i < a.streams.length then a.streams.set i st else a.streams ++ [st] }
              let e := (s.modAdit part adit (open_ 0)).enqueue part r adit none (some adit)
              .next (e.2.modPart part fun q =>
                { q with adits := q.adits.map fun x => (x.1, { x.2 with streams := x.2.streams.map fun st =>
                    (if st.lid == some 0 then { st with lid := some e.1 } else st) }) })

/-! ### Placement (R283) -/

/-- Whether a binding at an origin lands on the mesh edge that its port faces. -/
def edgeOk (ox oy : Nat) (b : Binding) : Bool := (neighbour (cellAt (8 * ox + b.x) (8 * oy + b.y)) b.port).isNone
/-- Whether a variant covers the defects of bays (R82). -/
def State.variantFits (s : State) (v : Variant) (bs : List Nat) : Bool :=
  (bs.zip v.masks).all fun k => SMap.get 0 s.masks k.1 &&& ~~~k.2 == 0
/-- Whether an origin is open to an image: its bays are the partition's, placeable, and hold no graph but those given, and
the bindings land on edges. -/
def State.originOk (s : State) (p : Nat) (i : Image) (ox oy : Nat) (but : List Nat) : Bool :=
  let q := s.part p
  (rectBays ox oy i.width i.height).all (fun b =>
    q.cfg.bays.contains b && !s.hf.badBays.contains b && !(q.graphs.any fun g => !but.contains g.lid && g.holdsBay b))
    && (i.ingress ++ i.egress).all (edgeOk ox oy)

/-- Whether a yielded context can be loaded into a variant (R330): its own, or one with as many records of the same kinds. -/
def ctxFits (i : Image) (c : YieldCtx) (v : Nat) : Bool :=
  let old := ((i.variants[c.graph.variant]?).getD {}).cells
  let new := ((i.variants[v]?).getD {}).cells
  v == c.graph.variant || (old.length == new.length
    && (old.zip new).all fun k => kindOf (cellAt k.1.x k.1.y) == kindOf (cellAt k.2.x k.2.y))

/-- The first origin and variant for a queued launch, were the graphs given to leave (R283). -/
def State.place (s : State) (p : Nat) (e : LqEntry) (but : List Nat) : Option (Nat × Nat × Nat) :=
  match s.imageOf p (lrImage e.lrec) with
  | none => none
  | some i =>
    let ctx := (s.part p).yields.find? fun c => c.1 == e.lid
    let vars := (List.range i.variants.length).filter fun v => match ctx with
      | some c => ctxFits i c.2 v
      | none => true
    (origins i).findSome? fun o =>
      if s.originOk p i o.1 o.2 but then
        (vars.find? fun v => s.variantFits ((i.variants[v]?).getD {}) (rectBays o.1 o.2 i.width i.height)).map
          fun v => (o.1, o.2, v)
      else none

/-! ### Time-sharing and compaction (R285, R286) -/

/-- Puts an item into a list before the first that an order places after it. -/
def insertBy {α : Type} (lt : α → α → Bool) (x : α) : List α → List α
  | [] => [x]
  | y :: l => if lt x y then x :: y :: l else y :: insertBy lt x l
def sortBy {α : Type} (lt : α → α → Bool) : List α → List α
  | [] => []
  | x :: l => insertBy lt x (sortBy lt l)

/-- The graphs that may be asked to yield for a launch: expired, not ranked above it, lowest rank first. -/
def State.shareList (s : State) (p : Nat) (h : LqEntry) : List Graph :=
  sortBy (fun a b => rankAbove b.entry a.entry)
    ((s.part p).graphs.filter fun g => g.expired && g.live && !g.fenced && !rankAbove g.entry h)

/-- Marks graphs until the bays freed would give the launch an origin. The third argument are those marked so far. -/
def State.shareMark (s : State) (p : Nat) (h : LqEntry) : List Graph → List Nat → State
  | [], _ => s
  | g :: gs, marked =>
    if (s.place p h marked).isSome then s
    else (s.modGraph p g.lid fun g => { g with yreq := true, yfor := h.lid }).shareMark p h gs (marked ++ [g.lid])

/-- request_time_share (R285), but for graphs given. -/
def State.timeShare (s : State) (p : Nat) (h : LqEntry) (but : List Nat) : State :=
  s.shareMark p h ((s.shareList p h).filter fun g => !but.contains g.lid) []

/-- compact (R286): each graph that can move to an origin before its own is asked to, for a blocking head; one that was asked
and can move no more is not held any longer. -/
def State.compact (s : State) (p : Nat) (b : LqEntry) : State :=
  let gs := sortBy (fun (a c : Graph) => a.oy * 12 + a.ox < c.oy * 12 + c.ox) (s.part p).graphs
  gs.foldl (fun s g =>
    let i := s.graphImage p g
    let o := (origins i).find? fun o => o.2 * 12 + o.1 < g.oy * 12 + g.ox && s.originOk p i o.1 o.2 [g.lid]
      && s.variantFits ((i.variants[g.variant]?).getD {}) (rectBays o.1 o.2 g.w g.h)
    if g.fenced || !g.live || (o.isNone && g.target.isNone) then s
    else s.modGraph p g.lid fun g => { g with target := o, yfor := b.lid }) s

/-! ### Admission (R281, R282, R284) -/

/-- The templates of a record, read at partition scope; none where they count as faulty (R292). -/
def State.readTemplates (s : State) (p : Nat) (r : BitVec 512) : Option (List (BitVec 256)) × State :=
  if lrNreg r == 0 then (some [], s)
  else if (lrRegva r).toNat % 8 != 0 then (none, s)
  else match s.partRead p (lrRegva r) (32 * lrNreg r) with
    | none => (none, s)
    | some (bs, s) => (some (msEntries bs (lrNreg r)), s)

/-- Whether an admission waits for a path to its templates, its ragged records or their lists (R355). -/
def State.admitWaits (s : State) (p : Nat) (e : LqEntry) : Bool :=
  let r := e.lrec
  !((s.part p).yields.any fun c => c.1 == e.lid)
    && ((lrNreg r != 0 && s.partWaits p .rd (lrRegva r) (32 * lrNreg r)) || e.ragged.any fun va =>
      (List.range (lrNrec r)).any fun k =>
        let a := vaPlus va (BitVec.ofNat 48 (16 * k))
        s.partWaits p .rd a 16 || (s.partRead p a 16).any fun b =>
          s.partWaits p .rd (BitVec.ofNat 64 (leNat (b.1.drop 8))) (4 * (leNat (b.1.take 4) / 65536)))

/-- A launch is admitted at an origin with a variant: it leaves its queue and its graph is placed and loading; an RLAUNCH
reads its records (R284, R312). Behind a blocking head the next head starts with BYP 0 (R282). The tasks of a launch one of whose predecessors retired with STATUS 1 are DEP_ABORTED
(R296). -/
def State.placeHead (s : State) (p : Nat) (e : LqEntry) (ox oy v : Nat) : State :=
  let img := (s.imageOf p (lrImage e.lrec)).getD {}
  let s := (s.modLq p (lrQueue e.lrec) fun l => l.filter fun x => x.lid != e.lid).clearYreq p e.lid
  let s := if (s.part p).bypassMax.toNat ≤ e.byp.toNat then s.modLq p (lrQueue e.lrec) fun l => match l with
      | [] => []
      | x :: xs => { x with byp := 0 } :: xs
    else s
  match (s.part p).yields.find? fun c => c.1 == e.lid with
  | some c =>
    let g := { c.2.graph with
      entry := e, ox := ox, oy := oy, variant := v, quantum := 0, expired := false, yreq := false, yfor := 0
      target := none, loading := true, barriers := [] }
    (s.modPart p fun q => { q with graphs := q.graphs ++ [g] }).depAbort p e.lid
  | none =>
    let (ts, s) := s.readTemplates p e.lrec
    let seed := s.freeCtr
    let s := { s with freeCtr := seed + 1 }
    let g : Graph :=
      { lid := e.lid, entry := e, ox := ox, oy := oy, w := img.width, h := img.height, variant := v, imageId := img.id
        templates := ts, seed := seed }
    let s := s.modPart p fun q => { q with graphs := q.graphs ++ [g] }
    let s := match e.ragged with
      | none => s
      | some va => s.raggedRecs p e.lid va (lrNrec e.lrec)
    s.depAbort p e.lid

/-- The loop of an admission pass over the heads in rank order; the last argument tells the heads already passed. A head that a
refusal in this pass removed is passed over, and one whose tables wait for a path (R355). -/
def State.admitLoop (s : State) (p : Nat) (b : Option LqEntry) : List LqEntry → List LqEntry → State
  | [], _ => s
  | h :: hs, above =>
    let stopped := match b with
      | some b => rankAbove b h
      | none => false
    if stopped || (s.part p).graphs.length ≥ 64 then s
    else if ((s.part p).queued h.lid).isNone || s.admitWaits p h then s.admitLoop p b hs above
    else match s.place p h [] with
      | some (ox, oy, v) =>
        let s := s.modPart p fun q => q.mapEntries fun x =>
          if above.any fun y => y.lid == x.lid then { x with byp := if x.byp == 15 then 15 else x.byp + 1 } else x
        s.placeHead p h ox oy v
      | none =>
        if (s.part p).graphs.isEmpty then (s.refuse p h 5).admitLoop p b hs (above ++ [h])
        else (s.timeShare p h []).admitLoop p b hs (above ++ [h])

/-- ADMISSION_PASS (R281, R282). -/
def execAdmissionPass (part : Nat) (s : State) : Out :=
  let q := s.part part
  if !q.loaded || q.fenced || q.swapped || s.swapping part then .next s
  else
    let hs := sortBy rankAbove ((q.lqs.filterMap fun l => l.2.head?).filter fun e => e.istate == 2)
    let b := hs.find? fun h => q.bypassMax.toNat ≤ h.byp.toNat
    let s := s.admitLoop part b hs []
    match b with
    | none => .next s
    | some b => .next (if ((s.part part).queued b.lid).isSome then s.compact part b else s)

/-- The limit of a graph's quantum in ns; none for one that never expires (R274, R285). -/
def quantumLimit (q : Part) (g : Graph) : Option Nat :=
  let v := lrQuantum g.entry.lrec
  if v == 0xFFFFFFFF then none else if v == 0 then some (q.qdef.toNat * 1000) else some (v * 1000)

/-- QUANTUM_EXPIRY (R285). -/
def execQuantumExpiry (part lid : Nat) (s : State) : Out :=
  match s.graph part lid with
  | none => .next s
  | some g => match quantumLimit (s.part part) g with
    | none => .next s
    | some n => if n ≤ g.quantum then .next (s.modGraph part lid fun g => { g with expired := true }) else .next s

/-! ### Yield and compaction moves (R286, R330, R331) -/

/-- How many sinks a graph's image has. -/
def State.sinkCount (s : State) (p : Nat) (g : Graph) : Nat := (s.graphVariant p g).sinks.length
/-- A span boundary (R285): every span begun has its EOT at every sink. A span whose SOT the source still holds has not begun. -/
def State.atBoundary (s : State) (p : Nat) (g : Graph) : Bool :=
  g.srcq.head?.all (fun t => t.kind == 3 || t.kind == 2) && g.tasks.all fun t => !t.begun || !(t.st == 1 || t.st == 4) || s.sinkCount p g ≤ t.eots.length
/-- Whether DONE has reached every sink (R30). -/
def State.streamDone (s : State) (p : Nat) (g : Graph) : Bool := g.doneSent && s.sinkCount p g ≤ g.doneSinks.length

/-- Whether every engine of a graph's cells is idle and every memory access has been performed (R330): no firing runs, no copy
or fill is to come, no access waits for a walk or at a stopped port, no action of a memory sequencer is under way. -/
def State.quiet (s : State) (g : Graph) : Bool :=
  (s.cells.filter fun e => g.holds e.1).all (fun e =>
    !e.2.seq.running && e.2.m.copy.queue.isEmpty && e.2.m.copy.runs.isEmpty && e.2.m.fill.queue.isEmpty
      && (e.2.stopped.all (· == 0x86)) && !(e.2.m.ms.busy && (e.2.m.ms.prog != 0 || e.2.m.ms.issued)))
    && (g.bays.all fun b => (s.bay b).walks.all fun k => !g.holds k.cell)

/-- What a yield keeps of a cell (R329): of the sequencer the trap vector, MODE and scheduler state. -/
def yieldCell (x : Cell) : Cell :=
  let q : Seq := { tr := { vec := x.seq.tr.vec, be := x.seq.tr.be, ss := x.seq.tr.ss }, sched := x.seq.sched }
  { x with seq := q, dc := [], tlb := [], cnt := [], now := [], m := { x.m with copy := {}, fill := {} } }

/-- The translation caches of a bay's cells are emptied. -/
def State.dropTlbs (s : State) (b : Nat) : State :=
  { s with cells := s.cells.map fun e => (e.1, if bayOf e.1 == b then { e.2 with tlb := [] } else e.2) }

/-- YIELD_GRAPH (R285, R330, R331): completion wins over a yield; a yield area without room passes the request on. The launch
re-enters its queue at the head even where that makes a 65th entry (log 106). -/
def execYieldGraph (part lid : Nat) (s : State) : Out :=
  match s.graph part lid with
  | none => .next s
  | some g =>
    if !g.yreq || !g.live || s.swapping part || s.hf.toPoint.isSome || s.streamDone part g || !s.atBoundary part g || !s.quiet g then .next s
    else
      let recs := (s.graphVariant part g).cells
      let used := (s.part part).yields.foldl (fun n e => n + e.2.cells.length) 0
      if (s.part part).cfg.yieldRoom < used + recs.length then
        let s1 := s.modGraph part lid fun g => { g with yreq := false }
        match (s.part part).queued g.yfor with
        | none => .next s1
        | some h => .next (s1.timeShare part h [lid])
      else
        let s := (diesOf g.bays).foldl State.cleanDie (s.drainCells g.bays)
        let cells := recs.map fun r => (g.cellOf r.x r.y, yieldCell (s.cell (g.cellOf r.x r.y)))
        let ctx : YieldCtx := { graph := { g with barriers := [], yreq := false, target := none }, cells := cells }
        let s := s.modPart part fun q => { q with graphs := q.graphs.filter (fun h => h.lid != lid), yields := SMap.set q.yields lid ctx }
        let s := s.modLq part (lrQueue g.entry.lrec) fun l => { g.entry with saved := true } :: l
        .next (g.bays.foldl (fun s b => (s.modBay b fun x => { x with desc := [] }).dropTlbs b) s)

/-- A copy or fill engine whose issuers have moved. -/
def moveEngines (f : Nat → Nat) (x : Cell) : Cell :=
  let m := x.m
  let cp := m.copy
  let run := fun (r : CopyRun) => { r with chain := r.chain.map fun k => { k with issuer := f k.issuer } }
  { x with
    tlb := []
    m := { m with
      copy := { cp with
        queue := cp.queue.map fun k => { k with issuer := f k.issuer }
        runs := cp.runs.foldl (fun acc r => SMap.set acc (f r.1) (run r.2)) []
        cur := cp.cur.map f }
      fill := { m.fill with queue := m.fill.queue.map fun k => { k with issuer := f k.issuer } } } }

/-- COMPACTION_MOVE (R286): at a span boundary every cell's state goes to the same relative cell at the new origin. What the
graph wrote stands in HBM before, and what the dies at the new origin hold is read again (log 81). -/
def execCompactionMove (part lid : Nat) (s : State) : Out :=
  match s.graph part lid with
  | none => .next s
  | some g =>
    match g.target with
    | none => .next s
    | some (ox, oy) =>
      let img := s.graphImage part g
      if !g.live || s.swapping part || s.hf.toPoint.isSome || s.streamDone part g || !s.atBoundary part g
          || (g.bays.any fun b => (s.bay b).walks.any fun k => g.holds k.cell)
          || !s.originOk part img ox oy [lid] then .next s
      else
        let s := (diesOf g.bays).foldl State.cleanDie (s.drainCells g.bays)
        let s := (diesOf (rectBays ox oy g.w g.h)).foldl State.emptyDie s
        let f := fun (c : Nat) => cellAt (cellX c - 8 * g.ox + 8 * ox) (cellY c - 8 * g.oy + 8 * oy)
        let mine := s.cells.filter fun e => g.holds e.1
        let cells := mine.foldl (fun acc e => SMap.set acc (f e.1) (moveEngines f e.2)) s.cells
        .next (({ s with cells := cells }).modGraph part lid fun g => { g with ox := ox, oy := oy, target := none })

end Sys2Proof.Machine
end

