-- ==== Sys2Proof/Machine/MemInstr.lean ====
section
/-! DEFINITION. Loads, stores, atomics and the monitor (R166-R172, R189-R191). -/

namespace Sys2Proof.Machine

/-- A load of n bytes (R168). -/
def State.load (s : State) (i : Instr) (d b : BitVec 5) (off : BitVec 12) (n : Nat) (signed : Bool) : Out :=
  let va := vaPlus (s.seq.getG b) (offS12 off)
  match s.readVa (s.seqWho s.focus.cell) va n with
  | .ok (bs, s') => s'.doneG d (loadValue bs signed)
  | .error f => s.seqFail i .rd va f

/-- A store of the low n bytes (R169). -/
def State.store (s : State) (i : Instr) (v b : BitVec 5) (off : BitVec 12) (n : Nat) : Out :=
  let va := vaPlus (s.seq.getG b) (offS12 off)
  match s.writeVa (s.seqWho s.focus.cell) va (natLe (s.seq.getG v).toNat n) with
  | .ok s' => s'.done s'.seq
  | .error f => s.seqFail i .wr va f

/-- An atomic of n bytes (R171, R172): the new value from the old, or none for no write, and the value returned. -/
def State.atom (s : State) (i : Instr) (need : Need) (d a : BitVec 5) (n : Nat) (f : Nat → Option Nat) (ret : Nat → Word) : Out :=
  let va := vaPlus (s.seq.getG a) 0
  if va.toNat % n != 0 then s.trapSelf 0x03 va (wordOf i)
  else match s.atomicVa (s.seqWho s.focus.cell) need va n f with
    | .ok (old, s') => s'.doneG d (ret old)
    | .error e => s.seqFail i need va e

/-- An atomic of 8 bytes that writes f(old, g[b]) and returns old (R172). -/
def State.atomD (s : State) (i : Instr) (need : Need) (d a b : BitVec 5) (f : Word → Word → Word) : Out :=
  let y := s.seq.getG b
  s.atom i need d a 8 (fun o => some (f (BitVec.ofNat 64 o) y).toNat) (BitVec.ofNat 64)

/-- LD.B (R168). -/
def execLdB (d b : BitVec 5) (off : BitVec 12) (s : State) : Out := s.load (.ldB d b off) d b off 1 true

/-- LD.BU (R168). -/
def execLdBu (d b : BitVec 5) (off : BitVec 12) (s : State) : Out := s.load (.ldBu d b off) d b off 1 false

/-- LD.H (R168). -/
def execLdH (d b : BitVec 5) (off : BitVec 12) (s : State) : Out := s.load (.ldH d b off) d b off 2 true

/-- LD.HU (R168). -/
def execLdHu (d b : BitVec 5) (off : BitVec 12) (s : State) : Out := s.load (.ldHu d b off) d b off 2 false

/-- LD.W (R168). -/
def execLdW (d b : BitVec 5) (off : BitVec 12) (s : State) : Out := s.load (.ldW d b off) d b off 4 true

/-- LD.WU (R168). -/
def execLdWu (d b : BitVec 5) (off : BitVec 12) (s : State) : Out := s.load (.ldWu d b off) d b off 4 false

/-- LD.D (R168). -/
def execLdD (d b : BitVec 5) (off : BitVec 12) (s : State) : Out := s.load (.ldD d b off) d b off 8 false

/-- ST.B (R169). -/
def execStB (v b : BitVec 5) (off : BitVec 12) (s : State) : Out := s.store (.stB v b off) v b off 1

/-- ST.H (R169). -/
def execStH (v b : BitVec 5) (off : BitVec 12) (s : State) : Out := s.store (.stH v b off) v b off 2

/-- ST.W (R169). -/
def execStW (v b : BitVec 5) (off : BitVec 12) (s : State) : Out := s.store (.stW v b off) v b off 4

/-- ST.D (R169). -/
def execStD (v b : BitVec 5) (off : BitVec 12) (s : State) : Out := s.store (.stD v b off) v b off 8

/-- AADD.W (R172). -/
def execAaddW (d a b : BitVec 5) (s : State) : Out :=
  let y := (s.seq.getG b).toNat
  s.atom (.aaddW d a b) .add d a 4 (fun o => some ((o + y) % 2 ^ 32)) sext32

/-- AADD.D (R172). -/
def execAaddD (d a b : BitVec 5) (s : State) : Out := s.atomD (.aaddD d a b) .add d a b (fun x y => x + y)

/-- AMIN.S (R172). -/
def execAminS (d a b : BitVec 5) (s : State) : Out := s.atomD (.aminS d a b) .rmw d a b (fun x y => if y.slt x then y else x)

/-- AMIN.U (R172). -/
def execAminU (d a b : BitVec 5) (s : State) : Out := s.atomD (.aminU d a b) .rmw d a b (fun x y => if y.ult x then y else x)

/-- AMAX.S (R172). -/
def execAmaxS (d a b : BitVec 5) (s : State) : Out := s.atomD (.amaxS d a b) .rmw d a b (fun x y => if x.slt y then y else x)

/-- AMAX.U (R172). -/
def execAmaxU (d a b : BitVec 5) (s : State) : Out := s.atomD (.amaxU d a b) .rmw d a b (fun x y => if x.ult y then y else x)

/-- ALOG.AND (R172). -/
def execAlogAnd (d a b : BitVec 5) (s : State) : Out := s.atomD (.alogAnd d a b) .add d a b (fun x y => x &&& y)

/-- ALOG.OR (R172). -/
def execAlogOr (d a b : BitVec 5) (s : State) : Out := s.atomD (.alogOr d a b) .add d a b (fun x y => x ||| y)

/-- ALOG.XOR (R172). -/
def execAlogXor (d a b : BitVec 5) (s : State) : Out := s.atomD (.alogXor d a b) .add d a b (fun x y => x ^^^ y)

/-- AXCH (R172). -/
def execAxch (d a b : BitVec 5) (s : State) : Out := s.atomD (.axch d a b) .rmw d a b (fun _ y => y)

/-- ACAS: the comparand is g[d] before the write of g[d] (R172). -/
def execAcas (d a b : BitVec 5) (s : State) : Out :=
  let x := s.seq.getG d
  let y := s.seq.getG b
  s.atom (.acas d a b) .rmw d a 8 (fun o => if BitVec.ofNat 64 o == x then some y.toNat else none) (BitVec.ofNat 64)

/-- AFADD.F32 (R172). -/
def execAfaddF32 (d a b : BitVec 5) (s : State) : Out :=
  let y := (s.seq.getG b).setWidth 32
  s.atom (.afaddF32 d a b) .add d a 4 (fun o => some (f32add (BitVec.ofNat 32 o) y).toNat) (BitVec.ofNat 64)

/-- AFADD.BF16X2: half 0 is bits [15:0] (R172). -/
def execAfaddBf16x2 (d a b : BitVec 5) (s : State) : Out :=
  let y := s.seq.getG b
  s.atom (.afaddBf16x2 d a b) .add d a 4
    (fun o =>
      let lo := bf16add (BitVec.ofNat 16 o) (y.extractLsb' 0 16)
      let hi := bf16add (BitVec.ofNat 16 (o / 65536)) (y.extractLsb' 16 16)
      some (hi.toNat * 65536 + lo.toNat))
    (BitVec.ofNat 64)

/-- MARM (R189): the address follows R167 with read permission; arming replaces an earlier arming. An aborted task's MARM reads
nothing and arms all the same, so that its MWAIT goes on (R295). -/
def execMarm (v b : BitVec 5) (off : BitVec 12) (s : State) : Out :=
  let va := vaPlus (s.seq.getG b) (offS12 off)
  let i : Instr := .marm v b off
  if va.toNat % 8 != 0 then s.trapSelf 0x03 va (wordOf i)
  else
    let arm := s.done { s.seq with mon := { addr := va, ref := s.seq.getG v, armed := true } }
    match s.locate (s.seqWho s.focus.cell) .rd va 8 with
    | .error .supp => arm
    | .error f => s.seqFail i .rd va f
    | .ok _ => arm

/-- The 8 monitored bytes at their home, past the cell data cache (R190). -/
def State.homeVa (s : State) (w : Who) (va : Word) : Except AccFail Word :=
  match s.locate w .rd va 8 with
  | .error f => .error f
  | .ok (.hbm pa _, _) => .ok (BitVec.ofNat 64 (s.homeNat pa 8))
  | .ok (l, _) => .ok (BitVec.ofNat 64 (leNat (s.readLoc w l 8).1))

/-- What is clean of a cell's data cache is dropped (R190): clean lines leave, and the clean bytes of a line that holds dirty
ones are read again from the die. -/
def State.dropClean (s : State) (c : Nat) : State :=
  ((s.cell c).dc.map (·.1)).foldl (fun s ln => s.cellRenew c ln) s

/-- A waiting MWAIT of a cell returns a value: g[d] is written and the monitor disarmed (R190). -/
def State.mwaitReturn (s : State) (c : Nat) (d : BitVec 5) (v : Word) : State :=
  let s := s.dropClean c
  let q := s.seqAt c
  s.setSeqAt c ({ q with mon := { q.mon with armed := false } }.setG d v).stepPc

/-- MWAIT (R190): returns at once when the bytes differ from the reference, else waits for MONITOR_WAKE. -/
def execMwait (d : BitVec 5) (s : State) : Out :=
  let i : Instr := .mwait d
  if !s.seq.mon.armed then s.illop i
  else match s.homeVa (s.seqWho s.focus.cell) s.seq.mon.addr with
    | .error .supp => let v := s.free; .next (v.2.mwaitReturn s.focus.cell d v.1)
    | .error f => s.seqFail i .rd s.seq.mon.addr f
    | .ok v =>
      if v != s.seq.mon.ref then .next (s.mwaitReturn s.focus.cell d v)
      else .next (s.setSeq { s.seq with wait := { mwait := some d } })

/-- MONITOR_WAKE (R190): the monitored bytes of a waiting MWAIT differ from the reference, so it returns. A translation that
has left the caches is walked again (R264); the read of an aborted task returns a free value (R295). -/
def execMonitorWake (cell : Nat) (s : State) : Out :=
  let q := s.seqAt cell
  match q.wait.mwait with
  | none => .next s
  | some d =>
    if !s.cellLive cell || q.dbg then .next s
    else match s.homeVa (s.seqWho cell) q.mon.addr with
      | .ok v => if v != q.mon.ref then .next (s.mwaitReturn cell d v) else .next s
      | .error .supp => let v := s.free; .next (v.2.mwaitReturn cell d v.1)
      | .error (.walk va) => .next (if s.portBusy cell 0x80 then s else s.addWalk (s.seqWho cell) va .read)
      | .error _ => .next s

/-- The key of a package counter with an index (R322). -/
def pkgKey (num idx : Nat) : Nat := num * 256 + idx

/-- A corrected soft error of a stack is counted (R159, R322). -/
def State.corrected (s : State) : Option Nat → State
  | none => s
  | some k => s.bumpPkg (pkgKey 0x028 k) 1

end Sys2Proof.Machine
end

