-- ==== Sys2Proof/Machine/SeqEvents.lean ====
section
/-! DEFINITION. The events of a sequencer outside its instructions: the start of a firing (R33-R35, R92), the end of its
budget (R36), the answer to a held access (R113, R167, R334), and the headframe debugger (R89, R113). -/

namespace Sys2Proof.Machine

/-- Whether an actor may fire (R33). -/
def Slot.eligible (k : Slot) : Bool :=
  k.valid && k.take.all (fun r => r.2 ≤ (SMap.get [] k.inq r.1).length)
    && k.emit.all fun r => r.2 + (SMap.get [] k.outq r.1).length ≤ 8

/-- The first number after a place, cyclically over 0-7, that a test accepts. -/
def nextSlot (last : BitVec 3) (ok : Nat → Bool) : Option Nat :=
  ((List.range 8).map fun k => (last.toNat + 1 + k) % 8).find? ok

/-- The choice of R34: the slot, and the scheduler state after it. -/
def Sched.choose (d : Sched) (hi lo : Nat → Bool) : Option (Nat × Sched) :=
  let anyLo := (List.range 8).any lo
  let high := if d.lowOwed && anyLo then none else nextSlot d.hiLast hi
  match high with
  | some k =>
    let run := if anyLo then d.hiRun + 1 else d.hiRun
    some (k, { d with hiLast := BitVec.ofNat 3 k, hiRun := run, lowOwed := d.lowOwed || run == 16 })
  | none => (nextSlot d.loLast lo).map fun k => (k, { d with loLast := BitVec.ofNat 3 k, hiRun := 0, lowOwed := false })

/-- General registers `n` and up hold free values (R35, log 2). The last argument counts them. -/
def State.freeRegs (s : State) (q : Seq) (n : Nat) : Nat → Seq × State
  | 0 => (q, s)
  | f + 1 => let v := s.free; v.2.freeRegs (q.setG (BitVec.ofNat 5 n) v.1) (n + 1) f

/-- The base of private memory that g31 holds at entry (R153). -/
def privBase : Word := 0xFFFF000000000000

/-- A sequencer enters a firing of a slot (R35, R92). TRAPPC and TRAPLS, which name instruction addresses, hold free values as the
general registers do (log 2). -/
def State.enterFiring (s : State) (c k : Nat) (d : Sched) : State :=
  let q := s.seqAt c
  let sl := (s.cell c).slot k
  let (q, s) := s.freeRegs q 1 31
  let (p, s) := s.free
  let (l, s) := s.free
  let (r, s) := s.free
  let (t, s) := s.free
  let q := ((q.setG 28 (privBase + BitVec.ofNat 64 (0x1800 + 0x100 * k))).setG 30
    (privBase + BitVec.ofNat 64 (0x2400 + 0x400 * k))).setG 31 privBase
  let q := { q with
    p := p.extractLsb' 0 8 ||| 1, lk := l, pc := sl.entry, loopst := 0, running := true, budget := 0, wait := {}, sched := d
    actor := BitVec.ofBool sl.prio ++ BitVec.ofNat 3 k, tr := { q.tr with pc := r.extractLsb' 0 12, ls := t } }
  (s.setSeqAt c q).modCell c fun x => x.setSlot k { sl with fires := sl.fires + 1 }

/-- ACTOR_FIRING_START (R34, R35); a graph at the span boundary of its yield starts none (R330). -/
def execActorFiringStart (cell : Nat) (s : State) : Out :=
  let q := s.seqAt cell
  let held := match s.graphAt cell with
    | some (p, g) => g.yreq && s.atBoundary p g
    | none => true
  if !s.cellLive cell || held || q.running || q.stuck || q.dbg || q.pending.isSome then .next s
  else
    let ok := fun (hi : Bool) (k : Nat) => let sl := (s.cell cell).slot k; sl.eligible && sl.prio == hi
    match q.sched.choose (ok true) (ok false) with
    | none => .next s
    | some (k, d) => .next (s.enterFiring cell k d)

/-- The control word at a word address of a cell's code store. -/
def State.codeWord (s : State) (c : Nat) (pc : BitVec 12) : BitVec 32 := BitVec.ofNat 32 (memNat (s.cell c).code (4 * pc.toNat) 4)

/-- Whether a sequencer stands at an instruction boundary of a running firing: no access of it is held but the read of an MWAIT,
and no XFENCE waits (R113, R191, R220). -/
def Seq.boundary (q : Seq) : Bool := q.running && q.wait.hold.all (·.mwait) && q.wait.xfence.isNone

/-- FIRING_BUDGET_EXPIRY (R36): once a tick passes the 65,536th counted one, the trap is taken at the next boundary; an instruction that waits executes afresh. -/
def execFiringBudgetExpiry (cell : Nat) (s : State) : Out :=
  let q := s.seqAt cell
  if 65536 < q.budget && q.boundary && q.pending.isNone && !q.tr.tm && !q.stuck && !q.dbg && s.cellLive cell then
    .next (s.trapOn cell 0x07 65536 q.pc q.loopst ((s.codeWord cell q.pc).zeroExtend 64))
  else .next s

/-- An instruction whose access was held is performed as its access is answered. -/
def State.perform (s : State) : Instr → Out
  | .ldB d b off => execLdB d b off s
  | .ldBu d b off => execLdBu d b off s
  | .ldH d b off => execLdH d b off s
  | .ldHu d b off => execLdHu d b off s
  | .ldW d b off => execLdW d b off s
  | .ldWu d b off => execLdWu d b off s
  | .ldD d b off => execLdD d b off s
  | .stB v b off => execStB v b off s
  | .stH v b off => execStH v b off s
  | .stW v b off => execStW v b off s
  | .stD v b off => execStD v b off s
  | .aaddW d a b => execAaddW d a b s
  | .aaddD d a b => execAaddD d a b s
  | .aminS d a b => execAminS d a b s
  | .aminU d a b => execAminU d a b s
  | .amaxS d a b => execAmaxS d a b s
  | .amaxU d a b => execAmaxU d a b s
  | .alogAnd d a b => execAlogAnd d a b s
  | .alogOr d a b => execAlogOr d a b s
  | .alogXor d a b => execAlogXor d a b s
  | .axch d a b => execAxch d a b s
  | .acas d a b => execAcas d a b s
  | .afaddF32 d a b => execAfaddF32 d a b s
  | .afaddBf16x2 d a b => execAfaddBf16x2 d a b s
  | .marm v b off => execMarm v b off s
  | .mwait d => execMwait d s
  | .take d a pay part port => execTake d a pay part port s
  | .peek d a depth pay part port => execPeek d a depth pay part port s
  | .emits a b c n => execEmits a b c n s
  | .copy a b c ws remote queue retry last chain assay => execCopy a b c ws remote queue retry last chain assay s
  | .fillContiguous a b tile => execFillContiguous a b tile s
  | .fillGather a b c tile => execFillGather a b c tile s
  | .launch d a => execLaunch d a s
  | .rlaunch d a b => execRlaunch d a b s
  | .regionAdd d a => execRegionAdd d a s
  | .stab a b => execStab a b s
  | .wbind a b c row => execWbind a b c row s
  | .wfree a => execWfree a s
  | _ => .next s

/-- The answer during a halt (R334): the access is performed, and a trap that it raises is latched. -/
def State.performHalted (s : State) (c : Nat) (i : Instr) : Out :=
  let q := s.seqAt c
  match (s.setSeqAt c { q with tr := { q.tr with tm := false, vec := 1 } }).perform i with
  | .next t =>
    let u := t.seqAt c
    .next (if u.tr.tm then s.setSeqAt c { q with pending := some (u.tr.cause, u.tr.value) } else t.setSeqAt c { u with tr := q.tr })
  | o => o

/-- SEQ_ACCESS_RESPONSE (R113, R167): a held access whose walk is done is performed and its instruction completes, or its trap
is taken; during a halt the trap is latched (R334). A corrected soft error of a stack is counted. -/
def execSeqAccessResponse (cell : Nat) (corrected : Option Nat) (s : State) : Out :=
  let q := s.seqAt cell
  match q.wait.hold with
  | none => .next s
  | some h =>
    if !s.mayAnswer cell then .next s
    else
      let s := s.corrected corrected
      let w := s.codeWord cell q.pc
      match h.trap with
      | some (cause, v) =>
        if s.halted cell then .next (s.setSeqAt cell { q with wait := {}, pending := some (cause, v) })
        else .next (s.trapOn cell cause v q.pc q.loopst (w.zeroExtend 64))
      | none =>
        if h.stopped || s.portBusy cell 0x80 then .next s
        else
          let s := { s.setSeqAt cell { q with wait := {} } with focus := { cell := cell } }
          match decodeControl w with
          | none => .next s
          | some i => if s.halted cell then s.performHalted cell i else s.perform i

/-- DEBUG_HALT (R113): the cell halts at an instruction boundary. -/
def execDebugHalt (cell : Nat) (s : State) : Out :=
  let q := s.seqAt cell
  if cell < 9216 && !s.halted cell && (!q.running || q.boundary) then
    .next (s.setSeqAt cell { q with dbg := true, wait := {} })
  else .next s

/-- DEBUG_PATH_WRITE (R89): MODE.SS, and a word of the code store. -/
def execDebugPathWrite (cell : Nat) (ss : Option Bool) (code : Option (Nat × BitVec 32)) (s : State) : Out :=
  if 9216 ≤ cell then .next s
  else
    let q := s.seqAt cell
    let s := s.setSeqAt cell { q with tr := { q.tr with ss := ss.getD q.tr.ss } }
    match code with
    | none => .next s
    | some (a, w) =>
      if 4096 ≤ a then .next s
      else .next (s.modCell cell fun x => { x with code := memStore x.code (4 * a) (natLe w.toNat 4) })

/-- DEBUGGER_RESUME (R113). -/
def execDebuggerResume (cell : Nat) (s : State) : Out :=
  if (s.seqAt cell).dbg then .next (s.setSeqAt cell { s.seqAt cell with dbg := false }) else .next s

end Sys2Proof.Machine
end

