-- ==== Sys2Proof/Machine/Tasks.lean ====
section
/-! DEFINITION. The events of tasks: release (R292, R296, R297, R389), host spans (R409), finish and drain (R31, R298),
task-edge actions (R300, R301), retirement (R299), completion of launches (R280, R300), aborts (R295), and the edge of the
mesh (R276, R348). -/

namespace Sys2Proof.Machine

/-! ### The edge of the mesh (R15, R276) -/

/-- The cell, port and VC of a binding of a placed graph. -/
def bindingAt (g : Graph) (b : Binding) : Nat × Nat × Nat := (g.cellOf b.x b.y, b.port, b.vc)

/-- A token enters at an ingress binding if the boundary router's buffer has room (R210, R276) and no clock change holds the cells
(R361). -/
def State.enterAt (s : State) (p : Nat) (g : Graph) (n : Nat) (t : Token) : Option State :=
  match (s.graphImage p g).ingress[n]? with
  | none => none
  | some b =>
    let (c, port, vc) := bindingAt g b
    if s.localRoom c port vc && s.hf.toPoint.isNone then some (s.enterRouter c port vc t) else none

/-- The span of a task has begun: its SOT entered the graph (R285, R294). -/
def Graph.begin (g : Graph) (t : Token) : Graph :=
  g.modTask (t.coord.extractLsb' 0 12).toNat (t.coord.extractLsb' 16 12).toNat fun k => { k with begun := true }

/-- Tokens of the span source enter while there is room (R389); the SOT of a graph asked to yield or to move is held (R285,
R286). The last argument is fuel. -/
def State.pump (s : State) (p lid : Nat) : Nat → State
  | 0 => s
  | f + 1 =>
    match s.graph p lid with
    | none => s
    | some g =>
      match g.srcq with
      | [] => s
      | t :: rest =>
        if !g.live || s.swapping p || (t.kind == 3 && !g.mayRelease) then s
        else match s.enterAt p g 0 t with
          | none => s
          | some s => (s.modGraph p lid fun g =>
              { (if t.kind == 3 then g.begin t else g) with srcq := rest }).pump p lid f

/-- Whether tokens of a launch are parked or wait to park. -/
def Part.parks (q : Part) (lid : Nat) : Bool := (q.xp.parked ++ q.xp.blocked).any fun k => k.lid == lid
/-- How many tasks a grid launch has. -/
def Graph.gridSize (g : Graph) : Nat := lrGw g.entry.lrec * lrGh g.entry.lrec
/-- Whether every task of a launch has left WAITING. -/
def Graph.allBegun (q : Part) (g : Graph) : Bool :=
  if g.entry.ragged.isSome then (g.tasks.all fun t => t.st != 0) && !q.parks g.lid
  else g.gridSize ≤ (g.tasks.filter fun t => t.st != 0).length

/-- The span source of a device launch emits DONE after its last release (R389). -/
def State.sourceDone (s : State) (p lid : Nat) : State :=
  match s.graph p lid with
  | none => s
  | some g =>
    if g.entry.adit.isNone && !g.doneSent && g.allBegun (s.part p) then
      s.modGraph p lid fun g => { g with doneSent := true, srcq := g.srcq ++ [tkDone] }
    else s

/-! ### Release -/

/-- The tile tokens of a task of an RLAUNCH (R315). -/
def State.tileToks (s : State) (p : Nat) (t : Task) : List Token :=
  match t.xid with
  | none => []
  | some x =>
    let q := s.part p
    let e := s.ert p x
    (List.range 2).map fun h =>
      let lane := fun k => t.toks[16 * h + k]?
      let pay := (List.range 16).foldl (fun n k => n + ((lane k).getD 0xFFFFFFFF).toNat * 2 ^ (32 * k)) 0
      let mask := (List.range 16).foldl (fun n k => n + if (lane k).isSome then 2 ^ k else 0) 0
      { kind := 0, pl := true, lmask := BitVec.ofNat 16 mask
        coord := BitVec.ofNat 32 (x % 65536 + t.toks.length % 64 * 65536 + h * 2 ^ 22)
        ref := BitVec.ofNat 64 ((q.cfg.slotT + e.slot.toNat) % 65536 + t.y % 4096 * 65536)
        payload := BitVec.ofNat 512 pay }

/-- Whether conditions 1 and 2 of R296 hold, and the window clause: then the task's templates are instantiated. -/
def Graph.mayInst (g : Graph) (x y : Nat) : Bool :=
  g.stAt x y == 0 && g.entry.predsRetired && (g.predTasks x y).all (fun r => g.stAt r.1 r.2 == 3)
    && (g.entry.ragged.isSome || (x < lrGw g.entry.lrec && g.low ≤ y && y < g.low + 64 && y < lrGh g.entry.lrec))

/-- The release of a task (R292, R296, R268): none while a condition keeps it waiting; a template fault aborts it, and a
lease that a chunk refuses is reported at port 0x86 of the origin cell, with KIND 0 (log 105). The task then waits until that port leases again; while
the port is stopped no second stream record goes out (R271), but in ring mode each walk that faults has its own (R272). -/
def State.tryRelease (s : State) (p : Nat) (g : Graph) (x y : Nat) (span : Word) : Option State :=
  let c := cellAt (8 * g.ox) (8 * g.oy)
  if !g.mayRelease || !g.mayInst x y || (s.cell c).leaseHeld.contains (g.lid, x, y) then none
  else match s.instRegions p g x y with
    | none => some (s.abortTask p g.lid x y 1 0 0 {})
    | some rs =>
      if !s.releasable p g x y rs then none
      else match s.takeLeases p (g.leaseList rs) with
        | .error (none, _) => none
        | .error (some f, va) =>
          let s1 := s.modCell c fun k => { k with leaseHeld := k.leaseHeld ++ [(g.lid, x, y)] }
          some (if (s.cell c).stopped.contains 0x86 && !(s.part p).fq.ring then s1 else s1.reportXl p c 0x86 f 0 va (some span) none)
        | .ok (ls, s) =>
          some (s.modGraph p g.lid fun g => (g.putTask x y 1).modTask x y fun t =>
            { t with span := span, regions := rs, leases := ls, eots := [], acks := 0, born := (s.part p).edges })

/-- Whether a task would leave WAITING if it were tried now. -/
def State.ready (s : State) (p : Nat) (g : Graph) (q : Nat × Nat) : Bool :=
  match s.tryRelease p g q.1 q.2 0 with
  | none => false
  | some s' => match s'.graph p g.lid with
    | some g' => g'.stAt q.1 q.2 != 0
    | none => false

/-- Whether a task of a device launch is next to be released: of an RLAUNCH the oldest of the creation list (R297, R389), of a grid
the first that can be released (R296). -/
def State.inOrder (s : State) (p : Nat) (g : Graph) (q : Nat × Nat) : Bool :=
  if g.entry.ragged.isSome then g.waiting.head? == some q else !(g.waiting.takeWhile (· != q)).any (s.ready p g)

/-- The SPANID of a task of a device launch (log 36). -/
def Graph.spanOf (g : Graph) (x y : Nat) : Word :=
  (Config.freeSpan g.seed x y).extractLsb' 0 40 ++ BitVec.ofNat 12 y ++ BitVec.ofNat 12 x

/-- A device launch's task was released: SOT, its tile tokens and EOT stand at the span source (R389). -/
def State.emitSpan (s : State) (p lid x y : Nat) : State :=
  match s.graph p lid with
  | none => s
  | some g => match g.task x y with
    | none => s
    | some t =>
      if t.st != 1 then s
      else s.modGraph p lid fun g =>
        { g with srcq := g.srcq ++ [tkSot x y t.span] ++ s.tileToks p t ++ [tkEot x y t.span] }

/-- TASK_RELEASE (R296, R389): the task that is next in order; lid 0 names an update task, which is released or goes on (R319). -/
def execTaskRelease (part lid x y : Nat) (s : State) : Out :=
  if lid == 0 then
    .next (if smHas (s.part part).emb x then s.embGo part x else s)
  else match s.graph part lid with
    | none => .next s
    | some g =>
      if g.entry.adit.isSome || s.swapping part || !g.waiting.contains (x, y)
          || !s.inOrder part g (x, y) then .next s
      else match s.tryRelease part g x y (g.spanOf x y) with
        | none => .next s
        | some s1 => .next (((s1.emitSpan part lid x y).sourceDone part lid).pump part lid 8)

/-! ### Host streams (R409) -/

/-- The adit whose first stream belongs to a launch. -/
def State.ownAdit (s : State) (p : Nat) (g : Graph) : Option (Nat × Adit × Stream) :=
  match g.entry.adit with
  | none => none
  | some a =>
    let x := (s.part p).adit a
    match x.streams.head? with
    | some st => if st.lid == some g.lid then some (a, x, st) else none
    | none => none

/-- The head of a launch's own stream; none once its tokens are gone. -/
def ownHead (x : Adit) (st : Stream) : Option Token := if st.left == some 0 then none else x.queue.head?
/-- The head of the first stream leaves its queue. -/
def Adit.popOwn (a : Adit) : Adit :=
  { a with
    queue := a.queue.drop 1
    streams := match a.streams with
      | [] => []
      | st :: sts => { st with left := st.left.map (· - 1) } :: sts }

/-- Tokens of a span that is discarded leave, up to its EOT or the stream's DONE; `counted` adds them to the discard counter.
The last argument is fuel. -/
def State.dropSpan (s : State) (p lid a : Nat) : Nat → State
  | 0 => s
  | f + 1 =>
    match s.graph p lid with
    | none => s
    | some g =>
      let x := (s.part p).adit a
      match x.streams.head?.bind (ownHead x) with
      | none => s
      | some t =>
        if g.dropping == 0 || t.kind == 2 then s
        else
          let s := s.modAdit p a Adit.popOwn
          let s := if g.dropping == 2 then s.aditDrop p a 1 else s
          if t.kind == 4 then s.modGraph p lid fun g => { g with dropping := 0 } else s.dropSpan p lid a f

/-- A span of a host stream is discarded. -/
def State.startDrop (s : State) (p lid a : Nat) (k : BitVec 2) : State :=
  (s.modGraph p lid fun g => { g with dropping := k }).dropSpan p lid a 600

/-- HOST_SPAN_ENTRY (R409): the SOT at the head of a launch's own stream. -/
def execHostSpanEntry (part lid : Nat) (s : State) : Out :=
  match s.graph part lid with
  | none => .next s
  | some g => match s.ownAdit part g with
    | none => .next s
    | some (a, x, st) =>
      if !g.live || s.swapping part then .next s
      else if g.dropping != 0 then .next (s.dropSpan part lid a 600)
      else match ownHead x st with
        | none => .next s
        | some t =>
          let tx := (t.coord.extractLsb' 0 12).toNat
          let ty := (t.coord.extractLsb' 16 12).toNat
          let name := fun (s : State) => s.modGraph part lid fun g => { g with named := g.named ++ [(tx, ty)] }
          if t.kind != 3 then .next s
          else if lrGw g.entry.lrec ≤ tx || lrGh g.entry.lrec ≤ ty || g.named.contains (tx, ty) then
            let s := s.record part (evRec s lid 9 1 0 (0, 0) a 0 0 0 (lrImage g.entry.lrec) 0)
            .next (s.startDrop part lid a 2)
          else if (g.stAt tx ty).toNat == 4 || (g.stAt tx ty).toNat == 5 then .next ((name s).startDrop part lid a 1)
          else match s.tryRelease part g tx ty t.ref with
            | none => .next s
            | some s1 =>
              let st1 := ((s1.graph part lid).map fun g => g.stAt tx ty).getD 0
              if st1 == 1 then
                match s1.enterAt part g 0 t with
                | none => .next s
                | some s2 => .next ((name (s2.modAdit part a Adit.popOwn)).modGraph part lid (·.begin t))
              else if st1 == 0 then .next s1
              else .next ((name s1).startDrop part lid a 1)

/-- HOST_STREAM_DONE (R409): the DONE at the head, or the one that stands for a DONE discarded, enters; tasks that no SOT
named end ABORTED. -/
def execHostStreamDone (part lid : Nat) (s : State) : Out :=
  match s.graph part lid with
  | none => .next s
  | some g => match s.ownAdit part g with
    | none => .next s
    | some (a, x, st) =>
      let here := st.left == some 0 || (ownHead x st).any fun t => t.kind == 2
      if !g.live || s.swapping part || !here then .next s
      else match s.enterAt part g 0 tkDone with
        | none => .next s
        | some s =>
          let s := s.modAdit part a fun y =>
            { y with queue := if st.left == some 0 then y.queue else y.queue.drop 1, streams := y.streams.drop 1 }
          let s := s.modGraph part lid fun g => { g with doneSent := true, dropping := 0 }
          let s := s.depAbort part lid
          let left := (List.range (lrGh g.entry.lrec)).flatMap fun ty =>
            ((List.range (lrGw g.entry.lrec)).map fun tx => (tx, ty)).filter fun q =>
              (((s.graph part lid).map fun g => g.stAt q.1 q.2 == 0 && !g.named.contains q).getD false)
          .next ((left.foldl (fun s q => s.abortOne part lid q.1 q.2 3 0 0 {}) s).depAbort part lid)

/-- ADIT_INGRESS_ENTRY (R276, R389, R409): the next token of a binding. Binding 0 takes the tokens of the span source or of
the launch's own stream but an SOT or its DONE; bindings 1-3 those of their adit. -/
def execAditIngressEntry (part lid binding : Nat) (s : State) : Out :=
  match s.graph part lid with
  | none => .next s
  | some g =>
    if !g.live || s.swapping part then .next s
    else if binding == 0 then
      if g.entry.adit.isNone then .next ((s.sourceDone part lid).pump part lid 1)
      else match s.ownAdit part g with
        | none => .next s
        | some (a, x, st) => match ownHead x st with
          | none => .next s
          | some t =>
            if t.kind == 2 || t.kind == 3 || g.dropping != 0 then .next s
            else match s.enterAt part g 0 t with
              | none => .next s
              | some s => .next (s.modAdit part a Adit.popOwn)
    else match lrAdit g.entry.lrec (binding - 1) with
      | none => .next s
      | some a =>
        let x := (s.part part).adit a
        if x.named != some lid || !x.streams.isEmpty || binding > 3 then .next s
        else match x.queue.head? with
          | none => .next s
          | some t =>
            if t.kind == 3 && !g.mayRelease then .next s
            else match s.enterAt part g binding t with
              | none => .next s
              | some s => .next (s.modAdit part a fun y => { y with queue := y.queue.drop 1 })

/-- A token as the host sees it: 128 bytes (R347, R348). -/
def tokenBytes (t : Token) : List Byte :=
  natLe (tkHead t).toNat 8 ++ natLe t.ref.toNat 8 ++ bytesOf512 (if t.pl then t.payload else 0) 64 ++ List.replicate 48 0

/-- ADIT_EGRESS_WRITE (R276, R348): the token that waits at an egress binding. -/
def execAditEgressWrite (part lid binding : Nat) (s : State) : Out :=
  match s.graph part lid with
  | none => .next s
  | some g => match (s.graphImage part g).egress[binding]? with
    | none => .next s
    | some b =>
      let (c, port, vc) := bindingAt g b
      match (SMap.get [] (s.cell c).router.outb (rIdx port vc)).head? with
      | none => .next s
      | some t =>
        let took := fun (s : State) =>
          ((s.modRouter c fun r => { r with outb := SMap.set r.outb (rIdx port vc) [] }).tap c port t).sinkToken c (64 + binding) t
        if !g.live || s.swapping part || s.hf.toPoint.isSome then .next s
        else match lrAdit g.entry.lrec (3 + binding) with
          | none => .next ((took s).bump c 0x020 1)
          | some a =>
            let x := (s.part part).adit a
            if x.eglen.toNat < (x.egcount + 1) * 128 then .next s
            else
              let host := memStore s.mem.host (x.egbase.toNat + 128 * x.egcount) (tokenBytes t)
              let host := if t.kind == 2 then memStore host x.egdone.toNat (natLe (x.egcount + 1) 8) else host
              let s := { s with mem := { s.mem with host := host } }
              .next (took (s.modAdit part a fun y => { y with egcount := y.egcount + 1 }))

/-! ### Finish and drain (R31, R298) -/

/-- TASK_FINISH (R31), of a yielded launch too (R301). -/
def execTaskFinish (part lid x y : Nat) (s : State) : Out :=
  match s.graphAny part lid with
  | none => .next s
  | some g =>
    if g.stAt x y == 1 && g.live && ((g.task x y).any fun t => s.sinkCount part g ≤ t.eots.length) then
      .next (s.modGraph part lid fun g => g.modTask x y fun t => { t with st := 2 })
    else .next s

/-- The home of a part of a region: through the task's lease, else through the table (R263, R268). -/
def State.homeOf (s : State) (p : Nat) (t : Task) (va : Word) : Option Nat :=
  let tensor := vaTensor va
  let off := vaOff va
  let e := match t.leases.find? fun l => l.tensor == tensor && l.chunk == off / 65536 with
    | some l => some l.tr.entry
    | none => match s.walkEntry p ((s.part p).cfg.bays.headD 0) tensor (off / 65536) with
      | .ok (_, e) => some e
      | .error _ => none
  match e with
  | some e => if ceRemote e then none else some (ceFrame e * 65536 + off % 65536)
  | none => none
/-- The physical ranges of bytes of a tensor. -/
def State.homesOf (s : State) (p : Nat) (t : Task) (tensor off n : Nat) : List (Nat × Nat) :=
  (partsOf (mkVa tensor off) n).filterMap fun q => (s.homeOf p t q.1).map fun pa => (pa, q.2)
/-- The physical ranges of region records. -/
def State.regionHomes (s : State) (p : Nat) (t : Task) (rs : List (BitVec 256)) : List (Nat × Nat) :=
  rs.flatMap fun r => s.homesOf p t (rgTensor r) (rgBase r) (rgExtent r)
/-- Whether a line meets physical ranges. -/
def lineIn (hs : List (Nat × Nat)) (ln : Nat) : Bool := hs.any fun h => h.1 < 64 * ln + 64 && 64 * ln < h.1 + h.2

/-- The cells of a graph that hold any state. -/
def State.graphCells (s : State) (g : Graph) : List (Nat × Cell) := s.cells.filter fun e => g.holds e.1

/-- Whether a class has performed the task's writes (R298): no firing of the task runs (SEQ); its span has left every element,
stream block and memory sequencer (STRM) or matrix engine (MTX); no command of it is queued or runs (COPY, LINK). -/
def State.drained (s : State) (g : Graph) (t : Task) (cls : Nat) : Bool :=
  let on := fun (sp : Option Word) => sp == some t.span
  (s.graphCells g).all fun e =>
    let x := e.2
    let blocks := fun (mx : Bool) => x.blocks.all fun b => (b.1 ≥ 23) != mx || !on b.2.span
    match cls with
    | 0 => !(x.seq.running && (x.slot x.seq.slotNo).spanOpen && (x.slot x.seq.slotNo).spanid == t.span)
    | 1 => x.elems.all (fun k => !on k.2.span) && blocks false && (msMx x.m.ms.entry || !on x.m.ms.span)
    | 3 => blocks true && (!msMx x.m.ms.entry || !on x.m.ms.span)
    | 4 => true
    | _ => x.m.copy.queue.all (fun k => !on k.span) && x.m.copy.runs.all (fun r => r.2.chain.all fun k => !on k.span)
        && x.m.fill.queue.all fun k => !on k.span

/-- A byte range of a list less another. -/
def rangeLess (a : Nat × Nat) (l : List (Nat × Nat)) : List (Nat × Nat) :=
  l.flatMap fun q => [(q.1, min q.2 a.1), (max q.1 a.2, q.2)].filter fun k => k.1 < k.2
/-- The bytes that ranges of tensors hold together, each byte counted once. -/
def unionBytes : List (Nat × Nat × Nat) → Nat
  | [] => 0
  | (t, lo, hi) :: l =>
    ((l.filter fun k => k.1 == t).foldl (fun ps k => rangeLess k.2 ps) [(lo, hi)]).foldl
      (fun n q => n + (q.2 - q.1)) (unionBytes l)
/-- The overlap O of a task with a successor of the given regions (R300), as ranges of tensors. -/
def pairOverlap (t : Task) (rs : List (BitVec 256)) : List (Nat × Nat × Nat) :=
  (writeSet t.regions).flatMap fun w => ((readSet rs).filter (rgMeet w)).map fun k =>
    (rgTensor w, max (rgBase w) (rgBase k), min (rgBase w + rgExtent w) (rgBase k + rgExtent k))
/-- The overlaps of a record with the read sets of a task's successors: byte ranges from the record's base, with the whole
overlap of the pair. -/
def State.overlaps (s : State) (p : Nat) (g : Graph) (t : Task) (r : BitVec 256) : List (Nat × Nat × List (Nat × Nat × Nat)) :=
  (g.succTasks t.x t.y).flatMap fun c =>
    match s.instRegions p g c.1 c.2 with
    | none => []
    | some rs => ((readSet rs).filter (rgMeet r)).map fun k =>
      (max (rgBase r) (rgBase k) - rgBase r, min (rgBase r + rgExtent r) (rgBase k + rgExtent k) - rgBase r, pairOverlap t rs)

/-- The next unit of a record, from a cursor on, that meets an overlap (R301). -/
def nextUnit {α : Type} (os : List (Nat × Nat × α)) (cur : Nat) : Option Nat :=
  os.foldl (fun best o =>
    if cur < (o.2.1 + 255) / 256 then
      let u := max cur (o.1 / 256)
      match best with
      | none => some u
      | some b => some (min b u)
    else best) none

/-- CUR of the records of a task whose drain is complete stands at END where no overlap is to be walked, in every record of kind
read among them (R301). -/
def State.skipUnits (s : State) (p : Nat) (g : Graph) (t : Task) : List (BitVec 256) :=
  t.regions.map fun r => if rgKind r == 0 || (nextUnit (s.overlaps p g t r) (rgCur r)).isNone then rgSetCur r (rgEnd r) else r

/-- TASK_DRAIN_ACK (R298): a class acknowledges; SEQ writes the dirty lines of the write set back to the die caches. A yielded
graph has drained (R330). -/
def execTaskDrainAck (part lid x y cls : Nat) (s : State) : Out :=
  match s.graphAny part lid with
  | none => .next s
  | some g => match g.task x y with
    | none => .next s
    | some t =>
      let placed := (s.graph part lid).isSome
      if t.st != 2 || cls > 5 || !g.live || s.swapping part || s.hf.toPoint.isSome || (placed && !s.drained g t cls) then .next s
      else
        let s := if cls == 0 && placed then
            let hs := s.regionHomes part t (writeSet t.regions)
            (s.graphCells g).foldl (fun s e =>
              ((e.2.dc.map (·.1)).filter (lineIn hs)).foldl (fun s ln => s.cellClean e.1 ln) s) s
          else s
        let acks := t.acks ||| (1#6 <<< cls)
        let rs := if acks == 63 then s.skipUnits part g t else t.regions
        .next (s.modGraph part lid fun g => g.modTask x y fun t => { t with acks := acks, regions := rs })

/-! ### Task-edge actions (R300, R301) -/

/-- A forward of a line from dies into die e's cache (R300): the dirty bytes of e's line are written back first (R408) and stand
over the copy, those of the writers' lines over them. The writers' lines stay as they are; where a writer's cache holds none the
copy is HBM's (log 94). -/
def State.forwardLine (s : State) (ln : Nat) (ds : List Nat) (e : Nat) : State :=
  let old := s.dieLine e ln
  let ls := ds.filterMap fun d => ((s.dieCache d).find? fun k => k.1 == ln).map (·.2)
  let s := (s.dieClean e ln).dieFill e ln
  let base := if ls.length == ds.length then (ls.getLast?.getD {}).data else memLine s.mem.hbm ln
  s.setDie e (SMap.set (s.dieCache e) ln ((ls.foldl Line.merge (old.over base)).keep (BitVec.allOnes 64)))
/-- The task-edge action on one line (R300): `ds` are the dies on which the producer's writes to the overlap were performed, `ws`
those on which its writes to this line were, `es` those from which the dependent's graph reads; without a pair of them nothing is
done. Copies in the graph's cells leave. Where the overlap was written on another die than it is read from, the writer's line is
copied into the reader's cache at FWD; otherwise the reader's copy leaves, its dirty bytes written back first (R408), and the
writer's line is written back whole. Lines that the producer wrote come last. -/
def State.edgeLine (s : State) (g : Graph) (ds ws es : List Nat) (ln : Nat) (fwd : Bool) : State :=
  let far := es.filter fun e => ds.any (· != e)
  let order := fun (l : List Nat) => l.filter (!ws.contains ·) ++ l.filter (ws.contains ·)
  if ds.isEmpty || es.isEmpty then s
  else
    let s := (s.graphCells g).foldl (fun s e => s.cellDrop e.1 ln) s
    if fwd then far.foldl (fun s e => s.forwardLine ln ((order ds).filter (· != e)) e) s
    else
      let us := if far.isEmpty then [] else (List.range 4).filter fun d => far.contains d || ds.contains d
      (order us).foldl (fun s d => if far.contains d then s.dieDrop d ln else s.dieClean d ln) s

/-- The dies of a line among the places of a task's or launch's writes. -/
def diesWrote (m : SMap Unit) (ln : Nat) : List Nat := (List.range 4).filter fun d => smHas m (4 * ln + d)
/-- The dies on which a task's writes to an overlap were performed (R300). -/
def State.overlapDies (s : State) (p : Nat) (t : Task) (o : List (Nat × Nat × Nat)) : List Nat :=
  let hs := o.flatMap fun k => s.homesOf p t k.1 k.2.1 (k.2.2 - k.2.1)
  (List.range 4).filter fun d => t.wroteOn.any fun e => e.1 % 4 == d && lineIn hs (e.1 / 4)
/-- The task-edge action on one overlap, cut to a unit, of a record with one successor (R300). -/
def State.edgeUnit (s : State) (p : Nat) (g : Graph) (t : Task) (r : BitVec 256) (es : List Nat) (lo hi : Nat)
    (o : List (Nat × Nat × Nat)) : State :=
  let lns := ((s.homesOf p t (rgTensor r) (rgBase r + lo) (hi - lo)).flatMap fun h => linesOf h.1 h.2).eraseDups
  let ds := s.overlapDies p t o
  lns.foldl (fun s ln => s.edgeLine g ds (diesWrote t.wroteOn ln) es ln (rgFwd r && unionBytes o ≤ 262144)) s

/-- FLUSH_UNIT (R300, R301): the next unit of a record of a drained task. A yield does not stop the walk; the dies that a
yielded graph may read from are its partition's. -/
def execFlushUnit (part lid x y ri : Nat) (s : State) : Out :=
  match s.graphAny part lid with
  | none => .next s
  | some g => match g.task x y with
    | none => .next s
    | some t => match t.regions[ri]? with
      | none => .next s
      | some r =>
        if t.st != 2 || t.acks != 63 || rgKind r == 0 || !g.live || s.swapping part || s.hf.toPoint.isSome then .next s
        else
          let os := s.overlaps part g t r
          let put := fun (s : State) (n : Nat) => s.modGraph part lid fun g => g.modTask x y fun t =>
            { t with regions := t.regions.set ri (rgSetCur r n) }
          match nextUnit os (rgCur r) with
          | none => .next (put s (rgEnd r))
          | some u =>
            let lo := 256 * u
            let hi := 256 * u + 256
            let es := diesOf (if (s.graph part lid).isSome then g.bays else (s.part part).cfg.bays)
            let s := (os.filter fun o => o.1 < hi && lo < o.2.1).foldl
              (fun s o => s.edgeUnit part g t r es (max lo o.1) (min hi o.2.1) o.2.2) s
            .next (put s (match nextUnit os (u + 1) with
              | none => rgEnd r
              | some _ => u + 1))

/-- TASK_RETIRE (R299): the drain and the task-edge actions are complete. -/
def execTaskRetire (part lid x y : Nat) (s : State) : Out :=
  match s.graphAny part lid with
  | none => .next s
  | some g => match g.task x y with
    | none => .next s
    | some t =>
      let flushed := (writeSet t.regions).all fun r => (nextUnit (s.overlaps part g t r) (rgCur r)).isNone
      if t.st == 2 && t.acks == 63 && flushed && g.live && !s.swapping part then
        .next (((s.endTask part lid x y 3).depAbort part lid).unblock part) else .next s

/-- TASK_ABORT (R295, R304). -/
def execTaskAbort (part lid x y : Nat) (va : BitVec 64) (s : State) : Out :=
  match s.graph part lid with
  | none => .next s
  | some g =>
    if g.live && (g.stAt x y == 1 || g.stAt x y == 2) then .next (s.abortTask part lid x y 0 0x04 (vaOff va) {}) else .next s

/-! ### The end of a launch (R280, R300) -/

/-- Whether every task of a launch has ended and its stream is complete (R30, R285); an RLAUNCH that made no task and parked
no token is complete once admitted (R312). -/
def State.launchOver (s : State) (p : Nat) (g : Graph) : Bool :=
  if g.entry.ragged.isSome then
    !(s.part p).parks g.lid && (g.tasks.all fun t => t.ended) && (g.named.isEmpty || s.streamDone p g)
  else g.gridSize ≤ (g.tasks.filter Task.ended).length && s.streamDone p g

/-- The launch-end flush (R300): the lines of the write sets leave the cell caches of the graph and the caches of its dies and
of those where its tasks wrote, those last, the die of the task that ended last after the others (log 94). -/
def State.endFlush (s : State) (p : Nat) (g : Graph) : State :=
  let hs := s.regionHomes p {} g.wrote
  let mine := fun (m : SMap Line) => (m.map (·.1)).filter (lineIn hs)
  let s := (s.graphCells g).foldl (fun s e => (mine e.2.dc).foldl (fun s ln => s.cellDrop e.1 ln) s) s
  let wrote := fun d ln => smHas g.wroteOn (4 * ln + d)
  let drop := fun (s : State) (ln : Nat) =>
    let key := fun d => if wrote d ln then SMap.get 0 g.wroteOn (4 * ln + d) + 1 else 0
    (sortBy (fun a b => key a < key b) ((List.range 4).filter fun d => wrote d ln || (diesOf g.bays).contains d)).foldl
      (fun s d => s.dieDrop d ln) s
  (((List.range 4).flatMap fun d => mine (s.dieCache d)).eraseDups).foldl drop s

/-- LAUNCH_COMPLETION (R280): the flush, the completion word, the vector; launches that wait for this one learn its
status. -/
def execLaunchCompletion (part lid : Nat) (s : State) : Out :=
  match s.graph part lid with
  | none => .next s
  | some g =>
    if !g.live || g.fenced || s.swapping part || s.hf.toPoint.isSome || !s.launchOver part g then .next s
    else
      let bad := if g.entry.ragged.isSome then g.aborted else (g.tasks.filter fun t => t.st == 4 || t.st == 5).length
      let status := if bad == 0 then 0 else 1
      let s := (s.endFlush part g).complete part g.entry.lrec lid status bad false
      let s := ((s.freeAdits part lid).removeLaunch part lid).drainCells g.bays
      let s := (s.dropLid part lid).modPart part fun q => q.mapEntries fun x => x.predEnd lid (BitVec.ofNat 4 status)
      .next (((s.part part).graphs.map (·.lid)).foldl (fun s l => s.depAbort part l) s)

end Sys2Proof.Machine
end

