-- ==== Sys2Proof/Machine/Contexts.lean ====
section
/-! DEFINITION. Freezes, fences and dumps (R21, R336-R342), the watchdog (R323), partitions (R22, R160, R343), poison
(R159), and the halt-swap with the caisson (R328-R335). -/

namespace Sys2Proof.Machine

/-! ### Freezes and fences of a graph -/

/-- GRAPH_FREEZE (R336, R337): a freeze raised has taken effect; its record is written and the graph is fenced. -/
def execGraphFreeze (part lid : Nat) (s : State) : Out :=
  match s.graph part lid with
  | none => .next s
  | some g => match g.freeze with
    | none => .next s
    | some r =>
      if g.frozen then .next s
      else
        let s := (s.stopUnits g).modGraph part lid fun g => { g with frozen := true }
        .next ((s.record part r).fenceGraph part lid)

/-- WATCHDOG_EXPIRY (R323): the limit is reached; WDOG is raised as the tick ends, unless a progress event falls on it, and
GRAPH_FREEZE freezes and fences the graph. -/
def execWatchdogExpiry (part lid : Nat) (s : State) : Out :=
  match s.graph part lid with
  | none => .next s
  | some g =>
    let lim := (s.part part).wdlim.toNat
    if g.live && !s.swapping part && lim * 1000 ≤ g.wdog then
      let r := evRec s lid 6 0 0x08 (0, 0) lim 0 0 0 0 0
      .next (s.modGraph part lid fun g => { g with wdDue := if g.wdDue.isNone then some r else g.wdDue })
    else .next s

/-- System software fences a graph (R336, R338): its units stop, and no event record is written. -/
def State.softFence (s : State) (p lid : Nat) : State :=
  match s.graph p lid with
  | none => s
  | some g => if g.fenced || g.freeze.isSome then s else (s.stopUnits g).fenceGraph p lid

/-- GRAPH_RELEASE (R338, R276): a fenced graph leaves, with its leases, reservations and launch id; one
that is not fenced, or whose partition a halt-swap holds, is refused (log 37). -/
def execGraphRelease (part lid : Nat) (s : State) : Out :=
  s.ownCmd part 10 <| match s.graph part lid with
    | none => .next (s.answer 10 2)
    | some g =>
      if !g.fenced || s.swapping part then .next (s.answer 10 2)
      else .next (((((s.freeAdits part lid).removeLaunch part lid).drainCells g.bays).dropLid part lid).answer 10 0)

/-- Whether accesses of a cell may still be performed: those of a frozen graph that were not have been discarded (R337), and a cell
over which a graph is loading has begun none. -/
def State.performs (s : State) (c : Nat) : Bool := (s.graphAt c).any fun e => !e.2.frozen && !e.2.loading
/-- Whether the cells of a scope have performed every access issued before a halt (R333): no walk of theirs runs, no access is
held but at a stopped port, no fence is in progress. -/
def State.calm (s : State) (mine : Nat → Bool) : Bool :=
  (s.bays.all fun b => b.2.walks.all fun k => !mine k.cell || !s.performs k.cell)
    && s.cells.all fun e => !mine e.1 || !s.performs e.1 || (e.2.seq.wait.xfence.isNone && e.2.seq.wait.hold.all fun h => h.stopped || h.mwait)
/-- Whether every freeze raised in some graphs has completed (R335, R337). -/
def frozenAll (gs : List Graph) : Bool := gs.all fun g => (g.freeze.isNone || g.frozen) && g.wdDue.isNone

/-- The record of a freeze that is raised and has not taken effect: the fence that comes first loses none (R337). -/
def State.freezeRec (s : State) (p : Nat) (g : Graph) : State :=
  match g.freeze with
  | some r => if g.frozen then s else s.record p r
  | none => s

/-- CELL_FAILURE (R21): the bay is withheld from placement and the graph over the cell is fenced. -/
def execCellFailure (cell : Nat) (s : State) : Out :=
  if 9216 ≤ cell || s.failed.contains cell then .next s
  else
    let s := { s with
      failed := s.failed ++ [cell]
      hf := { s.hf with badBays := s.hf.badBays ++ (if s.hf.badBays.contains (bayOf cell) then [] else [bayOf cell]) } }
    match s.graphAt cell with
    | none => .next s
    | some (p, g) => .next (((s.freezeRec p g).stopUnits g).fenceGraph p g.lid)

/-! ### Fences of a partition -/

/-- What a fence of its partition leaves of a graph. -/
def Graph.fencedBy (g : Graph) : Graph := { g with frozen := true, fenced := true, yreq := false, target := none, wdDue := none }
/-- The graphs of a partition fenced, and its yield area freed (R328, R339). -/
def Part.fenceAll (q : Part) : Part := { q with fenced := true, graphs := q.graphs.map Graph.fencedBy, yields := [] }

/-- Fencing a partition (R339): every graph is frozen, every placed and queued launch is written STATUS 3 and its waiting
tokens are discarded (R276), the host is told. A
context in the caisson stays as it is (R328): its partition is restored no more (R332). -/
def State.fencePart (s : State) (p : Nat) : State :=
  let q := s.part p
  if !q.loaded || q.fenced then s
  else
    let t := s.tablesOf p
    let r := evRec s 0 11 0 0 (0, 0) 0 0 0 0 (Config.fenceCode s.freeCtr) 0
    let s := q.graphs.foldl (fun s g => (s.freezeRec p g).stopUnits g) { s with freeCtr := s.freeCtr + 1 }
    let ls := ((t.graphs.filter fun g => !g.fenced).map (·.entry)) ++ t.lqs.flatMap (·.2)
    let s := s.modPart p Part.fenceAll
    let s := ls.foldl (fun s e => ((s.complete p e.lrec e.lid 3 0 false).dropStream p e.lid true).dropNamed p e.lid) s
    ((s.record p r).raiseVec p 1).dumpPart p 1 s.tbase r

/-- PARTITION_FENCE (R339). -/
def execPartitionFence (part : Nat) (s : State) : Out := .next (s.fencePart part)

/-- HBM_UNCORRECTABLE_ERROR (R159, R322, R339): the block is poisoned and counted; in a partition's table range it fences
the partition. A corrected error of a stack is counted. -/
def execHbmUncorrectableError (pa : Nat) (corrected : Option Nat) (s : State) : Out :=
  if 2 ^ 39 ≤ pa then .next s
  else
    let s := match corrected with
      | none => s
      | some k => if k < 8 then s.bumpPkg (0x028 * 256 + k) 1 else s
    let b := pa / 256
    let s := if s.mem.poison.contains b then s
      else ({ s with mem := { s.mem with poison := s.mem.poison ++ [b] } }).bumpPkg (0x029 * 256 + pa / 2 ^ 36 % 8) 1
    match s.parts.find? fun e => e.2.loaded && inTable e.2.cfg (pa / 65536) with
    | none => .next s
    | some e => .next (s.fencePart e.1)

/-! ### Loading and unloading (R22, R160, R343, R358) -/

/-- The bays that a halt-swap in progress holds: those of P and of Q (R22, R332). -/
def State.swapBays (s : State) : List Nat :=
  match s.hf.swap with
  | none => []
  | some w => (s.part w.p).cfg.bays ++ ((w.q.map fun q => (s.part q).cfg.bays).getD [])

/-- Whether a partition can be loaded: a free number, bays of its own that stand, have not failed and that no halt-swap holds, bank
groups that no partition owns, keys 0-15. -/
def State.loadOk (s : State) (p : Nat) (k : PartCfg) : Bool :=
  s.hf.booted && p < 16 && !(s.part p).loaded && !k.bays.isEmpty
    && k.bays.all (fun b => b < 144 && (s.partOfBay b).isNone && !s.swapBays.contains b && !(s.failed.any fun c => bayOf c == b))
    && k.bays.eraseDups.length == k.bays.length
    && s.parts.all (fun e => !e.2.loaded || e.2.cfg.banks &&& k.banks == 0)
    && k.keys.all fun e => e.1 < 16

/-- A partition leaves its bays: dirty lines of their cells reach the die caches (R408), and translations, walks and leases end
as by eviction and invalidation (R152, R259, log 103). -/
def State.emptyBays (s : State) (bs : List Nat) : State :=
  let s := s.drainCells bs
  { s with
    bays := s.bays.filter fun e => !bs.contains e.1
    cells := s.cells.map fun (e : Nat × Cell) => (e.1, if bs.contains (bayOf e.1) then { e.2 with tlb := [] } else e.2) }

/-- PARTITION_LOAD (R343): of PF 0. -/
def execPartitionLoad (part : Nat) (cfg : PartCfg) (s : State) : Out :=
  s.pfOnly 1 <|
    if !s.loadOk part cfg then .next (s.answerPf 1 2)
    else
      let w := if cfg.wdlim == 0 then 10000000 else cfg.wdlim
      let s := s.setPart part { loaded := true, cfg := cfg, wdlim := w, qdef := cfg.qdef }
      .next (s.answerPf 1 0)

/-- A partition leaves its bays; its image list and queues go with it (R343, R359). -/
def State.unloadPart (s : State) (p : Nat) : State :=
  let q := s.part p
  if !q.loaded then s
  else
    let s := if q.swapped then s else s.emptyBays q.cfg.bays
    { s with parts := smErase s.parts p }

/-- PARTITION_UNLOAD (R343): of PF 0; refused while a halt-swap names the partition. -/
def execPartitionUnload (part : Nat) (s : State) : Out :=
  s.pfOnly 2 <|
    if !(s.part part).loaded || s.swapping part || s.hf.swap.any (fun w => w.q == some part) then .next (s.answerPf 2 2)
    else .next ((s.unloadPart part).answerPf 2 0)

/-- FUNCTION_LEVEL_RESET (R343): fence, then unload. It waits while a halt-swap names the partition (R332). -/
def execFunctionLevelReset (part : Nat) (s : State) : Out :=
  if s.swapping part || s.hf.swap.any (fun w => w.q == some part) then .next s else .next ((s.fencePart part).unloadPart part)

/-- PF0_RESET (R343): every partition is fenced. -/
def execPf0Reset (s : State) : Out := .next ((s.parts.map (·.1)).foldl State.fencePart s)

/-! ### Halt-swap (R328-R335) -/

/-- Whether the headframe takes a halt-swap of P with Q (R332). -/
def State.swapOk (s : State) (p : Nat) (q : Option Nat) : Bool :=
  let P := s.part p
  s.hf.booted && P.loaded && !P.swapped && !P.fenced
    && s.caisson.all (fun e => match e.2 with
      | none => true
      | some k => some e.1 == q || k.part.cfg.bays.all fun b => !P.cfg.bays.contains b)
    && match q with
      | none => true
      | some n =>
        let Q := s.part n
        Q.loaded && Q.swapped && !Q.fenced && (SMap.get none s.caisson n).isSome
          && Q.cfg.bays.all fun b => P.cfg.bays.contains b || (s.partOfBay b).isNone

/-- The commands that wait are taken until one starts; a refused one is answered (R332). -/
def State.takeSwaps (s : State) : List (Nat × Option Nat) → State
  | [] => { s with hf := { s.hf with swaps := [] } }
  | (p, q) :: l =>
    if s.swapOk p q then { s with hf := { s.hf with swap := some { p := p, q := q }, swaps := l } }
    else (s.answerPf 3 2).takeSwaps l

/-- HALT_SWAP_COMMAND (R332): of PF 0; a second command waits until the first is complete. -/
def execHaltSwapCommand (p : Nat) (q : Option Nat) (s : State) : Out :=
  s.pfOnly 3 <|
    if s.hf.swap.isSome || s.hf.dumpOf.isSome then .next { s with hf := { s.hf with swaps := s.hf.swaps ++ [(p, q)] } }
    else .next (s.takeSwaps (s.hf.swaps ++ [(p, q)]))

/-- The scope of a dump asked for: its cells, and its graphs. -/
def State.dumpCells (s : State) (p : Nat) (lid : Option Nat) (c : Nat) : Bool :=
  match lid with
  | none => (s.part p).cfg.bays.contains (bayOf c)
  | some l => (s.graph p l).any fun g => g.holds c
def State.dumpGraphs (s : State) (p : Nat) (lid : Option Nat) : List Graph :=
  match lid with
  | none => (s.part p).graphs
  | some l => (s.graph p l).toList

/-- Halts the graphs of a dump's scope, or lets them go on. -/
def State.dumpHalt (s : State) (p : Nat) (lid : Option Nat) (stop : Bool) : State :=
  let put := fun (g : Graph) => if lid.isNone || lid == some g.lid then { g with halt := stop } else g
  let s := s.modPart p fun q => { q with graphs := q.graphs.map put }
  { s with hf := { s.hf with dumpOf := if stop then some (p, lid) else none, dumpAt := s.tbase } }

/-- The dump of a halted scope whose drain is complete; then it goes on (R341). -/
def State.dumpDone (s : State) (p : Nat) (lid : Option Nat) : State :=
  if !s.calm (s.dumpCells p lid) || !frozenAll (s.dumpGraphs p lid) then s
  else
    let t := s.hf.dumpAt
    let s := s.dumpHalt p lid false
    let s := match lid with
      | none => s.dumpPart p 2 t {}
      | some l => match s.graph p l with
        | none => s
        | some g => s.dumpGraph p 2 t {} g
    s.takeSwaps s.hf.swaps

/-- The answer to a dump that is done (R349). -/
def State.dumpTold (s : State) : State := if s.hf.dumpOf.isNone then s.answer 11 0 else s

/-- DUMP_REQUEST (R341): a graph or a partition is halted as in H1-H3; once drained it is dumped and resumed, now or when the event
comes again. Nothing is fenced. A scope that does not stand is refused (log 37), and a halt-swap comes first. -/
def execDumpRequest (part : Nat) (lid : Option Nat) (s : State) : Out :=
  let q := s.part part
  s.ownCmd part 11 <|
    if !q.loaded || q.swapped || (lid.isSome && (lid.bind (s.graph part)).isNone) then .next (s.answer 11 2)
    else if s.hf.swap.isSome then .next s
    else if s.hf.dumpOf == some (part, lid) then .next (s.dumpDone part lid).dumpTold
    else if s.hf.dumpOf.isSome then .next s
    else .next ((s.dumpHalt part lid true).dumpDone part lid).dumpTold

/-- A sequencer as a halt saves it (R334): an instruction that waits is left, but for an access held at a stopped port (R272). -/
def Seq.haltSave (q : Seq) : Seq :=
  { q with wait := if q.wait.hold.any (·.stopped) then { hold := q.wait.hold, stall := 1 } else {} }
/-- A copy engine as a halt saves it: a block whose acknowledgement is awaited is rewritten after the restore (R334). -/
def CopyEng.haltSave (k : CopyEng) : CopyEng :=
  { k with runs := k.runs.map fun (e : Nat × CopyRun) => (e.1, if e.2.ack then { e.2 with ack := false, assay := e.2.remoteV } else e.2) }

/-- A cell and a bay as the exchange leaves them (R272, R329). -/
def cellSaved (x : Cell) : Cell :=
  { x with seq := x.seq.haltSave, tlb := [], m := { x.m with copy := x.m.copy.haltSave } }
def baySaved (x : Bay) : Bay := { tlb := x.tlb.filter fun e => e.leases != 0 }

/-- What stays in the I/O die for a partition that is swapped out (R329, R344). -/
def Part.swappedOut (q : Part) : Part :=
  { loaded := q.loaded, fenced := q.fenced, swapped := true, cfg := q.cfg, bypassMax := q.bypassMax, qdef := q.qdef, wdlim := q.wdlim,
    apFrame := q.apFrame, trace := q.trace, traceBuf := q.traceBuf, images := q.images, adits := q.adits, emb := q.emb,
    watches := q.watches, msix := q.msix, msixTab := q.msixTab, msixPend := q.msixPend, mail := q.mail }

/-- Whether a partition's cells have stopped and every access issued has been performed or answered (R333-R335). -/
def State.swapDrained (s : State) (P : Part) : Bool :=
  s.calm (fun c => P.cfg.bays.contains (bayOf c)) && frozenAll P.graphs

/-- HALT_SWAP_DRAIN_COMPLETE (R333): P's context goes to the caisson and its bays are left empty. -/
def execHaltSwapDrainComplete (s : State) : Out :=
  match s.hf.swap with
  | none => .next s
  | some w =>
    let P := s.part w.p
    if w.drained || !s.swapDrained P then .next s
    else
      let mine := fun (b : Nat) => P.cfg.bays.contains b
      let ctx : Caisson :=
        { part := P
          bays := (s.bays.filter fun e => mine e.1).map fun e => (e.1, baySaved e.2)
          cells := (s.cells.filter fun e => mine (bayOf e.1)).map fun e => (e.1, cellSaved e.2)
          failed := s.failed }
      .next { s with
        caisson := SMap.set s.caisson w.p (some ctx)
        cells := s.cells.filter fun e => !mine (bayOf e.1)
        bays := s.bays.filter fun e => !mine e.1
        parts := SMap.set s.parts w.p P.swappedOut
        hf := { s.hf with swap := some { w with drained := true } } }

/-- A partition's tables after its restore: the saved ones with what its function has held meanwhile; records and counts
raised meanwhile are added. A fence that came while it was swapped out holds for its graphs (R339). -/
def Part.restored (saved now : Part) : Part :=
  let q : Part := { saved with
    swapped := false, fenced := now.fenced, bypassMax := now.bypassMax, qdef := now.qdef, wdlim := now.wdlim
    apFrame := now.apFrame, trace := now.trace, traceBuf := now.traceBuf, images := now.images
    adits := now.adits, emb := now.emb, watches := now.watches, msix := now.msix, msixTab := now.msixTab, msixPend := now.msixPend, mail := now.mail
    cnt := now.cnt.foldl (fun m e => SMap.set m e.1 (SMap.get 0 m e.1 + e.2)) saved.cnt }
  if now.fenced then q.fenceAll else q

/-- Q's context is loaded into its bays (R333). -/
def State.swapIn (s : State) (n : Nat) (k : Caisson) : State :=
  let now := s.part n
  let s := { s with
    caisson := SMap.set s.caisson n none
    cells := k.cells.foldl (fun m e => SMap.set m e.1 e.2) s.cells
    bays := k.bays.foldl (fun m e => SMap.set m e.1 e.2) s.bays
    parts := SMap.set s.parts n (k.part.restored now) }
  (now.fq.queue ++ now.fq.waiting).foldl (fun s r => s.pushRec n r) s

/-- The end of a halt-swap: its answer, and the commands that waited (R332, R349). -/
def State.swapEnd (s : State) (status : Nat) : State :=
  let s := s.answerPf 3 status
  s.takeSwaps s.hf.swaps

/-- HALT_SWAP_RESTORE (R333, R335, R339, R349): the end of a halt-swap, which each partition that it names learns of. A cell of Q that failed since its save refuses the
restore; a failed ECC check fences Q. -/
def execHaltSwapRestore (eccOk : Bool) (s : State) : Out :=
  match s.hf.swap with
  | none => .next s
  | some w =>
    if !w.drained then .next s
    else
      let s := ({ s with hf := { s.hf with swap := none } }).raiseVec w.p 2
      match w.q with
      | none => .next (s.swapEnd 0)
      | some n => match SMap.get none s.caisson n with
        | none => .next ((s.raiseVec n 2).swapEnd 2)
        | some k =>
          if s.failed.any fun c => k.part.cfg.bays.contains (bayOf c) && !k.failed.contains c then .next ((s.raiseVec n 2).swapEnd 2)
          else if !eccOk then .next ((((s.swapIn n k).raiseVec n 2).fencePart n).swapEnd 2)
          else .next (((s.swapIn n k).raiseVec n 2).swapEnd 0)

/-- CAISSON_DISCARD (R328, R335): a saved context is discarded, and with it the partition that it was the state of. -/
def execCaissonDiscard (part : Nat) (s : State) : Out :=
  s.pfOnly 12 <|
    if s.hf.swap.any (fun w => w.q == some part) || !s.hf.booted then .next s
    else
      let s := { s with caisson := SMap.set s.caisson part none }
      .next (if (s.part part).swapped then { s with parts := smErase s.parts part } else s)

end Sys2Proof.Machine
end

