-- ==== Sys2Proof/Machine/CounterInstr.lean ====
section
/-! DEFINITION. CNTR and CNTW and the counters of the device (R322-R326). -/

namespace Sys2Proof.Machine

/-- The index range of an indexed counter; none for an unindexed one (R322, R324). TAILW takes a tensor id. -/
def cntRange (n : Nat) : Option Nat :=
  if n == 0x010 then some 32
  else if n == 0x011 || n == 0x012 then some 32
  else if n == 0x013 || n == 0x01D then some 16
  else if n == 0x018 then some 65536
  else if n == 0x01F then some 64
  else if n == 0x028 || n == 0x029 then some 8
  else if n == 0x02A then some 18
  else none

/-- Whether a number is assigned for a cell of a kind (R322). -/
def cntAssigned (kind n : Nat) : Bool :=
  n ≤ 0x004
    || ((0x008 ≤ n && n ≤ 0x00D || n == 0x010) && kind == 0)
    || (0x011 ≤ n && n ≤ 0x014) || (0x018 ≤ n && n ≤ 0x021) || (0x028 ≤ n && n ≤ 0x02A) || (0x040 ≤ n && n ≤ 0x045)
    || ((n == 0x046 || n == 0x047) && kind == 2)

/-- Whether a number is an S counter: a program write traps PRIV (R3, R322). -/
def cntSys (n : Nat) : Bool := n == 0x004 || (0x028 ≤ n && n ≤ 0x02A)

/-- The value of an assigned counter at an index, as a cell reads it (R322). -/
def State.cntValue (s : State) (c n i : Nat) : Word :=
  let x := s.cell c
  let p := (s.partOf c).getD 0
  let q := s.part p
  let g : Graph := ((s.graphAt c).map (·.2)).getD {}
  let slot := x.slot (i / 4)
  let fifo := fun (m : SMap (List Token)) => BitVec.ofNat 64 (SMap.get [] m (i % 4)).length
  let part := fun (k : Nat) => (SMap.get 0 q.cnt k).zeroExtend 64
  let pkg := fun (k : Nat) => (SMap.get 0 s.cnt k).zeroExtend 64
  let bar := SMap.get {} g.barriers i
  if n == 0x000 then s.tbase
  else if n == 0x001 then BitVec.ofNat 64 (s.tbase.toNat % 32000)
  else if n == 0x002 then BitVec.ofNat 64 (g.quantum / 1000 % 2 ^ 32)
  else if n == 0x003 then BitVec.ofNat 64 (g.wdog / 1000 % 2 ^ 32)
  else if n == 0x004 then q.wdlim.zeroExtend 64
  else if n == 0x008 then x.m.copy.seq.zeroExtend 64
  else if n == 0x009 then x.m.fill.seq.zeroExtend 64
  else if n == 0x010 then BitVec.ofNat 64 (SMap.get {} x.m.queues i).toks.length
  else if n == 0x011 then fifo slot.inq
  else if n == 0x012 then fifo slot.outq
  else if n == 0x013 then (bar.gen ++ bar.arrivals : BitVec 32).zeroExtend 64
  else if n == 0x014 then BitVec.ofNat 64 (s.bay (bayOf c)).leased
  else if n == 0x018 then (SMap.get 0 q.tails i).zeroExtend 64
  else if n == 0x01D then (SMap.get {} q.emb i).dropped.zeroExtend 64
  else if n == 0x01F then part (0x01F * 256 + i)
  else if 0x019 ≤ n && n ≤ 0x01E then part n
  else if 0x028 ≤ n && n ≤ 0x02A then pkg (n * 256 + i)
  else if n == 0x040 || 0x041 ≤ n && n ≤ 0x047 then SMap.get 0 x.cnt n
  else ((SMap.get 0 x.cnt n).extractLsb' 0 32).zeroExtend 64

/-- Whether an index is in a counter's range; a window tensor id names a shadow window (R324). -/
def State.cntIndexOk (s : State) (c n : Nat) (i : Word) : Bool :=
  match cntRange n with
  | none => true
  | some r => i.toNat < r && (n != 0x018 || (i.toNat < 0xFFFE
      && (let d := s.desc ((s.partOf c).getD 0) (bayOf c) i.toNat
          d.v && d.ok && d.shadow)))

/-- The checks of CNTR and CNTW (R324): the trap value of an ILLOP, none where the counter is named rightly. `r` is the index
register. -/
def State.cntBad (s : State) (i : Instr) (n : BitVec 7) (r : BitVec 5) : Option Word :=
  if !cntAssigned (kindOf s.focus.cell) n.toNat then some (wordOf i)
  else if (cntRange n.toNat).isNone && r != 0 then some (wordOf i)
  else if !s.cntIndexOk s.focus.cell n.toNat (s.seq.getG r) then some (s.seq.getG r)
  else none

/-- CNTR (R324). -/
def execCntr (d a : BitVec 5) (n : BitVec 7) (s : State) : Out :=
  match s.cntBad (.cntr d a n) n a with
  | some v => s.trapSelf 0x01 v (wordOf (.cntr d a n))
  | none => s.doneG d (s.cntValue s.focus.cell n.toNat (s.seq.getG a).toNat)

/-- CNTW (R324): a P counter is written, and the events of its tick are counted after the write (R325); an S counter traps PRIV,
any other is left. -/
def execCntw (d a : BitVec 5) (n : BitVec 7) (s : State) : Out :=
  match s.cntBad (.cntw d a n) n d with
  | some v => s.trapSelf 0x01 v (wordOf (.cntw d a n))
  | none =>
    if cntSys n.toNat then s.trapSelf 0x02 (n.zeroExtend 64) (wordOf (.cntw d a n))
    else if 0x040 ≤ n.toNat then
      (s.modCell s.focus.cell fun x =>
        { x with cnt := SMap.set x.cnt n.toNat (s.seq.getG a + SMap.get 0 x.now n.toNat) }).done s.seq
    else s.done s.seq

end Sys2Proof.Machine
end

