-- ==== Sys2Proof/Machine/ElemMem.lean ====
section
/-! DEFINITION. The memory words of elements: ELD, EST, HPROBE and HINS (R129-R136). -/

namespace Sys2Proof.Machine

/-- The element of the step's focus as an issuer (R129): the STRM class, with its port-0 endpoint. -/
def State.elWho (s : State) : Who :=
  { cell := s.focus.cell, span := s.el.span, port := 3 * s.focus.unit, cls := .strm }

/-- The address of a memory element (R130). -/
def elemVa (x : Elem) (index : BitVec 32) : Word :=
  let k0 := x.const 0
  mkVa (k0.extractLsb' 0 16).toNat
    ((k0.extractLsb' 16 16).toNat * 2 ^ 32 + (x.const 1).toNat + index.toNat * (x.const 2).toNat)
/-- The chunk format that matches a TY (R57, R130). -/
def tyCode (ty : BitVec 3) : Nat :=
  if ty == 0 then 3 else if ty == 1 then 5 else if ty == 2 then 7 else if ty == 3 then 6 else if ty == 4 then 8
  else if ty == 5 then 9 else if ty == 6 then 1 else 2
/-- An entry whose format a memory element does not take. -/
def badFmt (ty : BitVec 3) (es : List (BitVec 64)) : Option (BitVec 64) :=
  es.find? fun e => ceFmt e != 0 && (ceFmt e).toNat != tyCode ty
/-- The bytes of an access (R130). -/
def accBytes (ty : BitVec 3) (sh : BitVec 2) : Nat := if sh == 0 then tyBytes ty else shapeBytes sh

/-- A firing of the focused element ends: slots emptied and a result pushed; a token that reaches a sink is progress (R323). -/
def State.elFire (s : State) (i : Instr) (t : Option Token) : State :=
  let x := s.el.clear (instrSlots i)
  ((s.setEl (match t with
    | some t => x.push t (destList i)
    | none => x)).bump s.focus.cell 0x043 1).sinkToken s.focus.cell s.focus.unit (s.el.in0.getD {})

/-- The tokens of a memory word's firing, or the outcome when it does not fire. -/
def State.memTokens (s : State) (i : Instr) (room : Nat := instrStage i) : Except Out (List Token) :=
  match dataTokens i s.el room with
  | .error none => .error (.next s)
  | .error (some t) => .error (.next (s.tokFault s.focus.cell s.el.span (3 * s.focus.unit) t))
  | .ok ts => if s.portBusy s.focus.cell (3 * s.focus.unit) then .error (.next s) else .ok ts

/-- ELD (R131). The guard gives its control value alone; its other fields are ignored (R43, log 77). -/
def execEld (ty : BitVec 3) (sh : BitVec 2) (gd : BitVec 1) (da db : BitVec 6) (s : State) : Out :=
  let i : Instr := .eld ty sh gd da db
  match s.memTokens i with
  | .error o => o
  | .ok ts =>
    let t := tok0 ts
    let w := s.elWho
    let head := dataHead [t]
    let badFormat := fun (va : Word) (e : BitVec 64) => Host.Outcome.next (s.fmtFault w.cell w.span w.port 0 va e 0)
    if gd == 1 && !tkCtlVal (tok1 ts) then .next (s.elFire i (some head))
    else
      let va := elemVa s.el (t.ref.extractLsb' 0 32)
      let n := accBytes ty sh
      let out := fun (bs : List Byte) (s' : State) =>
        let r := if sh == 0 then { head with ref := BitVec.ofNat 64 (leNat bs) }
          else { head with pl := true, lmask := 0xFFFF, payload := bytes512 bs }
        Host.Outcome.next (s'.elFire i (some r))
      if vaOff va % tyBytes ty != 0 then .next (s.fmtFault w.cell w.span w.port 3 va 0 0)
      else if s.isWindow w va then
        match s.readWindow w va n with
        | .error (.held s') => .next s'
        | .error (.fmt e) => badFormat va e
        | .ok (bs, s', es) => match badFmt ty es with
          | some e => badFormat va e
          | none => out bs s'
      else match badFmt ty (s.entriesOf w .rd va n) with
        | some e => badFormat va e
        | none => match s.readStrm w va n with
          | .error s' => .next s'
          | .ok (bs, s') => out bs s'

/-- The pieces an EST writes: the lane groups that in1 enables (R132). -/
def estPieces (ty : BitVec 3) (sh : BitVec 2) (va : Word) (t : Token) : List (Word × List Byte) :=
  if sh == 0 then [(va, natLe (t.ref.toNat % 2 ^ (8 * tyBytes ty)) (tyBytes ty))]
  else ((List.range (shapeBytes sh / 4)).filter fun g => (maskOf sh t).getLsbD g).map fun g =>
    (mkVa (vaTensor va) (vaOff va + 4 * g), (bytesOf512 t.payload 64).drop (4 * g) |>.take 4)

/-- EST (R132). The format check of R130 looks at the chunks of the lane groups it writes (log 79). -/
def execEst (ty : BitVec 3) (sh : BitVec 2) (da db : BitVec 6) (s : State) : Out :=
  let i : Instr := .est ty sh da db
  match s.memTokens i with
  | .error o => o
  | .ok ts =>
    let t := tok0 ts
    let w := s.elWho
    let head := dataHead [t, tok1 ts]
    if !tkCtlVal (tok2 ts) then .next (s.elFire i (some head))
    else
      let va := elemVa s.el (t.ref.extractLsb' 0 32)
      let ps := estPieces ty sh va (tok1 ts)
      if vaOff va % tyBytes ty != 0 then .next (s.fmtFault w.cell w.span w.port 3 va 0 0)
      else match badFmt ty (if (s.piecesUndecl w ps).isSome then [] else
          ps.flatMap fun p => s.entriesOf w .wr p.1 p.2.length) with
        | some e => .next (s.fmtFault w.cell w.span w.port 0 va e 0)
        | none => match s.writeStrm w ps with
          | .error s' => .next s'
          | .ok s' => .next (s'.elFire i (some { head with ref := 1 }))

/-! ### Hash tables -/

/-- What a probe finds (R133). -/
inductive Probe where
  | found (slot value : Nat)
  | empty (slot : Nat)
  | full
  | poison (off : Nat)
  deriving DecidableEq, Repr

/-- The probe sequence of R133 over the table at the base of a tile; the last argument counts the entries left. -/
def probe (x : Cell) (tile log key slot : Nat) : Nat → Probe
  | 0 => .full
  | f + 1 =>
    match x.tilePoison tile (8 * slot) 8 with
    | some o => .poison o
    | none =>
      let k := x.tileNat tile (8 * slot) 4
      if k == key && key != 0xFFFFFFFF then .found slot (x.tileNat tile (8 * slot + 4) 4)
      else if k == 0xFFFFFFFF then .empty slot
      else probe x tile log key ((slot + 1) % 2 ^ log) f

/-- The hash of a key by k1[9:8] (R133). -/
def hashOf (sel : BitVec 2) (key : BitVec 32) : BitVec 32 :=
  if sel == 0 then hashLane key else if sel == 1 then hashCrc 0xFFFFFFFF key else if sel == 2 then hashFold key else key

/-- The tile and LOG of the focused hash element (R133). -/
def State.hashTile (s : State) : Nat := ((s.el.const 0).extractLsb' 0 6).toNat
def State.hashLog (s : State) : Nat := ((s.el.const 1).extractLsb' 0 5).toNat
/-- The outcome of a hash word that does not fire: the element waits while its tile is not ready; LOG above 15, or a table
past its tile, raises an op-word fault (R133). A suppressed access meets neither (R295). -/
def State.hashHeld (s : State) : Option Out :=
  let c := s.cell s.focus.cell
  if s.suppressed s.elWho then none
  else if !c.tileReady s.hashTile then some (.next s)
  else if s.hashLog > 15 || 8 * 2 ^ s.hashLog > (c.tile s.hashTile).bytes then
    some (.next (s.opFault s.focus.cell s.el.span (3 * s.focus.unit) s.el.word 0))
  else none
/-- The slots that a probe sequence visits. -/
def probes (x : Cell) (tile log key slot : Nat) : Nat → Nat
  | 0 => 0
  | f + 1 =>
    let k := x.tileNat tile (8 * slot) 4
    if (x.tilePoison tile (8 * slot) 8).isSome || k == key || k == 0xFFFFFFFF then 1
    else probes x tile log key ((slot + 1) % 2 ^ log) f + 1
/-- The places of a hash element's output stage at a firing (R118): 2 and the slots that it would probe. -/
def State.hashRoom (s : State) (probing : Bool) : Nat :=
  let x := s.el
  let key := (x.in0.getD {}).ref.extractLsb' 0 32
  if !probing || s.hashHeld.isSome then 2
  else if s.suppressed s.elWho then 3
  else 2 + probes (s.cell s.focus.cell) s.hashTile s.hashLog key.toNat
    ((hashOf ((x.const 1).extractLsb' 8 2) key).toNat % 2 ^ s.hashLog) (2 ^ s.hashLog)

/-- Whether the focused element is a hash element that would probe or pass a key now: its tokens pair, its output stage has room,
its port is not stopped and its table can be probed. -/
def State.hashReady (s : State) : Bool :=
  let go := fun (i : Instr) (probing : Bool) => match s.memTokens i (s.hashRoom probing) with
    | .ok _ => s.hashHeld.isNone
    | .error _ => false
  match elemInstr s.el.word with
  | some (.hprobe da db) => go (.hprobe da db) true
  | some (.hins da db) => go (.hins da db) (tkCtlVal (s.el.in2.getD {}))
  | _ => false
/-- Whether no hash element of lower index in the cell would fire on this tick: it goes first (R133). -/
def State.hashFirst (s : State) : Bool :=
  (List.range s.focus.unit).all fun e => !({ s with focus := { s.focus with unit := e } } : State).hashReady

/-- What a suppressed probe finds is free: a value, an empty slot or neither (R295, log 23). -/
def State.freeProbe (s : State) : Probe × State :=
  let u := s.free
  let v := u.2.free
  (if u.1.toNat % 3 == 0 then .found 0 (v.1.toNat % 2 ^ 32) else if u.1.toNat % 3 == 1 then .empty 0 else .full, v.2)

/-- A hash word's probe and the state after, or the outcome when it does not fire (R133, R136): a lower element that fires on
the tick goes first. -/
def State.hashProbe (s : State) (key : BitVec 32) : Except Out (Probe × State) :=
  let x := s.el
  let c := s.cell s.focus.cell
  let tile := s.hashTile
  let log := s.hashLog
  match s.hashHeld with
  | some o => .error o
  | none =>
    if !s.hashFirst then .error (.next s)
    else if s.suppressed s.elWho then .ok s.freeProbe
    else match probe c tile log key.toNat ((hashOf ((x.const 1).extractLsb' 8 2) key).toNat % 2 ^ log) (2 ^ log) with
      | .poison o => .error (.next (s.poisonStop s.elWho o))
      | r => .ok (r, s)

/-- A failed look-up: REF all ones, ABSENT 1 (R134, R135). -/
def absentData (coord : BitVec 32) : Token := { kind := 0, coord := coord, ref := BitVec.allOnes 64, absent := true }

/-- HPROBE (R134). -/
def execHprobe (da db : BitVec 6) (s : State) : Out :=
  let i : Instr := .hprobe da db
  match s.memTokens i (s.hashRoom true) with
  | .error o => o
  | .ok ts =>
    let key := (tok0 ts).ref.extractLsb' 0 32
    match s.hashProbe key with
    | .error o => o
    | .ok (.found _ v, s) => .next (s.elFire i (some { kind := 0, coord := key, ref := BitVec.ofNat 64 v }))
    | .ok (_, s) => .next (s.elFire i (some (absentData key)))

/-- HINS (R135). -/
def execHins (da db : BitVec 6) (s : State) : Out :=
  let i : Instr := .hins da db
  match s.memTokens i (s.hashRoom (tkCtlVal (s.el.in2.getD {}))) with
  | .error o => o
  | .ok ts =>
    let t := tok0 ts
    let key := t.ref.extractLsb' 0 32
    let val := (tok1 ts).ref.extractLsb' 0 32
    if !tkCtlVal (tok2 ts) then s.hashHeld.getD (.next (s.elFire i (some (absentData t.coord))))
    else match s.hashProbe key with
      | .error o => o
      | .ok (.found _ v, s) => .next (s.elFire i (some { kind := 0, coord := t.coord, ref := BitVec.ofNat 64 v }))
      | .ok (.empty slot, s) =>
        if key == 0xFFFFFFFF then .next ((s.bump s.focus.cell 0x00D 1).elFire i (some (absentData t.coord)))
        else
          let s' := s.tileStore s.elWho s.hashTile (8 * slot) (natLe (key.toNat + val.toNat * 2 ^ 32) 8)
          .next (s'.elFire i (some { kind := 0, coord := t.coord, ref := val.zeroExtend 64 }))
      | .ok (_, s) => .next ((s.bump s.focus.cell 0x00D 1).elFire i (some (absentData t.coord)))

end Sys2Proof.Machine
end

