-- ==== Sys2Proof/Machine/Xlate.lean ====
section
/-! DEFINITION. The events of translation (R264-R272), of accesses from other packages (R269), and of the weight store's
refresh (R161). -/

namespace Sys2Proof.Machine

/-- Whether an address lies in a lazy region of the task of a span (R270). -/
def State.inLazy (s : State) (k : Walk) : Bool :=
  match s.taskFor { cell := k.cell, span := k.span, port := k.port, cls := .seq } with
  | none => false
  | some t => t.regions.any fun r =>
      rgLazy r && rgTensor r == vaTensor k.va && rgBase r ≤ vaOff k.va && vaOff k.va < rgBase r + rgExtent r

/-- The class that a walk's fault is reported under (R270): V = 0 of a chunk entry is LAZY inside a lazy region, else
MISSING. -/
def State.faultClass (s : State) (k : Walk) (f : Nat) : Nat := if f == 2 && !s.inLazy k then 1 else f

/-- The access of a sequencer that waits for a walk: the held one, or that of a waiting MWAIT (R190). -/
def Seq.heldBy (q : Seq) (k : Walk) : Option Hold :=
  match q.wait.hold with
  | some h => some h
  | none => q.wait.mwait.map fun _ => { va := k.va, kind := k.kind, mwait := true }

/-- TRANSLATION_WALK_COMPLETE (R264-R266, R270): one of a bay's four walkers fills the caches, or its fault is reported; a SEQ
access that the walk refuses traps PERM when its response is taken. The walks behind the first four wait for a walker, and no walk ends during
a clock change (R361). -/
def execTranslationWalkComplete (walker : Nat × Nat) (s : State) : Out :=
  let bay := walker.1
  match if walker.2 < 4 && s.hf.toPoint.isNone then (s.bay bay).walks[walker.2]? else none with
  | none => .next s
  | some k =>
    let s0 := s.modBay bay fun b => { b with walks := b.walks.eraseIdx walker.2 }
    match s.partOf k.cell with
    | none => .next s0
    | some p => match s0.doWalk p k (kindNeed k.kind) with
      | .ok s => .next s
      | .error f =>
        let q := s0.seqAt k.cell
        let report := s0.reportXl p k.cell k.port (s.faultClass k f) (kindCode k.kind) k.va k.span k.pat
        if k.port != 0x80 then .next report
        else match q.heldBy k with
          | none => .next s0
          | some h =>
            if f == 3 then .next (s0.setSeqAt k.cell { q with wait := { hold := some { h with trap := some (0x05, k.va) }, stall := 1 } })
            else .next (report.setSeqAt k.cell { q with wait := { hold := some { h with stopped := true }, stall := 1 } })

/-- A stopped port walks again (R271, R272): a sequencer executes the held instruction afresh, the launch scheduler leases for
the tasks that port 0x86 held (R268), any other unit performs its access. -/
def State.unstop (s : State) (c port : Nat) : State :=
  let s := s.modCell c fun x =>
    { x with
      stopped := x.stopped.filter (· != port), ringed := x.ringed.filter (· != port)
      leaseHeld := if port == 0x86 then [] else x.leaseHeld }
  if port == 0x80 then s.setSeqAt c { s.seqAt c with wait := {} } else s

/-- Whether a record of a port still waits at its source for room in the ring or the fault queue; the source stays stopped
until there is room (R210). -/
def State.recWaits (s : State) (c port : Nat) : Bool :=
  match s.partOf c with
  | none => false
  | some p =>
    let here := fun (w0 w1 : Word) => (w0.extractLsb' 24 8).toNat == port && (w1.extractLsb' 48 14).toNat == c
    s.errWaits c port || (s.part p).fq.ringWait.any (fun r => here (r.extractLsb' 0 64) (r.extractLsb' 64 64))
      || (s.part p).fq.waiting.any (fun r => !r.w0.getLsbD 23 && here r.w0 r.w1)

/-- RING_RETRY (R272): an access held in ring mode walks again 4,096 ticks later. -/
def execRingRetry (cell port : Nat) (s : State) : Out :=
  if (s.cell cell).ringed.contains port && s.cellLive cell && !s.recWaits cell port then .next (s.unstop cell port) else .next s

/-- PORT_RESUME (R271, R343): system software of the cell's partition resumes a port stopped in stream-record
mode; any other is refused (log 37). -/
def execPortResume (cell port : Nat) (s : State) : Out :=
  let held := (s.cell cell).stopped.contains port && !(s.cell cell).ringed.contains port
  s.ownCmd ((s.partOf cell).getD 0) 16 <|
    if held && s.cellLive cell && !s.recWaits cell port then .next ((s.unstop cell port).answer 16 0) else .next (s.answer 16 2)

/-- An invalidation of a bay's cached entries: those without a lease leave, leased ones stay for their holders (R267, R268). -/
def Inval.cutBay (i : Inval) (x : Bay) : Bay :=
  { x with
    tlb := (x.tlb.filter fun e => !(i.names e.tensor e.chunk && e.leases == 0)).map fun e =>
      if i.names e.tensor e.chunk then { e with stale := true } else e
    desc := if i.count == 0 then x.desc.filter (fun d => d.1 != i.tensor) else x.desc }
/-- An invalidation of the shard entries a task has used: those of a tensor it holds leases on stay until its edge (R317). -/
def Inval.cutTask (i : Inval) (t : Task) : Task :=
  if !t.shards.any fun h => h.tensor == i.tensor then t
  else if t.keepsShards i.tensor then { t with oldShards := (t.oldShards ++ [i.tensor]).eraseDups }
  else { t with shards := t.shards.filter fun h => h.tensor != i.tensor }
def Inval.cutGraph (i : Inval) (g : Graph) : Graph := { g with tasks := g.tasks.map i.cutTask }
/-- An invalidation of a partition's tasks, and its entry among those to be reported. -/
def Inval.cutPart (i : Inval) (q : Part) : Part :=
  { q with
    graphs := q.graphs.map i.cutGraph
    yields := q.yields.map fun (e : Nat × YieldCtx) => (e.1, { e.2 with graph := i.cutGraph e.2.graph })
    inval := q.inval ++ [i] }

/-- Matching entries leave every cache of a partition; a leased entry stays for the tasks that hold it. Of a partition whose
context lies in the caisson, the leased entries saved there are marked, and the stages are reported after its restore
(log 82). -/
def State.invalidate (s : State) (part : Nat) (i : Inval) : State :=
  let q := s.part part
  let mine := fun (b : Nat) => q.cfg.bays.contains b
  let cutKept := fun (k : Caisson) =>
    { k with part := i.cutPart k.part, bays := k.bays.map fun (b : Nat × Bay) => (b.1, i.cutBay b.2) }
  let cutCell := fun (x : Cell) => { x with tlb := x.tlb.filter fun k => !i.names k.tensor k.chunk }
  if !q.loaded then s
  else if q.swapped then
    { s with caisson := s.caisson.map fun (e : Nat × Option Caisson) => (e.1, if e.1 == part then e.2.map cutKept else e.2) }
  else
    ({ s with
      cells := s.cells.map fun (e : Nat × Cell) => (e.1, if mine (bayOf e.1) then cutCell e.2 else e.2)
      bays := s.bays.map fun (e : Nat × Bay) => (e.1, if mine e.1 then i.cutBay e.2 else e.2) }).modPart part i.cutPart

/-- INVALIDATION_REQUEST (R267, R268, R343). -/
def execInvalidationRequest (part tensor first count : Nat) (s : State) : Out :=
  s.ownCmd part 17 (.next (s.invalidate part { tensor := tensor, first := first, count := count }))

/-- INVALIDATION_COMPLETE (R267, R268): the oldest invalidation not yet reported; its second stage follows the last lease. -/
def execInvalidationComplete (part : Nat) (s : State) : Out :=
  match (s.part part).inval.find? fun i => !i.told with
  | none => .next s
  | some i =>
    let s := (s.tellInval part 1 i).modPart part fun q =>
      { q with inval := modFirst (fun i => !i.told) (fun i => { i with told := true }) q.inval }
    .next (s.invalDone part)

/-- Whether a bank group is in its refresh window at a time (R161). -/
def inWindow (t : Word) (grp : Nat) : Bool := 2000 * grp ≤ t.toNat % 32000 && t.toNat % 32000 < 2000 * grp + 256
/-- The bank groups in their refresh window at a time. -/
def refreshAt (t : Word) : BitVec 16 :=
  BitVec.ofNat 16 ((List.range 16).foldl (fun n g => if inWindow t g then n + 2 ^ g else n) 0)

/-- REFRESH_WINDOW_OPEN (R161): REFWIN has reached 2,000 g. -/
def execRefreshWindowOpen (grp : Nat) (s : State) : Out :=
  if grp < 16 && inWindow s.tbase grp then
    .next { s with mem := { s.mem with refresh := s.mem.refresh ||| (1#16 <<< grp) } }
  else .next s

/-- REFRESH_WINDOW_CLOSE (R161): REFWIN has reached 2,000 g + 256. -/
def execRefreshWindowClose (grp : Nat) (s : State) : Out :=
  if grp < 16 && !inWindow s.tbase grp then
    .next { s with mem := { s.mem with refresh := s.mem.refresh &&& ~~~(1#16 <<< grp) } }
  else .next s

end Sys2Proof.Machine
end

