-- ==== Sys2Proof/Machine/HostIf.lean ====
section
/-! DEFINITION. The host port, the lode ports, the Malyan link, start-up and clock (R343-R361), and the registers that
system software writes (R3, R210, R282, R308, R322). -/

namespace Sys2Proof.Machine

/-! ### Registers -/

/-- BYPASS_MAX_WRITE (R282): of PF 0; a write of 0 is ignored. -/
def execBypassMaxWrite (part : Nat) (v : BitVec 4) (s : State) : Out :=
  s.pfOnly 14 <|
    if !(s.part part).loaded || v == 0 then .next s else .next (s.modPart part fun q => { q with bypassMax := v })

/-- A word of an ERT entry as system software writes it: V, SIZE and LODE; every other field is of the hardware (R309). -/
def ertWrite (e : Ert) (w : Nat) (v : BitVec 64) : Ert :=
  if w == 0 then { e with v := v.getLsbD 3 }
  else if w == 1 then { e with size := v.extractLsb' 48 16 }
  else if w == 2 then { e with lode := v }
  else e

/-- An entry that system software changed when R309 does not let it: what its fetches and evictions go by is free
(log 18). -/
def Ert.unspecified (e : Ert) (f lode : Word) : Ert :=
  { e with v := f.getLsbD 0, dirty := f.getLsbD 1, req := f.getLsbD 2, fail := f.getLsbD 3, size := f.extractLsb' 48 16, lode := lode }

/-- A half of a 128-bit table entry replaced: the low one (0) or the high one. -/
def putHalf (e : BitVec 128) (h : Nat) (v : BitVec 64) : BitVec 128 :=
  if h == 0 then e.extractLsb' 64 64 ++ v else v ++ e.extractLsb' 0 64

/-- The bytes of a stamp watch (R350), and a watch by them. -/
def Watch.bits (w : Watch) : BitVec 128 := 0#47 ++ BitVec.ofBool w.v ++ BitVec.ofNat 16 w.vector ++ w.va
def watchOf (b : BitVec 128) : Watch :=
  { va := b.extractLsb' 0 64, vector := (b.extractLsb' 64 16).toNat, v := b.getLsbD 80, fresh := true }

/-- What the host reaches at a byte offset of BAR0 or BAR2 (R344, R346): a token slot, a field of an adit window, the mailbox, a
half of an entry of the MSI-X table or of the stamp-watch table, a word of the pending-bit array, or nothing. -/
inductive BarPlace where
  | token (adit : Nat)
  | status (adit : Nat)
  | egBase (adit : Nat)
  | egLen (adit : Nat)
  | egDone (adit : Nat)
  | mailbox (off : Nat)
  | msix (vector half : Nat)
  | pending (word : Nat)
  | watch (idx half : Nat)
  | none
  deriving DecidableEq, Repr

def bar0Place (off : Nat) : BarPlace :=
  let a := off / 0x1000
  let r := off % 0x1000
  if 0x40000 ≤ off then .none
  else if r < 0x800 then .token a
  else if r == 0x800 then .status a
  else if r == 0x808 then .egBase a
  else if r == 0x810 then .egLen a
  else if r == 0x818 then .egDone a
  else .none
def bar2Place (off : Nat) : BarPlace :=
  if off < 0x10000 then .mailbox off
  else if 0x40000 ≤ off || off % 8 != 0 then .none
  else if off < 0x20000 then (if (off - 0x10000) / 16 < 2048 then .msix ((off - 0x10000) / 16) (off / 8 % 2) else .none)
  else if off < 0x30000 then (if (off - 0x20000) / 8 < 32 then .pending ((off - 0x20000) / 8) else .none)
  else if (off - 0x30000) / 16 < 64 then .watch ((off - 0x30000) / 16) (off / 8 % 2)
  else .none

/-- A write of 8 bytes to a place of BAR0 or BAR2: STATUS, the pending bits and the mailbox, whose layout spec/ does not give, take
none; EGBASE restarts the egress (R346); a token written with 8 bytes is a write of another size (R347). -/
def Part.barWrite (q : Part) (b : BarPlace) (v : BitVec 64) : Part :=
  match b with
  | .egBase a => { q with adits := SMap.set q.adits a { q.adit a with egbase := v &&& ~~~127, egcount := 0 } }
  | .egLen a => { q with adits := SMap.set q.adits a { q.adit a with eglen := v } }
  | .egDone a => { q with adits := SMap.set q.adits a { q.adit a with egdone := v } }
  | .msix n h => { q with msixTab := SMap.set q.msixTab n (putHalf (SMap.get 0 q.msixTab n) h v) }
  | .watch i h => { q with watches := SMap.set q.watches i (watchOf (putHalf (SMap.get {} q.watches i).bits h v)) }
  | .token a => { q with cnt := SMap.set q.cnt (0x01F * 256 + a) (SMap.get 0 q.cnt (0x01F * 256 + a) + 1) }
  | .status _ | .pending _ | .mailbox _ | .none => q

/-- STATUS of an adit (R346): FREE, BROKEN, FENCED and SWAPPED. -/
def Part.aditStatus (q : Part) (a : Nat) : Word :=
  (0#45 ++ BitVec.ofBool q.swapped ++ BitVec.ofBool q.fenced ++ BitVec.ofBool (q.adit a).broken ++ 0#6
    ++ BitVec.ofNat 10 (q.adit a).free : BitVec 64)

/-- The point of the clock and the cause of its last change as the mailbox shows them (R361): the point in [1:0]; in [9:8] 1 for
heat, 2 for power, 3 for both fallen back. The layout is the model's (log 37). -/
def Headframe.clockWord (h : Headframe) : Word :=
  let c := match h.cause with
    | none => 0
    | some (.heat _) => 1
    | some (.power _) => 2
    | some (.fall _) => 3
  BitVec.ofNat 64 (h.point + 256 * c)
/-- The stacks that failed to train, a bit each (R357, log 37). -/
def Headframe.stackWord (h : Headframe) : Word := BitVec.ofNat 64 ((List.range 8).foldl (fun n k => if h.bootUnits.contains k then n + 2 ^ k else n) 0)

/-- What a host read of 8 bytes of BAR0 or BAR2 returns (R344, R346, R357, R361): boot status stands first in the mailbox. -/
def State.barRead (s : State) (p : Nat) (b : BarPlace) : Word :=
  let q := s.part p
  match b with
  | .status a => q.aditStatus a
  | .egBase a => (q.adit a).egbase
  | .egLen a => (q.adit a).eglen
  | .egDone a => (q.adit a).egdone
  | .msix n h => (SMap.get 0 q.msixTab n).extractLsb' (64 * h) 64
  | .pending i => BitVec.ofNat 64 ((List.range 64).foldl (fun m k => if q.msixPend.contains (64 * i + k) then m + 2 ^ k else m) 0)
  | .watch i h => (SMap.get {} q.watches i).bits.extractLsb' (64 * h) 64
  | .mailbox o =>
    if o == 0 then BitVec.ofNat 64 s.hf.boot else if o == 8 then s.hf.clockWord else if o == 16 then s.hf.stackWord else 0
  | .token _ | .none => 0

/-- A write of a partition's register. -/
def Part.regWrite (q : Part) (r : HostReg) (v : BitVec 64) : Part :=
  match r with
  | .qdef => { q with qdef := v.setWidth 32 }
  | .wdlim => if v.setWidth 32 == 0#32 then q else { q with wdlim := v.setWidth 32 }
  | .fmode => { q with fq := { q.fq with ring := v.getLsbD 0 } }
  | .ringBase => { q with fq := { q.fq with ringBase := v } }
  | .ringSize => if 6 ≤ v.toNat && v.toNat ≤ 20 then { q with fq := { q.fq with ringSize := v.toNat } } else q
  | .apFrame => { q with apFrame := v.toNat % 2 ^ 23 }
  | .traceEnable => { q with trace := v.getLsbD 0 }
  | .watch i va vec on =>
    if i < 64 && va.toNat % 8 == 0 && 4 ≤ vec && vec < 2048 then
      { q with watches := SMap.set q.watches i { va := va, vector := vec, v := on, fresh := true } }
    else q
  | .emb i w0 w1 =>
    if i < 16 then { q with emb := SMap.set q.emb i { SMap.get {} q.emb i with w0 := w0, w1 := w1 } } else q
  | .bar0 o => q.barWrite (bar0Place o) v
  | .bar2 o => q.barWrite (bar2Place o) v
  | .egLen a => if a < 64 then { q with adits := SMap.set q.adits a { q.adit a with eglen := v } } else q
  | .egDone a => if a < 64 then { q with adits := SMap.set q.adits a { q.adit a with egdone := v } } else q
  | .aditStatus _ => q
  | .hbmCe _ | .hbmPb _ | .linkRt _ | .exportFrame _ _ _ | .ertWord _ _ | .fenceGraph _
  | .remoteExport _ _ _ | .planeMember _ _ | .planeReach _ _ _ => q

/-- Whether a partition owns a frame (R345). -/
def Part.ownsFrame (q : Part) (f : Nat) : Bool := q.cfg.frames.any fun r => r.1 ≤ f && f < r.1 + r.2

def State.link (s : State) (k : Nat) : LinkPort := SMap.get {} s.hf.links k
def State.setLink (s : State) (k : Nat) (l : LinkPort) : State :=
  { s with hf := { s.hf with links := SMap.set s.hf.links k l } }

/-- The packages of the domain that no port reaches, and some port did, are reported to PF 0 (R355); a report's word is the
model's (log 37). -/
def State.reportLost (s : State) (did : Nat → Bool) : State :=
  { s with hf := { s.hf with mail := s.hf.mail ++
      (s.mem.domain.filter fun k => did k && !s.reaches k).map fun k => BitVec.ofNat 64 (0x10000 + k) } }

/-- A list with an item in it or not. -/
def setIn {α : Type} [BEq α] (l : List α) (a : α) (on : Bool) : List α := if on then l.filter (· != a) ++ [a] else l.filter (· != a)

/-- Whether a register is of PF 0 alone (R343): QDEF, WDLIM, the counters of the package and what
the domain tells of itself. -/
def pfReg : HostReg → Bool
  | .qdef | .wdlim | .hbmCe _ | .hbmPb _ | .linkRt _ | .remoteExport _ _ _ | .planeMember _ _ | .planeReach _ _ _ => true
  | _ => false

/-- Whether a register is written through the mailbox, not at a place of its own in BAR0 or BAR2 (R344, R346, R350). -/
def mailReg : HostReg → Bool
  | .bar0 _ | .bar2 _ | .egLen _ | .egDone _ | .aditStatus _ | .watch _ _ _ _ => false
  | _ => true
/-- The end of a register write: its answer where it is a mailbox command (R349, log 37). -/
def State.wrote (s : State) (r : HostReg) (status : Nat) : Out := .next (if mailReg r then s.answer 13 status else s)

/-- A write of an entry of the expert residency table by system software; a new LODE of an expert whose FAIL is 1 starts its fetch
(R309, R311). -/
def State.ertStore (s : State) (p x w : Nat) (v : BitVec 64) : State :=
  let e := s.ert p x
  if !(s.part p).loaded || (s.part p).cfg.ertN ≤ x then s
  else if !(e.state == 0 && (e.wait == 0 || e.fail)) && ertWrite e w v != e then
    let r := s.free
    let u := r.2.free
    u.2.modErt p x fun e => e.unspecified r.1 u.1
  else
    let s := s.modErt p x fun e => ertWrite e w v
    if w == 2 && e.fail then s.xpDemand p x else s

/-- REGISTER_WRITE (R3, R210, R228, R269, R308, R311, R322, R336, R343, R344, R346, R350): package counters and the export list lie
outside a partition; STATUS of an adit ignores writes; system software may fence a graph. A VF exports frames of its own
partition; nothing is written before start-up (R357). -/
def execRegisterWrite (part : Nat) (reg : HostReg) (v : BitVec 64) (s : State) : Out :=
  let ends := fun (t : State) (status : Nat) => t.wrote reg status
  let pkg := fun (k : Nat) => ends { s with cnt := SMap.set s.cnt k (v.setWidth 32) } 0
  let go : Out := match reg with
    | .hbmCe k => if k < 8 then pkg (0x028 * 256 + k) else ends s 2
    | .hbmPb k => if k < 8 then pkg (0x029 * 256 + k) else ends s 2
    | .linkRt k => if k < 18 then pkg (0x02A * 256 + k) else ends s 2
    | .exportFrame f k on =>
      if s.focus.fn != 0 && !(s.part part).ownsFrame f then ends s 1
      else ends { s with mem := { s.mem with exported := setIn s.mem.exported (f, k) on } } 0
    | .remoteExport f k on => ends ({ s with mem := { s.mem with remExp := setIn s.mem.remExp (k, f) on } }).payOwed 0
    | .planeMember k on => ends ({ s with mem := { s.mem with domain := setIn s.mem.domain k on } }).payOwed 0
    | .planeReach n k on =>
      ends (({ s with mem := { s.mem with unreach := setIn s.mem.unreach (n, k) !on } }).reportLost s.reaches).payOwed 0
    | .ertWord x w => ends (s.ertStore part x w v) 0
    | .fenceGraph lid => if (s.part part).fenced || s.swapping part then ends s 2 else ends (s.softFence part lid) 0
    | r => if (s.part part).loaded then ends (s.modPart part fun q => q.regWrite r v) 0 else ends s 2
  if !s.hf.booted then .next s else if pfReg reg then s.pfOnly 13 go else s.ownCmd part 13 go

/-- FAULT_RECORD_READ (R210, R343): the oldest record leaves the fault queue, and a record that waited takes the place. -/
def execFaultRecordRead (part : Nat) (s : State) : Out :=
  s.ownCmd part 19 <| .next ((s.modPart part fun q => { q with fq := { q.fq with
    queue := q.fq.queue.drop 1 ++ q.fq.waiting.take (if q.fq.queue.isEmpty then 0 else 1)
    waiting := if q.fq.queue.isEmpty then q.fq.waiting else q.fq.waiting.drop 1 } }).answer 19 0)

/-- Waiting ring records take the places that the ring has (R210). -/
def FaultQ.fillRing (f : FaultQ) : List (BitVec 256) → FaultQ
  | [] => { f with ringWait := [] }
  | r :: rs =>
    if (f.tail - f.head).toNat < 2 ^ f.ringSize then
      FaultQ.fillRing { f with ringOut := f.ringOut ++ [r], tail := f.tail + 1 } rs
    else { f with ringWait := r :: rs }

/-- FAULT_RING_HEAD_ADVANCE (R210, R343): the head moves over `n` records at most to the tail. -/
def execFaultRingHeadAdvance (part n : Nat) (s : State) : Out :=
  s.ownCmd part 20 <| .next ((s.modPart part fun q =>
    let f := q.fq
    let k := min n (f.tail - f.head).toNat
    let f := { f with head := f.head + BitVec.ofNat 32 k, ringOut := f.ringOut.drop k }
    { q with fq := f.fillRing f.ringWait }).answer 20 0)

/-! ### Images (R359) -/

/-- The pieces of an aperture access: the frame and offset of each, and its length; none for a frame not owned. -/
def State.aperture (s : State) (p off n : Nat) : List (Option Nat × Nat) :=
  let q := s.part p
  (partsOf (BitVec.ofNat 64 off) n).map fun e =>
    let f := q.apFrame + e.1.toNat / 65536
    (if q.ownsFrame f && e.1.toNat < 2 ^ 34 then some (f * 65536 + e.1.toNat % 65536) else none, e.2)

/-- What a host read returns: all ones for a frame not owned; no bytes for a read of poisoned ones (log 37). -/
def State.apertureGet (s : State) (ps : List (Option Nat × Nat)) : List Byte :=
  if ps.any fun e => match e.1 with
    | some pa => (poisonAt s.mem.poison pa e.2).isSome
    | none => false
  then []
  else ps.flatMap fun e => match e.1 with
    | some pa => memBytes s.mem.hbm pa e.2
    | none => List.replicate e.2 0xFF

/-- An image as its bytes give the header, the section table and the signature (R81, R84), with the contents of the other
sections, whose byte layout spec/ does not give (log 8), as they stand in `img`. -/
def imageOf (bs : List Byte) (img : Image) : Image :=
  let f := fun (o n : Nat) => leNat ((bs.drop o).take n)
  let ns := f 0x14 2
  let ents := (List.range ns).map fun k => 0x40 + 16 * k
  let sg := (ents.find? fun o => f o 4 == 6).map fun o => f (o + 4) 4
  let so := sg.getD bs.length
  { img with
    magic := BitVec.ofNat 32 (f 0x00 4), version := BitVec.ofNat 16 (f 0x04 2), flags := BitVec.ofNat 16 (f 0x06 2)
    id := BitVec.ofNat 64 (f 0x08 8), width := f 0x10 1, height := f 0x11 1, nvar := f 0x12 2, nsect := ns
    total := f 0x18 8, sections := ents.map fun o => f o 4
    rsvZero := f 0x16 2 == 0 && f 0x20 32 == 0 && ents.all fun o => f (o + 12) 4 == 0
    tableOk := ents.all fun o => 0x40 + 16 * ns ≤ f (o + 4) 4 && f (o + 4) 4 + f (o + 8) 4 ≤ f 0x18 8
      && (f o 4 != 6 || f (o + 8) 4 == 72)
    sig := BitVec.ofNat 512 (f so 64), keyIdx := f (so + 64) 8, bytes := bs.take so }

/-- The status of an IMAGE_ADD: 0 taken, 2 refused. -/
def Part.addStatus (q : Part) (off len : Nat) (img : Image) : Nat :=
  let used := (q.images.map fun e => e.img.total).foldl (· + ·) 0
  let owned := (List.range (len / 65536 + 1)).all fun k => len ≤ k * 65536 || q.ownsFrame (q.apFrame + off / 65536 + k)
  if q.images.length < 256 && used + len ≤ q.cfg.storeRoom && len == img.total && img.magic == 0x4E4B4249
      && !(q.images.any fun e => e.img.id == img.id) && off % 65536 == 0 && off + len ≤ 2 ^ 34 && 64 ≤ len
      && len ≤ 2 ^ 28 && owned then 0 else 2

/-- The answer to an IMAGE_ADD, with vector 3 of the partition whichever function gave it (R349, R359). -/
def State.answerAdd (s : State) (p status : Nat) : State :=
  let t := s.answer 4 status
  if s.focus.fn == 0 then t.raiseVec p 3 else t

/-- IMAGE_ADD (R359): the headframe reads the image through the aperture and records it unchecked. -/
def execImageAdd (part off len : Nat) (img : Image) (s : State) : Out :=
  let q := s.part part
  let img := imageOf (s.apertureGet (s.aperture part off len)) img
  s.ownCmd part 4 <|
    if !q.loaded || q.addStatus off len img != 0 then .next (s.answerAdd part 2)
    else .next ((s.modPart part fun q => { q with images := q.images ++ [{ img := img }] }).answerAdd part 0)

/-- Whether a queued or placed launch names an image (R359); the tables of a partition that is swapped out count. -/
def State.namesImage (s : State) (p : Nat) (id : BitVec 64) : Bool :=
  let t := s.tablesOf p
  (t.lqs.flatMap (·.2)).any (fun e => lrImage e.lrec == id) || t.graphs.any fun g => g.imageId == id

/-- IMAGE_REMOVE (R359). -/
def execImageRemove (part : Nat) (id : BitVec 64) (s : State) : Out :=
  let q := s.part part
  s.ownCmd part 5 <|
    if !q.loaded || !(q.images.any fun e => e.img.id == id) || s.namesImage part id then .next (s.answer 5 2)
    else .next ((s.modPart part fun q => { q with images := q.images.filter fun e => e.img.id != id }).answer 5 0)

/-! ### Attestation and power (R360, R361) -/

/-- The 64 bytes of a digest. -/
def digest64 (d : BitVec 512) : List Byte := natLe d.toNat 64

/-- The report of 320 bytes (R360): nonce, firmware and fuse digests, package, partition, policy, keys, TBASE. -/
def State.report (s : State) (part : Option Nat) (nonce : BitVec 256) : List Byte :=
  let k : PartCfg := (part.map fun p => (s.part p).cfg).getD {}
  let keys := (List.range 16).flatMap fun i => natLe (SMap.get 0 k.keys i).toNat 32
  natLe nonce.toNat 32 ++ digest64 Config.firmwareDigest ++ digest64 (Config.fuseDigest s.masks)
    ++ natLe s.hf.pkg.toNat 2 ++ natLe (part.getD 0xFFFF) 2 ++ natLe k.require.toNat 4 ++ digest64 (Config.sha512 keys)
    ++ natLe s.tbase.toNat 8 ++ List.replicate 80 0

/-- ATTESTATION_REQUEST (R360): the report and its signature. -/
def execAttestationRequest (part : Option Nat) (nonce : BitVec 256) (s : State) : Out :=
  let known := match part with
    | none => true
    | some p => (s.part p).loaded
  let go : Out :=
    if !s.hf.booted || !known then .next s
    else
      let r := s.report part nonce
      let s := { s with hf := { s.hf with reports := s.hf.reports ++ [r ++ digest64 (Config.identitySign (Config.sha512 r))] } }
      .next (s.answer 6 0)
  match part with
  | none => s.pfOnly 6 go
  | some p => s.ownCmd p 6 go

/-- POWER_LIMIT_SET (R361): of PF 0; at most 2,600 W. -/
def execPowerLimitSet (watts : Nat) (s : State) : Out :=
  s.pfOnly 7 <|
    if !s.hf.booted || 2600 < watts then .next (s.answerPf 7 2)
    else .next (({ s with hf := { s.hf with watts := watts } }).answerPf 7 0)

/-! ### The aperture (R344, R345) -/

/-- Bytes written at HBM by the host: the lines they touch leave the four die caches first. -/
def State.hostStore (s : State) (pa : Nat) (bs : List Byte) : State :=
  let s := (linesOf pa bs.length).foldl (fun s ln => (List.range 4).foldl (fun s d => s.dieDrop d ln) s) s
  let s := s.setHbm (memStore s.mem.hbm pa bs)
  { s with mem := { s.mem with poison := poisonAfter s.mem.poison pa bs.length } }

def State.aperturePut (s : State) : List (Option Nat × Nat) → List Byte → State
  | [], _ => s
  | (pa, n) :: ps, bs =>
    let s := match pa with
      | some a => s.hostStore a (bs.take n)
      | none => s
    s.aperturePut ps (bs.drop n)

/-- APERTURE_WRITE (R345). -/
def execApertureWrite (part off : Nat) (data : List Byte) (s : State) : Out :=
  if !(s.part part).loaded then .next s else .next (s.aperturePut (s.aperture part off data.length) data)

/-- APERTURE_READ (R345). -/
def execApertureRead (part off len : Nat) (s : State) : Out :=
  if !(s.part part).loaded then .next s
  else .next { s with hf := { s.hf with reads := s.hf.reads ++ [s.apertureGet (s.aperture part off len)] } }

/-- ADIT_EGBASE_WRITE (R346, R348): the egress restarts at the new base, 128-byte aligned. -/
def execAditEgbaseWrite (part adit : Nat) (base : BitVec 64) (s : State) : Out :=
  if !(s.part part).loaded || 64 ≤ adit then .next s
  else .next (s.modAdit part adit fun a => { a with egbase := base &&& ~~~127, egcount := 0 })

/-! ### The lode service and the link (R352-R356) -/

/-- LODE_COPY_SERVICE (R352): whole frames of the partition; the answer follows the last. A frame of the lode tier that lies in no
decoded range, or that cannot be read, refuses the whole service (log 101). -/
def execLodeCopyService (part lode frame n : Nat) (toHbm : Bool) (s : State) : Out :=
  let q := s.part part
  let owned := (List.range n).all fun k => q.ownsFrame (frame + k)
  let at_ := fun (k : Nat) => BitVec.ofNat 64 (lode + k * 65536)
  let good := (List.range n).all fun k => lode + k * 65536 < 2 ^ 64 && if toHbm then s.lodeReads (at_ k) else s.lodeOk (at_ k)
  s.ownCmd part 8 <|
    if !q.loaded then .next s
    else if !owned then .next (s.answer 8 1)
    else if !good then .next (s.answer 8 2)
    else
      .next ((if toHbm then s.lodeIn lode (frame * 65536) (n * 65536) else s.lodeOut lode (frame * 65536) (n * 65536)).answer 8 0)

/-! ### The home side of the link (R269, R398) -/

/-- Whether a memory port that holds a frame is held, the partition that owns the frame being halted for a swap (R333, R398). -/
def State.homeHeld (s : State) (f : Nat) : Bool := s.parts.any fun e => e.2.loaded && e.2.ownsFrame f && s.swapping e.1

/-- The pieces of a list from a number of bytes on. -/
def dropPieces : List (Nat × Nat) → Nat → List (Nat × Nat)
  | [], _ => []
  | (o, n) :: ps, k => if n ≤ k then dropPieces ps (k - n) else (o + k, n - k) :: ps
/-- Where bytes of a row lie in its tensor, this package's layout being the owner's; none past the row or the tensor. -/
def State.rowAt (s : State) (p tensor row off n : Nat) : Option (List (Nat × Nat)) :=
  let d := s.desc p ((s.part p).cfg.bays.headD 0) tensor
  let ps := d.rowPieces row
  if !d.v || d.extent d.sdim ≤ row || (ps.foldl (fun m e => m + e.2) 0) < off + n then none
  else some (cutPieces (dropPieces ps off) n)

/-- The running assay after a payload block, and the acknowledgement that carries it (R398). -/
def State.homeAck (s : State) (pkg : Nat) (b : RemoteBlock) (data : List Byte) : State :=
  let key := (pkg, b.chain)
  let before := match b.resume with
    | some v => v
    | none => if b.first then assayInit b.assay
      else ((s.mem.homeRuns.find? fun e => e.1 == key).map (·.2)).getD (assayInit b.assay)
  let v := assayBytes b.assay before data (data.length / 4)
  let rest := s.mem.homeRuns.filter fun e => e.1 != key
  let ack := match b.last with
    | none => (pkg, b.chain, v, none)
    | some e => (pkg, b.chain, assayFinal b.assay v, some (assayFinal b.assay v == e))
  { s with mem := { s.mem with
    homeRuns := if b.last.isSome then rest else rest ++ [(key, v)], acks := s.mem.acks ++ [ack] } }

/-- REMOTE_ACCESS_HOME (R269, R398): an access of another package to a frame, or to a row that this package owns and translates.
A frame that is not exported to the package is refused. `data` are the bytes that a write stores or an atomic leaves. -/
def execRemoteAccessHome (srcPkg : Nat) (place : RemotePlace) (off : Nat) (kind : RemoteKind) (data : List Byte) (s : State) : Out :=
  let ack := fun (s : State) => match kind with
    | .acc _ => s
    | .block b => s.homeAck srcPkg b data
  let reads := match kind with
    | .acc .read | .acc .gather => true
    | .acc .write | .acc .atomic | .block _ => false
  match place with
  | .frame f =>
    if !s.mem.exported.contains (f, srcPkg) || off + data.length > 65536 || s.homeHeld f then .next s
    else if reads then .next (s.settle (f * 65536 + off) data.length)
    else .next (ack (s.settleStore (f * 65536 + off) data))
  | .row p tensor row =>
    if !(s.part p).loaded || s.swapping p then .next s
    else match s.rowAt p tensor row off data.length with
      | none => .next s
      | some ps =>
        if reads then .next (((s.rowRead p tensor ps).map (·.2)).getD s)
        else .next (((s.rowWrite p tensor ps data).map ack).getD s)

/-- The CRC-32C of a flit with LCRC taken as zero (R353). -/
def flitCrc (f : Flit) : BitVec 32 :=
  let head : BitVec 64 := 0#32 ++ f.seq ++ f.type ++ f.src ++ f.dst
  assayFinal 2 (assayBytes 2 (assayInit 2) (natLe head.toNat 8 ++ natLe f.body.toNat 120) 32)

/-- LINK_FLIT_RECEIVE (R353, R354): a flit whose LCRC fails, or that comes out of order, is asked for again; a flit that
was asked for counts when it is delivered. A failing flit that is not the one expected was on its way before it was asked for
again, and is no failed retransmission (log 102); sixteen of these in a row take the port down. -/
def execLinkFlitReceive (port : Nat) (flit : Flit) (s : State) : Out :=
  let l := s.link port
  let ask := fun (q : BitVec 8) => if l.again.contains q then l.again else l.again ++ [q]
  if 18 ≤ port || !l.up then .next s
  else if flit.seq == l.expect then
    if flitCrc flit != flit.lcrc then
      let n := if l.again.contains l.expect then l.fails + 1 else l.fails
      let t := s.setLink port { l with again := ask l.expect, fails := n, up := decide (n < 16) }
      .next (if n < 16 then t else t.reportLost s.reaches)
    else
      let s := if l.again.contains flit.seq then s.bumpPkg (0x02A * 256 + port) 1 else s
      .next (s.setLink port { l with
        expect := l.expect + 1, fails := 0, again := l.again.filter (· != flit.seq)
        body := if 5 ≤ flit.type.toNat then l.body else l.body ++ [flit] })
  else if !l.again.isEmpty then .next (s.setLink port { l with again := ask flit.seq })
  else if flitCrc flit != flit.lcrc then .next (s.setLink port { l with again := [l.expect] })
  else .next s

/-- LINK_RETRAIN (R354); a port whose switch reports a duplicate id stays down (R356). -/
def execLinkRetrain (port : Nat) (s : State) : Out :=
  if 18 ≤ port || !s.hf.trained || (s.link port).up || s.mem.domain.contains s.hf.pkg.toNat then .next s
  else .next (s.setLink port { up := true, body := (s.link port).body }).payOwed

/-- A report to PF 0 of each of some ports that stay down (R357); `base` tells link ports from lode ports (log 37). -/
def State.reportDown (s : State) (base : Nat) (ports : List Nat) : State :=
  { s with hf := { s.hf with mail := s.hf.mail ++ ports.map fun k => BitVec.ofNat 64 (base + k) } }

/-- PACKAGE_ID_WRITE (R356, R357): of PF 0, once after a start-up; the link ports then train. A port whose switch reports a
duplicate id stays down. -/
def execPackageIdWrite (id : BitVec 10) (s : State) : Out :=
  s.pfOnly 15 <|
    if !s.hf.booted || s.hf.pkgSet then .next s
    else
      let up := fun (k : Nat) => s.hf.linkFit.getLsbD k && !s.mem.domain.contains id.toNat
      let s := { s with hf := { s.hf with
        pkg := id, pkgSet := true, trained := true
        links := (List.range 18).map fun k => (k, { up := up k }) } }
      .next ((s.reportDown 0x20000 ((List.range 18).filter fun k => !up k)).reportLost fun _ => true).payOwed

/-! ### Start-up, firmware and clock (R357, R361) -/

/-- The bays of a die. -/
def dieBays (d : Nat) : List Nat := (List.range 144).filter fun b => dieOfBay b == d

/-- STARTUP (R357): recovery on a failed firmware check or a malformed fuse record; a failed stack leaves its die's bays
unplaceable. -/
def execStartup (facts : BootFacts) (s : State) : Out :=
  if s.hf.booted || s.hf.boot != 0 then .next s
  else if !facts.fwOk then .next { s with hf := { s.hf with boot := 2 } }
  else if !facts.fuseOk then .next { s with hf := { s.hf with boot := 3 } }
  else
    let bad := (facts.failedStacks.flatMap fun k => dieBays (k / 2)).eraseDups
    let s := { s with
      tbase := 0, caisson := [], cnt := [], failed := [], masks := facts.masks
      hf := { s.hf with
        boot := if facts.failedStacks.isEmpty then 1 else 4, bootUnits := facts.failedStacks, booted := true
        pkgSet := false, trained := false, lodeUp := facts.lodeUp, lodeRanges := facts.lodeRanges, linkFit := facts.linkUp, links := [], badBays := bad }
      mem := { s.mem with refresh := refreshAt 0 } }
    .next (s.reportDown 0x30000 ((List.range 4).filter fun k => !facts.lodeUp.getLsbD k))

/-- FIRMWARE_UPDATE_COMMAND (R357): of PF 0, offered in recovery only; a good image lets the device start again. -/
def execFirmwareUpdateCommand (good : Bool) (s : State) : Out :=
  s.pfOnly 9 <|
    if s.hf.booted || (s.hf.boot != 2 && s.hf.boot != 3) then .next (s.answerPf 9 2)
    else if good then .next (({ s with hf := { s.hf with boot := 0 } }).answerPf 9 0)
    else .next (s.answerPf 9 2)

/-- Whether a cause asks for a change to a point (R361): a lower one where heat or power passes its limit, a higher one where
power has fallen back to PF 0's limit. -/
def Headframe.asks (h : Headframe) (point : Nat) : DvfsCause → Bool
  | .heat _ => h.point < point
  | .power w => h.watts < w && h.point < point
  | .fall w => w ≤ h.watts && point < h.point

/-- DVFS_TRIGGER (R361): a change to another of the three points begins; no cell issues until it ends. -/
def execDvfsTrigger (point : Nat) (cause : DvfsCause) (s : State) : Out :=
  if !s.hf.booted || s.hf.toPoint.isSome || 3 ≤ point || !s.hf.asks point cause then .next s
  else .next { s with hf := { s.hf with toPoint := some point, cause := some cause } }

/-- DVFS_CHANGE_COMPLETE (R361). -/
def execDvfsChangeComplete (s : State) : Out :=
  match s.hf.toPoint with
  | none => .next s
  | some k => .next { s with hf := { s.hf with point := k, toPoint := none } }

end Sys2Proof.Machine
end

