-- ==== Sys2Proof/Machine/SysReg.lean ====
section
/-! DEFINITION. SRR and SRW and the system registers (R88-R90). -/

namespace Sys2Proof.Machine

/-- CELLXY (R89). -/
def cellXy (c : Nat) : Word :=
  BitVec.ofNat 64 (cellX c + cellY c * 2 ^ 8 + dieOf c * 2 ^ 16 + kindOf c * 2 ^ 18)
/-- BAYXY (R89); PART is the partition that holds the bay, 0 while none does (log 3). -/
def State.bayXy (s : State) (c : Nat) : Word :=
  BitVec.ofNat 64 (cellX c / 8 + cellY c / 8 * 2 ^ 4 + bayOf c * 2 ^ 8 + (s.partOf c).getD 0 * 2 ^ 16)

/-- MODE (R89). -/
def Seq.modeReg (q : Seq) : Word := (BitVec.ofBool q.tr.ss ++ BitVec.ofBool q.tr.be : BitVec 2).zeroExtend 64

/-- The value of a system register of the focused cell, by number (R88); none for an unassigned number. -/
def State.sysRead (s : State) (n : Nat) : Option Word :=
  let q := s.seq
  let sl := s.runSlot
  if n == 0x00 then some (cellXy s.focus.cell)
  else if n == 0x01 then some (s.bayXy s.focus.cell)
  else if n == 0x02 then some (sl.taskxy.zeroExtend 64)
  else if n == 0x03 then some sl.spanid
  else if n == 0x04 then some (q.actor.zeroExtend 64)
  else if n == 0x05 then some sl.fires
  else if n == 0x08 then some (q.tr.vec &&& 0x3FFD)
  else if n == 0x09 then some (q.tr.cause.zeroExtend 64)
  else if n == 0x0A then some (byteAddr q.tr.pc)
  else if n == 0x0B then some q.tr.value
  else if n == 0x0C then some q.tr.ls
  else if n == 0x0D then some (statusOf q)
  else if n == 0x0E then some q.modeReg
  else if n == 0x0F then some s.tbase
  else if n == 0x10 then some ((BitVec.ofBool (s.part ((s.partOf s.focus.cell).getD 0)).fq.ring).zeroExtend 64)
  else if n == 0x11 then some q.lk
  else if n == 0x12 then some q.loopst
  else if 0x20 ≤ n && n < 0x30 then some (SMap.get 0 sl.a (n - 0x20))
  else none

/-- SRR (R90). -/
def execSrr (d : BitVec 5) (sel : BitVec 15) (s : State) : Out :=
  match s.sysRead sel.toNat with
  | none => s.illop (.srr d sel)
  | some v => s.doneG d v

/-- SRW (R90): the P fields are written; TRAPPC, TRAPV and TRAPLS only in trap mode; FMODE traps PRIV. -/
def execSrw (a : BitVec 5) (sel : BitVec 15) (s : State) : Out :=
  let q := s.seq
  let v := q.getG a
  let n := sel.toNat
  if (s.sysRead n).isNone then s.illop (.srw a sel)
  else if n == 0x10 then s.trapSelf 0x02 (sel.zeroExtend 64) (wordOf (.srw a sel))
  else if n == 0x08 then s.done { q with tr := { q.tr with vec := v &&& 0x3FFD } }
  else if n == 0x0A then s.done (if q.tr.tm then { q with tr := { q.tr with pc := v.extractLsb' 2 12 } } else q)
  else if n == 0x0B then s.done (if q.tr.tm then { q with tr := { q.tr with value := v } } else q)
  else if n == 0x0C then s.done (if q.tr.tm then { q with tr := { q.tr with ls := lsMask v } } else q)
  else if n == 0x0E then s.done { q with tr := { q.tr with be := v.getLsbD 0 } }
  else if n == 0x11 then s.done { q with lk := v }
  else if 0x20 ≤ n && n < 0x30 then
    (s.modRunSlot fun sl => { sl with a := SMap.set sl.a (n - 0x20) v }).done q
  else s.done q

end Sys2Proof.Machine
end

