-- ==== Sys2Proof/Machine/Dispatch.lean ====
section
/-! DEFINITION. The dispatch: one arm for each constructor of Instr. -/

namespace Sys2Proof.Machine

def exec (i : Instr) (s : State) : Host.Outcome State Fault Refusal :=
  match i with
  | .ill r => Sys2Proof.Machine.execIll r s
  | .nop => Sys2Proof.Machine.execNop s
  | .addReg d a b => Sys2Proof.Machine.execAddReg d a b s
  | .addImm d a imm => Sys2Proof.Machine.execAddImm d a imm s
  | .sub d a b => Sys2Proof.Machine.execSub d a b s
  | .mulLo d a b => Sys2Proof.Machine.execMulLo d a b s
  | .mulHs d a b => Sys2Proof.Machine.execMulHs d a b s
  | .mulHu d a b => Sys2Proof.Machine.execMulHu d a b s
  | .divS d a b => Sys2Proof.Machine.execDivS d a b s
  | .divU d a b => Sys2Proof.Machine.execDivU d a b s
  | .remS d a b => Sys2Proof.Machine.execRemS d a b s
  | .remU d a b => Sys2Proof.Machine.execRemU d a b s
  | .andReg d a b => Sys2Proof.Machine.execAndReg d a b s
  | .andImm d a imm => Sys2Proof.Machine.execAndImm d a imm s
  | .orReg d a b => Sys2Proof.Machine.execOrReg d a b s
  | .orImm d a imm => Sys2Proof.Machine.execOrImm d a imm s
  | .xorReg d a b => Sys2Proof.Machine.execXorReg d a b s
  | .xorImm d a imm => Sys2Proof.Machine.execXorImm d a imm s
  | .shlR d a b => Sys2Proof.Machine.execShlR d a b s
  | .shlI d a n => Sys2Proof.Machine.execShlI d a n s
  | .shrLr d a b => Sys2Proof.Machine.execShrLr d a b s
  | .shrLi d a n => Sys2Proof.Machine.execShrLi d a n s
  | .shrAr d a b => Sys2Proof.Machine.execShrAr d a b s
  | .shrAi d a n => Sys2Proof.Machine.execShrAi d a n s
  | .minS d a b => Sys2Proof.Machine.execMinS d a b s
  | .minU d a b => Sys2Proof.Machine.execMinU d a b s
  | .maxS d a b => Sys2Proof.Machine.execMaxS d a b s
  | .maxU d a b => Sys2Proof.Machine.execMaxU d a b s
  | .cmpEq p a b => Sys2Proof.Machine.execCmpEq p a b s
  | .cmpNe p a b => Sys2Proof.Machine.execCmpNe p a b s
  | .cmpLt p a b => Sys2Proof.Machine.execCmpLt p a b s
  | .cmpLe p a b => Sys2Proof.Machine.execCmpLe p a b s
  | .cmpLtu p a b => Sys2Proof.Machine.execCmpLtu p a b s
  | .cmpLeu p a b => Sys2Proof.Machine.execCmpLeu p a b s
  | .sel d a b n p => Sys2Proof.Machine.execSel d a b n p s
  | .ldi d imm => Sys2Proof.Machine.execLdi d imm s
  | .bitcClz d a => Sys2Proof.Machine.execBitcClz d a s
  | .bitcCtz d a => Sys2Proof.Machine.execBitcCtz d a s
  | .bitcPopc d a => Sys2Proof.Machine.execBitcPopc d a s
  | .extr d a lsb wid => Sys2Proof.Machine.execExtr d a lsb wid s
  | .insr d a lsb wid => Sys2Proof.Machine.execInsr d a lsb wid s
  | .ixa d a b w sh => Sys2Proof.Machine.execIxa d a b w sh s
  | .plogAnd d a b => Sys2Proof.Machine.execPlogAnd d a b s
  | .plogOr d a b => Sys2Proof.Machine.execPlogOr d a b s
  | .plogXor d a b => Sys2Proof.Machine.execPlogXor d a b s
  | .plogAndn d a b => Sys2Proof.Machine.execPlogAndn d a b s
  | .hashsLane d a => Sys2Proof.Machine.execHashsLane d a s
  | .hashsCrc d a b => Sys2Proof.Machine.execHashsCrc d a b s
  | .hashsFold d a => Sys2Proof.Machine.execHashsFold d a s
  | .br p neg off => Sys2Proof.Machine.execBr p neg off s
  | .jmp off => Sys2Proof.Machine.execJmp off s
  | .jal off => Sys2Proof.Machine.execJal off s
  | .jr a => Sys2Proof.Machine.execJr a s
  | .loopH a len => Sys2Proof.Machine.execLoopH a len s
  | .fend => Sys2Proof.Machine.execFend s
  | .ldB d b off => Sys2Proof.Machine.execLdB d b off s
  | .ldBu d b off => Sys2Proof.Machine.execLdBu d b off s
  | .ldH d b off => Sys2Proof.Machine.execLdH d b off s
  | .ldHu d b off => Sys2Proof.Machine.execLdHu d b off s
  | .ldW d b off => Sys2Proof.Machine.execLdW d b off s
  | .ldWu d b off => Sys2Proof.Machine.execLdWu d b off s
  | .ldD d b off => Sys2Proof.Machine.execLdD d b off s
  | .stB v b off => Sys2Proof.Machine.execStB v b off s
  | .stH v b off => Sys2Proof.Machine.execStH v b off s
  | .stW v b off => Sys2Proof.Machine.execStW v b off s
  | .stD v b off => Sys2Proof.Machine.execStD v b off s
  | .aaddW d a b => Sys2Proof.Machine.execAaddW d a b s
  | .aaddD d a b => Sys2Proof.Machine.execAaddD d a b s
  | .aminS d a b => Sys2Proof.Machine.execAminS d a b s
  | .aminU d a b => Sys2Proof.Machine.execAminU d a b s
  | .amaxS d a b => Sys2Proof.Machine.execAmaxS d a b s
  | .amaxU d a b => Sys2Proof.Machine.execAmaxU d a b s
  | .alogAnd d a b => Sys2Proof.Machine.execAlogAnd d a b s
  | .alogOr d a b => Sys2Proof.Machine.execAlogOr d a b s
  | .alogXor d a b => Sys2Proof.Machine.execAlogXor d a b s
  | .axch d a b => Sys2Proof.Machine.execAxch d a b s
  | .acas d a b => Sys2Proof.Machine.execAcas d a b s
  | .afaddF32 d a b => Sys2Proof.Machine.execAfaddF32 d a b s
  | .afaddBf16x2 d a b => Sys2Proof.Machine.execAfaddBf16x2 d a b s
  | .take d a pay part port => Sys2Proof.Machine.execTake d a pay part port s
  | .peek d a depth pay part port => Sys2Proof.Machine.execPeek d a depth pay part port s
  | .emit d a n => Sys2Proof.Machine.execEmit d a n s
  | .emits a b c n => Sys2Proof.Machine.execEmits a b c n s
  | .copy a b c ws remote queue retry last chain assay => Sys2Proof.Machine.execCopy a b c ws remote queue retry last chain assay s
  | .fillContiguous a b tile => Sys2Proof.Machine.execFillContiguous a b tile s
  | .fillGather a b c tile => Sys2Proof.Machine.execFillGather a b c tile s
  | .wbind a b c row => Sys2Proof.Machine.execWbind a b c row s
  | .wfree a => Sys2Proof.Machine.execWfree a s
  | .marm v b off => Sys2Proof.Machine.execMarm v b off s
  | .mwait d => Sys2Proof.Machine.execMwait d s
  | .fenceRel scope => Sys2Proof.Machine.execFenceRel scope s
  | .fenceAcq scope => Sys2Proof.Machine.execFenceAcq scope s
  | .fenceFull scope => Sys2Proof.Machine.execFenceFull scope s
  | .xfence dst frm scope => Sys2Proof.Machine.execXfence dst frm scope s
  | .bar a b scope => Sys2Proof.Machine.execBar a b scope s
  | .tileClaim d a b => Sys2Proof.Machine.execTileClaim d a b s
  | .tileReady d a b => Sys2Proof.Machine.execTileReady d a b s
  | .tileDrain d a => Sys2Proof.Machine.execTileDrain d a s
  | .tileFree d a => Sys2Proof.Machine.execTileFree d a s
  | .tileQuery d a => Sys2Proof.Machine.execTileQuery d a s
  | .launch d a => Sys2Proof.Machine.execLaunch d a s
  | .rlaunch d a b => Sys2Proof.Machine.execRlaunch d a b s
  | .regionAdd d a => Sys2Proof.Machine.execRegionAdd d a s
  | .regionShrink a b => Sys2Proof.Machine.execRegionShrink a b s
  | .regionQuery d a w => Sys2Proof.Machine.execRegionQuery d a w s
  | .xpref d a => Sys2Proof.Machine.execXpref d a s
  | .xpinPin d a => Sys2Proof.Machine.execXpinPin d a s
  | .xpinUnpin d a => Sys2Proof.Machine.execXpinUnpin d a s
  | .xevict d a => Sys2Proof.Machine.execXevict d a s
  | .xlook d a w => Sys2Proof.Machine.execXlook d a w s
  | .cntr d a n => Sys2Proof.Machine.execCntr d a n s
  | .cntw d a n => Sys2Proof.Machine.execCntw d a n s
  | .stab a b => Sys2Proof.Machine.execStab a b s
  | .srr d sel => Sys2Proof.Machine.execSrr d sel s
  | .srw a sel => Sys2Proof.Machine.execSrw a sel s
  | .trapI imm => Sys2Proof.Machine.execTrapI imm s
  | .tret => Sys2Proof.Machine.execTret s
  | .brk imm => Sys2Proof.Machine.execBrk imm s
  | .vadd ty rm sat sh da db => Sys2Proof.Machine.execVadd ty rm sat sh da db s
  | .vsub ty rm sat sh da db => Sys2Proof.Machine.execVsub ty rm sat sh da db s
  | .vmul ty rm sat sh da db => Sys2Proof.Machine.execVmul ty rm sat sh da db s
  | .vfma ty rm sat sh da db => Sys2Proof.Machine.execVfma ty rm sat sh da db s
  | .vmin ty rm sh da db => Sys2Proof.Machine.execVmin ty rm sh da db s
  | .vmax ty rm sh da db => Sys2Proof.Machine.execVmax ty rm sh da db s
  | .vnegNeg ty rm sat sh da db => Sys2Proof.Machine.execVnegNeg ty rm sat sh da db s
  | .vnegAbs ty rm sat sh da db => Sys2Proof.Machine.execVnegAbs ty rm sat sh da db s
  | .vand ty sh da db => Sys2Proof.Machine.execVand ty sh da db s
  | .vor ty sh da db => Sys2Proof.Machine.execVor ty sh da db s
  | .vxor ty sh da db => Sys2Proof.Machine.execVxor ty sh da db s
  | .vshl ty sh da db => Sys2Proof.Machine.execVshl ty sh da db s
  | .vshrL ty sh da db => Sys2Proof.Machine.execVshrL ty sh da db s
  | .vshrA ty sh da db => Sys2Proof.Machine.execVshrA ty sh da db s
  | .vcmpEq ty sh da db => Sys2Proof.Machine.execVcmpEq ty sh da db s
  | .vcmpNe ty sh da db => Sys2Proof.Machine.execVcmpNe ty sh da db s
  | .vcmpLt ty sh da db => Sys2Proof.Machine.execVcmpLt ty sh da db s
  | .vcmpLe ty sh da db => Sys2Proof.Machine.execVcmpLe ty sh da db s
  | .vsel ty sh da db => Sys2Proof.Machine.execVsel ty sh da db s
  | .vcvt ty rm sat sh da db => Sys2Proof.Machine.execVcvt ty rm sat sh da db s
  | .vrcp ty rm sat sh da db => Sys2Proof.Machine.execVrcp ty rm sat sh da db s
  | .vrsq ty rm sat sh da db => Sys2Proof.Machine.execVrsq ty rm sat sh da db s
  | .vexp2 ty rm sat sh da db => Sys2Proof.Machine.execVexp2 ty rm sat sh da db s
  | .vlog2 ty rm sat sh da db => Sys2Proof.Machine.execVlog2 ty rm sat sh da db s
  | .vsumAdd ty rm sat sh da db => Sys2Proof.Machine.execVsumAdd ty rm sat sh da db s
  | .vsumMin ty rm sh da db => Sys2Proof.Machine.execVsumMin ty rm sh da db s
  | .vsumMax ty rm sh da db => Sys2Proof.Machine.execVsumMax ty rm sh da db s
  | .vshuf ty sh da db => Sys2Proof.Machine.execVshuf ty sh da db s
  | .vconst ty sh ki da db => Sys2Proof.Machine.execVconst ty sh ki da db s
  | .vmov ty sh da db => Sys2Proof.Machine.execVmov ty sh da db s
  | .vbcmp sh da db => Sys2Proof.Machine.execVbcmp sh da db s
  | .vbeqm sh da db => Sys2Proof.Machine.execVbeqm sh da db s
  | .vhashLane sh da db => Sys2Proof.Machine.execVhashLane sh da db s
  | .vhashCrc sh da db => Sys2Proof.Machine.execVhashCrc sh da db s
  | .vhashFold sh da db => Sys2Proof.Machine.execVhashFold sh da db s
  | .eld ty sh gd da db => Sys2Proof.Machine.execEld ty sh gd da db s
  | .est ty sh da db => Sys2Proof.Machine.execEst ty sh da db s
  | .hprobe da db => Sys2Proof.Machine.execHprobe da db s
  | .hins da db => Sys2Proof.Machine.execHins da db s
  | .ecfg da => Sys2Proof.Machine.execEcfg da s
  | .scanD tv vf seek => Sys2Proof.Machine.execScanD tv vf seek s
  | .scanC ta tb tv vf seek => Sys2Proof.Machine.execScanC ta tb tv vf seek s
  | .scanB ta tb tv vf seek => Sys2Proof.Machine.execScanB ta tb tv vf seek s
  | .isect osel pay ska skb thr => Sys2Proof.Machine.execIsect osel pay ska skb thr s
  | .union osel pay => Sys2Proof.Machine.execUnion osel pay s
  | .rept newat span => Sys2Proof.Machine.execRept newat span s
  | .reduceSum f32 sat vec vsrc grain zeros => Sys2Proof.Machine.execReduceSum f32 sat vec vsrc grain zeros s
  | .reduceMin f32 vec vsrc grain zeros => Sys2Proof.Machine.execReduceMin f32 vec vsrc grain zeros s
  | .reduceMax f32 vec vsrc grain zeros => Sys2Proof.Machine.execReduceMax f32 vec vsrc grain zeros s
  | .reduceOr vec vsrc grain zeros => Sys2Proof.Machine.execReduceOr vec vsrc grain zeros s
  | .reduceTopk f32 vsrc topk => Sys2Proof.Machine.execReduceTopk f32 vsrc topk s
  | .reduceWsum f32 sat vec vsrc wsrc grain zeros => Sys2Proof.Machine.execReduceWsum f32 sat vec vsrc wsrc grain zeros s
  | .lwriteD tv vw => Sys2Proof.Machine.execLwriteD tv vw s
  | .lwriteC ta tb tv vw => Sys2Proof.Machine.execLwriteC ta tb tv vw s
  | .lwriteB ta tb tv vw => Sys2Proof.Machine.execLwriteB ta tb tv vw s
  | .mload src dir tile wfmt mxm => Sys2Proof.Machine.execMload src dir tile wfmt mxm s
  | .mswap trig => Sys2Proof.Machine.execMswap trig s
  | .mstream afmt mxm => Sys2Proof.Machine.execMstream afmt mxm s
  | .idle => Sys2Proof.Machine.execIdle s
  | .route src mask vc => Sys2Proof.Machine.execRoute src mask vc s
  | .routeB src mask => Sys2Proof.Machine.execRouteB src mask s
  | .steer dat ctl outT outF => Sys2Proof.Machine.execSteer dat ctl outT outF s
  | .merge ctl inT inF out => Sys2Proof.Machine.execMerge ctl inT inF out s
  | .carry init lp ctl out => Sys2Proof.Machine.execCarry init lp ctl out s
  | .fork inp mask => Sys2Proof.Machine.execFork inp mask s
  | .abut inp out scope cls => Sys2Proof.Machine.execAbut inp out scope cls s
  | .linkTokenTransfer cell port back => Sys2Proof.Machine.execLinkTokenTransfer cell port back s
  | .creditReturn cell port vc => Sys2Proof.Machine.execCreditReturn cell port vc s
  | .switchStoreSoftError cell pos word => Sys2Proof.Machine.execSwitchStoreSoftError cell pos word s
  | .endpointDelivery cell src => Sys2Proof.Machine.execEndpointDelivery cell src s
  | .channelQueueArrival cell q => Sys2Proof.Machine.execChannelQueueArrival cell q s
  | .channelQueueOffer cell q => Sys2Proof.Machine.execChannelQueueOffer cell q s
  | .outputStageDelivery cell e => Sys2Proof.Machine.execOutputStageDelivery cell e s
  | .elementControlFiring cell e => Sys2Proof.Machine.execElementControlFiring cell e s
  | .cfgFiring cell e => Sys2Proof.Machine.execCfgFiring cell e s
  | .actorFiringStart cell => Sys2Proof.Machine.execActorFiringStart cell s
  | .firingBudgetExpiry cell => Sys2Proof.Machine.execFiringBudgetExpiry cell s
  | .seqAccessResponse cell corrected => Sys2Proof.Machine.execSeqAccessResponse cell corrected s
  | .debugHalt cell => Sys2Proof.Machine.execDebugHalt cell s
  | .debugPathWrite cell ss code => Sys2Proof.Machine.execDebugPathWrite cell ss code s
  | .scannerSeekTaken cell sc => Sys2Proof.Machine.execScannerSeekTaken cell sc s
  | .planeFull cell => Sys2Proof.Machine.execPlaneFull cell s
  | .nodeIntake cell node => Sys2Proof.Machine.execNodeIntake cell node s
  | .eorCounted cell => Sys2Proof.Machine.execEorCounted cell s
  | .matrixEot cell => Sys2Proof.Machine.execMatrixEot cell s
  | .refreshWindowOpen grp => Sys2Proof.Machine.execRefreshWindowOpen grp s
  | .refreshWindowClose grp => Sys2Proof.Machine.execRefreshWindowClose grp s
  | .hbmUncorrectableError pa corrected => Sys2Proof.Machine.execHbmUncorrectableError pa corrected s
  | .copyCommandStart cell => Sys2Proof.Machine.execCopyCommandStart cell s
  | .copyPayloadBlock cell => Sys2Proof.Machine.execCopyPayloadBlock cell s
  | .weightStoreCopyStart cell => Sys2Proof.Machine.execWeightStoreCopyStart cell s
  | .chainPassEnd cell => Sys2Proof.Machine.execChainPassEnd cell s
  | .remoteBlockAck cell => Sys2Proof.Machine.execRemoteBlockAck cell s
  | .fillComplete cell => Sys2Proof.Machine.execFillComplete cell s
  | .gatherFillRow cell => Sys2Proof.Machine.execGatherFillRow cell s
  | .monitorWake cell => Sys2Proof.Machine.execMonitorWake cell s
  | .xfenceComplete cell => Sys2Proof.Machine.execXfenceComplete cell s
  | .taskRelease part lid x y => Sys2Proof.Machine.execTaskRelease part lid x y s
  | .taskFinish part lid x y => Sys2Proof.Machine.execTaskFinish part lid x y s
  | .taskDrainAck part lid x y cls => Sys2Proof.Machine.execTaskDrainAck part lid x y cls s
  | .flushUnit part lid x y ri => Sys2Proof.Machine.execFlushUnit part lid x y ri s
  | .taskRetire part lid x y => Sys2Proof.Machine.execTaskRetire part lid x y s
  | .launchCompletion part lid => Sys2Proof.Machine.execLaunchCompletion part lid s
  | .taskAbort part lid x y va => Sys2Proof.Machine.execTaskAbort part lid x y va s
  | .aditTokenWrite part adit data => Sys2Proof.Machine.execAditTokenWrite part adit data s
  | .aditLaunchEnqueue part adit => Sys2Proof.Machine.execAditLaunchEnqueue part adit s
  | .hostSpanEntry part lid => Sys2Proof.Machine.execHostSpanEntry part lid s
  | .hostStreamDone part lid => Sys2Proof.Machine.execHostStreamDone part lid s
  | .aditIngressEntry part lid binding => Sys2Proof.Machine.execAditIngressEntry part lid binding s
  | .aditEgressWrite part lid binding => Sys2Proof.Machine.execAditEgressWrite part lid binding s
  | .imageCheck part id => Sys2Proof.Machine.execImageCheck part id s
  | .admissionPass part => Sys2Proof.Machine.execAdmissionPass part s
  | .placementLoadComplete part lid => Sys2Proof.Machine.execPlacementLoadComplete part lid s
  | .quantumExpiry part lid => Sys2Proof.Machine.execQuantumExpiry part lid s
  | .yieldGraph part lid => Sys2Proof.Machine.execYieldGraph part lid s
  | .compactionMove part lid => Sys2Proof.Machine.execCompactionMove part lid s
  | .msTransition cell => Sys2Proof.Machine.execMsTransition cell s
  | .msActionComplete cell => Sys2Proof.Machine.execMsActionComplete cell s
  | .tileDrainComplete cell tile => Sys2Proof.Machine.execTileDrainComplete cell tile s
  | .translationWalkComplete walker => Sys2Proof.Machine.execTranslationWalkComplete walker s
  | .ringRetry cell port => Sys2Proof.Machine.execRingRetry cell port s
  | .portResume cell port => Sys2Proof.Machine.execPortResume cell port s
  | .invalidationRequest part tensor first count => Sys2Proof.Machine.execInvalidationRequest part tensor first count s
  | .invalidationComplete part => Sys2Proof.Machine.execInvalidationComplete part s
  | .remoteAccessHome srcPkg place off kind data => Sys2Proof.Machine.execRemoteAccessHome srcPkg place off kind data s
  | .expertFetchStart part => Sys2Proof.Machine.execExpertFetchStart part s
  | .expertFetchComplete part xid => Sys2Proof.Machine.execExpertFetchComplete part xid s
  | .expertFetchError part xid => Sys2Proof.Machine.execExpertFetchError part xid s
  | .lodeReadTimeout part xid => Sys2Proof.Machine.execLodeReadTimeout part xid s
  | .expertRefetchTimer part xid => Sys2Proof.Machine.execExpertRefetchTimer part xid s
  | .expertEvictionDone part xid => Sys2Proof.Machine.execExpertEvictionDone part xid s
  | .embeddingStepComplete part idx => Sys2Proof.Machine.execEmbeddingStepComplete part idx s
  | .watchdogExpiry part lid => Sys2Proof.Machine.execWatchdogExpiry part lid s
  | .barWake cell => Sys2Proof.Machine.execBarWake cell s
  | .haltSwapCommand p q => Sys2Proof.Machine.execHaltSwapCommand p q s
  | .haltSwapDrainComplete => Sys2Proof.Machine.execHaltSwapDrainComplete s
  | .haltSwapRestore eccOk => Sys2Proof.Machine.execHaltSwapRestore eccOk s
  | .graphFreeze part lid => Sys2Proof.Machine.execGraphFreeze part lid s
  | .dumpRequest part lid => Sys2Proof.Machine.execDumpRequest part lid s
  | .graphRelease part lid => Sys2Proof.Machine.execGraphRelease part lid s
  | .partitionFence part => Sys2Proof.Machine.execPartitionFence part s
  | .cellFailure cell => Sys2Proof.Machine.execCellFailure cell s
  | .partitionLoad part cfg => Sys2Proof.Machine.execPartitionLoad part cfg s
  | .partitionUnload part => Sys2Proof.Machine.execPartitionUnload part s
  | .functionLevelReset part => Sys2Proof.Machine.execFunctionLevelReset part s
  | .pf0Reset => Sys2Proof.Machine.execPf0Reset s
  | .bypassMaxWrite part v => Sys2Proof.Machine.execBypassMaxWrite part v s
  | .registerWrite part reg v => Sys2Proof.Machine.execRegisterWrite part reg v s
  | .imageAdd part off len img => Sys2Proof.Machine.execImageAdd part off len img s
  | .imageRemove part id => Sys2Proof.Machine.execImageRemove part id s
  | .attestationRequest part nonce => Sys2Proof.Machine.execAttestationRequest part nonce s
  | .powerLimitSet watts => Sys2Proof.Machine.execPowerLimitSet watts s
  | .apertureWrite part off data => Sys2Proof.Machine.execApertureWrite part off data s
  | .apertureRead part off len => Sys2Proof.Machine.execApertureRead part off len s
  | .aditEgbaseWrite part adit base => Sys2Proof.Machine.execAditEgbaseWrite part adit base s
  | .faultRecordRead part => Sys2Proof.Machine.execFaultRecordRead part s
  | .faultRingHeadAdvance part n => Sys2Proof.Machine.execFaultRingHeadAdvance part n s
  | .linkFlitReceive port flit => Sys2Proof.Machine.execLinkFlitReceive port flit s
  | .linkRetrain port => Sys2Proof.Machine.execLinkRetrain port s
  | .packageIdWrite id => Sys2Proof.Machine.execPackageIdWrite id s
  | .lodeCopyService part lode frame n toHbm => Sys2Proof.Machine.execLodeCopyService part lode frame n toHbm s
  | .injectionArm pf0 cell word bit all => Sys2Proof.Machine.execInjectionArm pf0 cell word bit all s
  | .startup facts => Sys2Proof.Machine.execStartup facts s
  | .dvfsTrigger point cause => Sys2Proof.Machine.execDvfsTrigger point cause s
  | .dvfsChangeComplete => Sys2Proof.Machine.execDvfsChangeComplete s
  | .caissonDiscard part => Sys2Proof.Machine.execCaissonDiscard part s
  | .debuggerResume cell => Sys2Proof.Machine.execDebuggerResume cell s
  | .firmwareUpdateCommand good => Sys2Proof.Machine.execFirmwareUpdateCommand good s

end Sys2Proof.Machine
end

