-- ==== Sys2Proof/Machine/Run.lean ====
section
/-! DEFINITION. What a step does besides an instruction's own meaning: the passing of time (R36, R285, R322, R323), fetching
and issuing a control word (R65, R113, R334), the firing of an element or block by its operation word, the reading of a
switch word (R74), and what runs when nothing is on the agenda (log 4). -/

namespace Sys2Proof.Machine

/-! ### Time -/

/-- Whether a cell of a graph is halted for the debugger. -/
def State.debugged (s : State) (g : Graph) : Bool := s.cells.any fun e => g.holds e.1 && e.2.seq.dbg

/-- A placed graph's quantum and watchdog count; a watchdog that reached its limit on the tick that ends raises its freeze (R285,
R323). -/
def State.ageGraph (s : State) (p ns : Nat) (g : Graph) : Graph :=
  let g := { g with freeze := if g.freeze.isNone then g.wdDue else g.freeze, wdDue := none }
  if s.swapping p || g.frozen || g.halt || s.debugged g then g else { g with quantum := g.quantum + ns, wdog := g.wdog + ns }

/-- The ticks of a sequencer's firing budget and stall counters (R36, R322): the budget counts the tick that runs too, from the
issue of the firing's first instruction on and not in trap mode. -/
def tickCell (ticks : Nat) (x : Cell) : Cell :=
  let q := x.seq
  if !q.running || q.dbg then x
  else
    let bump := fun (m : SMap (BitVec 64)) (k : Nat) => SMap.set m k (SMap.get 0 m k + BitVec.ofNat 64 ticks)
    let memory := q.wait.stall == 1 || q.wait.hold.isSome
    { x with
      seq := if q.tr.tm || q.budget == 0 then q else { q with budget := q.budget + ticks }
      cnt := if memory then bump x.cnt 0x041 else if q.wait.stall == 2 then bump x.cnt 0x042 else x.cnt }

/-- A watch written on an earlier tick than a stamp's is certain to be seen (R350). -/
def Part.pastWrites (q : Part) : Part := { q with watches := q.watches.map fun e => (e.1, { e.2 with fresh := false }) }

/-- Time passes: TBASE, the quanta and watchdogs of the resident partitions, and the ticks of sequencers that move. -/
def State.elapse (s : State) (ns ticks : Nat) : State :=
  if ns == 0 && ticks == 0 then s
  else
    let parts := s.parts.map fun e => (e.1, { e.2.pastWrites with graphs := e.2.graphs.map fun g => s.ageGraph e.1 ns g })
    let cells := s.cells.map fun e => (e.1, { (if s.cellLive e.1 then tickCell ticks e.2 else e.2) with now := [] })
    let t := s.tbase + BitVec.ofNat 64 ns
    { s with
      tbase := t, tick := s.tick + BitVec.ofNat 64 ticks, parts := parts, cells := cells
      mem := { s.mem with refresh := refreshAt t } }

/-! ### Issue -/

/-- Whether a sequencer may issue: its cell acts, a firing runs, nothing halts or holds it, and no record of it waits for room
(R210). -/
def State.mayIssue (s : State) (c : Nat) : Bool :=
  let q := s.seqAt c
  s.cellLive c && q.running && !q.stuck && !q.dbg && q.wait.hold.isNone && q.wait.xfence.isNone && q.wait.mwait.isNone
    && q.wait.bar.isNone && !s.errWaits c 0x80

/-- After an instruction of a cell: one that has not stayed at issue counts as issued (R322), and under MODE.SS the cell halts
(R89). -/
def State.issued (s : State) (c : Nat) : State :=
  let w := (s.seqAt c).wait
  if w.stall != 0 || w.hold.isSome then s
  else
    let s := s.bump c 0x040 1
    let q := s.seqAt c
    if q.tr.ss && w.xfence.isNone && w.mwait.isNone && w.bar.isNone then s.setSeqAt c { q with dbg := true } else s

/-- The outcome of an instruction, with what its issue leaves. -/
def afterIssue (c : Nat) : Out → Out
  | .next s => .next (s.issued c)
  | .fault r => .fault r
  | .refused r => .refused r

/-- The firing budget counts from the issue of the first instruction (R36). -/
def State.startBudget (s : State) (c : Nat) : State :=
  let q := s.seqAt c
  if q.budget == 0 then s.setSeqAt c { q with budget := 1 } else s

/-- Runs the decoded instruction of a cell; a word that is no instruction traps ILLOP (R65). -/
def State.issueWord (s : State) (c : Nat) (w : BitVec 32) : Out :=
  match decodeControl w with
  | none => .next ((s.trapOn c 0x01 (w.zeroExtend 64) (s.seqAt c).pc (s.seqAt c).loopst (w.zeroExtend 64)).issued c)
  | some i => afterIssue c (exec i s)

/-- A cell's sequencer issues: a trap latched in a drain is taken first (R334), then FIRING if this tick comes after the 65,536th
counted one (R36), else
the word at PC is fetched and run. -/
def State.issue (s : State) (c : Nat) : Out :=
  if 9216 ≤ c then .fault (.noSuchCell c)
  else if !s.mayIssue c then .next s
  else
    let q := s.seqAt c
    let w := s.codeWord c q.pc
    match q.pending with
    | some t => .next ((s.setSeqAt c { q with pending := none }).trapOn c t.1 t.2 q.pc q.loopst (w.zeroExtend 64))
    | none =>
      if 65536 < q.budget && !q.tr.tm then .next (s.trapOn c 0x07 65536 q.pc q.loopst (w.zeroExtend 64))
      else ({ s.startBudget c with focus := { cell := c } }).issueWord c w

/-! ### Operation and switch words -/

/-- The used slots of an element's word. -/
def usedCtl (i : Instr) (x : Elem) : Bool := (instrSlots i).any fun n => (x.slot n).any tkIsCtl

/-- An element acts: on a CFG at in0 (R41), on control tokens (R39), or by its word. -/
def State.fireElem (s : State) (c u : Nat) : Out :=
  let x := (s.cell c).elem u
  match elemInstr x.word with
  | none => if (x.in0.map (·.kind)) == some 6 then exec (.cfgFiring c u) s else .next s
  | some i =>
    if (x.in0.map (·.kind)) == some 6 then exec (.cfgFiring c u) s
    else if (x.in0.map tkIsCtl) == some true then exec (.elementControlFiring c u) s
    else exec i s

/-- A stream block or matrix engine acts: on a CFG at port 0 that it may take (R150, R236), or by its word. -/
def State.fireBlock (s : State) (c u : Nat) : Out :=
  let b := (s.cell c).block u
  if ((b.head 0).map (·.kind)) == some 6 && u != 24 && !s.cfgWaits c u then exec (.cfgFiring c u) s
  else if !unitWordOk u b.word then .next s
  else match decodeOp b.word with
    | some (.instr i) => exec i s
    | _ => .next s

/-- An element or block of a cell acts once. -/
def State.fire (s : State) (c u : Nat) : Out :=
  if 9216 ≤ c then .fault (.noSuchCell c)
  else if !unitIn c u then .fault (.noSuchUnit u)
  else if !s.cellLive c then .next s
  else
    let s := { s with focus := { cell := c, unit := u } }
    if u < 16 then s.fireElem c u else s.fireBlock c u

/-- A router reads the switch word at a position (R74): an invalid one is a router fault; TAP and CLRR act in other steps. -/
def State.route (s : State) (c pos : Nat) : Out :=
  if 9216 ≤ c then .fault (.noSuchCell c)
  else if !s.cellLive c then .next s
  else
    let s := { s with focus := { cell := c, unit := pos } }
    match (s.cell c).router.words[pos]? with
    | none => .next s
    | some w => match decodeSwitch w with
      | none => exec (.switchStoreSoftError c pos w) s
      | some (.instr i) => exec i s
      | some _ => .next s

/-! ### Events -/

/-- The cell whose waiting instruction an event may complete. -/
def wakes : Instr → Option Nat
  | .xfenceComplete c => some c
  | .monitorWake c => some c
  | .barWake c => some c
  | _ => none
/-- The cell whose held access an event may answer. -/
def answers : Instr → Option Nat
  | .seqAccessResponse c _ => some c
  | _ => none

/-- Whether an instruction of a cell waits for an event to complete it. -/
def State.waits (s : State) (c : Nat) : Bool :=
  let w := (s.seqAt c).wait
  w.xfence.isSome || w.mwait.isSome || w.bar.isSome

/-- Under MODE.SS the cell halts after an instruction that an event completed (R89). -/
def State.ssAfter (s : State) (c : Nat) : State :=
  let q := s.seqAt c
  if q.tr.ss && !s.waits c then s.setSeqAt c { q with dbg := true } else s

/-- An event of the table; a word of a cell is none. -/
def State.event (s : State) (i : Instr) : Out :=
  match i.cls with
  | .event =>
    match wakes i, answers i, exec i s with
    | some c, _, .next t => .next (if s.waits c then t.ssAfter c else t)
    | _, some c, .next t => .next (if (s.seqAt c).wait.hold.isSome then t.issued c else t)
    | _, _, o => o
  | _ => .refused .notAnEvent

/-- What an entry of the agenda asks for. -/
def State.act (s : State) : Act → Out
  | .issue c => s.issue c
  | .fire c u => s.fire c u
  | .route c pos => s.route c pos
  | .ev i => s.event i

/-! ### With nothing on the agenda -/

/-- Whether a cell's free sequencer has an actor to fire. -/
def State.mayStart (s : State) (c : Nat) : Bool :=
  s.cellLive c && !(s.seqAt c).running && (List.range 8).any fun k => ((s.cell c).slot k).eligible

/-- A step with nothing on the agenda: start-up; else one tick passes and the first cell that may issue does, else the first
whose free sequencer has an actor to fire starts it (log 4). -/
def State.idleStep (s : State) : Out :=
  if s.hf.boot == 0 && !s.hf.booted then execStartup {} s
  else
    let t := s.elapse 0 1
    match s.cells.find? fun e => s.mayIssue e.1 with
    | some e => t.issue e.1
    | none => match s.cells.find? fun e => s.mayStart e.1 with
      | some e => execActorFiringStart e.1 t
      | none => .next s

/-! ### Placing one instruction -/

/-- The cell and unit that hold an operation word: cell 0 is an M-cell, cell 1 a D-cell, cell 3 an S-cell (R10). -/
def homeUnit : Instr → Nat × Nat
  | .scanD .. | .scanC .. | .scanB .. => (0, 16)
  | .lwriteD .. | .lwriteC .. | .lwriteB .. => (0, 18)
  | .isect .. | .union .. => (3, 19)
  | .rept .. => (3, 20)
  | .reduceSum .. | .reduceWsum .. | .reduceOr .. | .reduceMin .. | .reduceMax .. | .reduceTopk .. => (3, 21)
  | .mload .. => (1, 23)
  | .mswap .. => (1, 24)
  | .mstream .. => (1, 25)
  | _ => (0, 0)

/-- A started package with one graph on bay 0 of partition 0, whose units may act (log 6). -/
def State.oneGraph (s : State) : State :=
  { s with
    hf := { s.hf with boot := 1, booted := true, swap := none, toPoint := none }
    parts := SMap.set s.parts 0 { loaded := true, cfg := { bays := [0] }, graphs := [{ lid := 1, loading := false }], liveLids := [1] } }

/-- A control word where cell 0 fetches next. -/
def State.placeControl (s : State) (w : BitVec 32) : State :=
  let s := s.oneGraph
  let x := s.cell 0
  { s.setCell 0 { x with
      code := memStore x.code 0 (natLe w.toNat 4)
      seq := { x.seq with pc := 0, running := true, wait := {}, dbg := false, stuck := false, pending := none } } with
    agenda := [{ act := .issue 0 }] }

/-- An operation word in its unit, with a data token at each of its inputs. -/
def State.placeOp (s : State) (i : Instr) (w : BitVec 32) : State :=
  let s := s.oneGraph
  let (c, u) := homeUnit i
  let x := s.cell c
  let t : Token := {}
  let x := if u < 16 then x.setElem u { word := w, in0 := some t, in1 := some t, in2 := some t }
    else x.setBlock u { word := w, inq := [(0, [t]), (1, [t])] }
  { s.setCell c x with agenda := [{ act := .fire c u }] }

/-- A switch word at position 0 of cell 0's router, with a token in every input buffer. -/
def State.placeSwitch (s : State) (w : BitVec 16) : State :=
  let s := s.oneGraph
  let x := s.cell 0
  let t : Token := {}
  { s.setCell 0 { x with router := { x.router with words := [w], inb := (List.range 24).map fun k => (k, [t]) } } with
    agenda := [{ act := .route 0 0 }] }

end Sys2Proof.Machine
end

