-- ==== Sys2Proof/Machine/Step.lean ====
section
/-! DEFINITION. One step of the machine, and the state with one instruction placed where the next step runs it. -/

namespace Sys2Proof.Machine

/-- One step: the next entry of the agenda after its time has passed, or what runs by itself (log 4). -/
def step (s : State) : Host.Outcome State Fault Refusal :=
  match s.agenda with
  | [] => s.idleStep
  | d :: ds => { ({ s with agenda := ds }).elapse d.ns d.ticks with focus := { s.focus with fn := d.fn } }.act d.act

/-- The state in which the next step runs the instruction of a table word (log 6). -/
def State.withFetchWord (s : State) (nbits w : Nat) : State :=
  match decodeTableWord nbits w with
  | none => s.placeControl (BitVec.ofNat 32 w)
  | some i => match i.cls with
    | .op => s.placeOp i (BitVec.ofNat 32 w)
    | .switch => s.placeSwitch (BitVec.ofNat 16 w)
    | _ => s.placeControl (BitVec.ofNat 32 w)

end Sys2Proof.Machine
end

