-- ==== Sys2Proof/Safety.lean ====
section
/-! DEFINITION. The terms in which claims about the machine are made: an instruction that completes, what a step leaves
unchanged, and the invariant that every step keeps. -/

namespace Sys2Proof.Machine

/-- The instruction answers a next state, of which `P` holds. -/
def Gives (i : Instr) (s : State) (P : State → Prop) : Prop := ∃ t, exec i s = .next t ∧ P t

/-- Two memories read the same at every address. -/
def SameMem (m n : Mem) : Prop := ∀ a, memRead n a = memRead m a

/-- Every byte of every memory reads as before: HBM, weight store, lode tier, other packages, host, and each cell's
private memory, scratchpad and code store; and no cache holds another line than before. -/
structure SameBytes (s t : State) : Prop where
  hbm     : SameMem s.mem.hbm t.mem.hbm
  ws      : SameMem s.mem.ws t.mem.ws
  lode    : SameMem s.mem.lode t.mem.lode
  remote  : SameMem s.mem.remote t.mem.remote
  host    : SameMem s.mem.host t.mem.host
  priv    : ∀ c, SameMem (s.cell c).priv (t.cell c).priv
  scratch : ∀ c, SameMem (s.cell c).m.scratch (t.cell c).m.scratch
  code    : ∀ c, SameMem (s.cell c).code (t.cell c).code
  dcache  : ∀ c, (t.cell c).dc = (s.cell c).dc
  die     : ∀ d, t.dieCache d = s.dieCache d

/-- Nothing outside the focused cell's sequencer changes: no other cell, no other part of the cell, nothing else of the
package, and no byte of memory. -/
structure OnlySeq (s t : State) : Prop where
  others : ∀ c, c ≠ s.focus.cell → t.cell c = s.cell c
  cell   : t.cell s.focus.cell = { s.cell s.focus.cell with seq := t.seq }
  rest   : { t with cells := s.cells } = s
  bytes  : SameBytes s t

/-- The program counter and LOOPST go on as R105 says of an instruction that transfers no control. -/
def GoesOn (s t : State) : Prop := (t.seq.pc, t.seq.loopst) = nextPc s.seq.pc s.seq.loopst

/-- An instruction whose only effect is a general register: g0 stays zero, every other register, predicate and special
register is kept, the program counter goes on, and nothing else changes. -/
structure WritesReg (s t : State) (d : BitVec 5) (v : Word) : Prop where
  reg  : ∀ r, t.seq.getG r = if r = 0 then 0 else if r = d then v else s.seq.getG r
  next : GoesOn s t
  seq  : { t.seq with g := s.seq.g, pc := s.seq.pc, loopst := s.seq.loopst, wait := s.seq.wait } = s.seq
  only : OnlySeq s t

/-- An instruction whose only effect is a predicate; p0 stays true. -/
structure WritesPred (s t : State) (d : BitVec 3) (b : Bool) : Prop where
  pred : ∀ n, t.seq.getP n = if n = 0 then true else if n = d then b else s.seq.getP n
  next : GoesOn s t
  seq  : { t.seq with p := s.seq.p, pc := s.seq.pc, loopst := s.seq.loopst, wait := s.seq.wait } = s.seq
  only : OnlySeq s t

/-- A taken transfer of control to a word address: LOOPST is cleared when the target leaves the body (R105). -/
structure JumpsTo (s t : State) (target : BitVec 12) : Prop where
  pc     : t.seq.pc = target
  loopst : t.seq.loopst =
    if lsActive s.seq.loopst && !lsHolds s.seq.loopst target then 0 else s.seq.loopst
  seq    : { t.seq with pc := s.seq.pc, loopst := s.seq.loopst, wait := s.seq.wait, lk := s.seq.lk } = s.seq
  only   : OnlySeq s t

/-- A vectored trap entry on the focused sequencer (R109): TRAPC, TRAPV, TRAPPC and TRAPLS are saved, STATUS.TM is 1,
LOOPST is cleared, and the next instruction is the handler's first. -/
structure TrapsTo (s t : State) (cause : BitVec 8) (value : Word) (resume : BitVec 12) (ls : Word) : Prop where
  trapc  : t.seq.tr.cause = cause
  trapv  : t.seq.tr.value = value
  trappc : t.seq.tr.pc = resume
  saved  : t.seq.tr.ls = ls
  mode   : t.seq.tr.tm = true
  last   : t.seq.tr.lastc = cause
  loopst : t.seq.loopst = 0
  pc     : t.seq.pc = s.seq.tr.vec.extractLsb' 2 12
  kept   : t.seq.tr.vec = s.seq.tr.vec ∧ t.seq.tr.be = s.seq.tr.be ∧ t.seq.tr.ss = s.seq.tr.ss
  seq    : { t.seq with tr := s.seq.tr, pc := s.seq.pc, loopst := s.seq.loopst, wait := s.seq.wait } = s.seq
  only   : OnlySeq s t

/-- The focused sequencer takes traps: it is not in trap mode and TRAPVEC.EN is 1 (R109). -/
def TakesTraps (s : State) : Prop := s.seq.tr.tm = false ∧ s.seq.tr.vec.getLsbD 0 = true

/-- A word that is no control word traps ILLOP at issue on the focused sequencer, with the word as TRAPV (R65, R107). -/
def TrapsIllop (s : State) (w : BitVec 32) : Prop :=
  decodeControl w = none ∧ ∃ t, s.issueWord s.focus.cell w = .next t ∧ t.seq.tr.cause = 0x01
    ∧ t.seq.tr.value = w.setWidth 64 ∧ t.seq.tr.pc = s.seq.pc ∧ t.seq.tr.ls = s.seq.loopst ∧ t.seq.tr.tm = true

/-- The instruction completes over a state: that state, but that its focused sequencer goes on (R105). -/
def GoesOver (s' t : State) : Prop := t = s'.setSeq s'.seq.stepPc

/-- The instruction completes with an effect on one partition's tables alone: they change as `f` says, the focused sequencer
goes on (R105), and nothing else changes. -/
structure GoesPart (s t : State) (p : Nat) (f : Part → Part) : Prop where
  part   : t.part p = f (s.part p)
  parts  : ∀ q, q ≠ p → t.part q = s.part q
  seq    : t.seq = s.seq.stepPc
  cell   : t.cell s.focus.cell = { s.cell s.focus.cell with seq := t.seq }
  others : ∀ c, c ≠ s.focus.cell → t.cell c = s.cell c
  rest   : { t with cells := s.cells, parts := s.parts } = s

/-- The instruction stays at issue: nothing but the wait of the focused sequencer changes (R191, R220). -/
structure Waits (s t : State) : Prop where
  seq  : { t.seq with wait := s.seq.wait } = s.seq
  only : OnlySeq s t

/-- The byte address that the focused cell's private-memory window gives `n` bytes at va(base, off), where the access lies
whole in the window (R153, R166). -/
def PrivAt (base : Word) (off : BitVec 48) (n o : Nat) : Prop :=
  vaTensor (vaPlus base off) = 0xFFFF ∧ vaOff (vaPlus base off) = o ∧ o + n ≤ 0x4000

/-- The focused cell's private memory changes in `n` bytes from `o`, which become the little-endian number `v`, and nothing
else of the memories, of other cells or of the package changes. -/
structure WritesPriv (s t : State) (o n v : Nat) : Prop where
  priv   : ∀ a, memRead (t.cell s.focus.cell).priv a =
    if o ≤ a ∧ a < o + n then BitVec.ofNat 8 (v / 256 ^ (a - o)) else memRead (s.cell s.focus.cell).priv a
  others : ∀ c, c ≠ s.focus.cell → t.cell c = s.cell c
  cell   : t.cell s.focus.cell = { s.cell s.focus.cell with
    seq := t.seq, priv := (t.cell s.focus.cell).priv }
  rest   : { t with cells := s.cells } = s

/-- An atomic on `n` bytes of private memory at `o` (R171, R172): g[d] gets `ret` of the old value, the bytes become `new`
of it, or stay where there is none; the program counter goes on. -/
structure AtomicPriv (s t : State) (d : BitVec 5) (o n : Nat) (new : Nat → Option Nat) (ret : Nat → Word) : Prop where
  mem  : WritesPriv s t o n ((new (memNat (s.cell s.focus.cell).priv o n)).getD (memNat (s.cell s.focus.cell).priv o n))
  reg  : ∀ r, t.seq.getG r =
    if r = 0 then 0 else if r = d then ret (memNat (s.cell s.focus.cell).priv o n) else s.seq.getG r
  next : GoesOn s t
  seq  : { t.seq with g := s.seq.g, pc := s.seq.pc, loopst := s.seq.loopst, wait := s.seq.wait } = s.seq

/-- Every slot that a word uses holds a token: one of `ts`, in the slots' order. The first is DATA, none is a control token,
and the output stage has a free place (R37, R39, R118). -/
def ElemHolds (s : State) (i : Instr) (ts : List Token) : Prop :=
  (instrSlots i).mapM s.el.slot = some ts ∧ ts.head?.map (·.kind) = some 0 ∧ (∀ t ∈ ts, tkIsCtl t = false)
    ∧ s.el.out.length < instrStage i

/-- The focused element fires on its word (R37, R118): the slots that the word uses are empty, a result waits in the output
stage where a destination is named, the cell's count of firings is one higher, and nothing else changes. -/
structure FiresElem (s t : State) (i : Instr) (r : Token) : Prop where
  slot   : ∀ j, j < 3 → t.el.slot j = if j ∈ instrSlots i then none else s.el.slot j
  out    : t.el.out = s.el.out ++ if destList i = [] then [] else [(r, destList i)]
  elem   : { t.el with in0 := s.el.in0, in1 := s.el.in1, in2 := s.el.in2, out := s.el.out } = s.el
  count  : ∀ n, SMap.get 0 (t.cell s.focus.cell).cnt n
    = SMap.get 0 (s.cell s.focus.cell).cnt n + (if n = 0x043 then 1 else 0)
  elems  : ∀ e, e ≠ s.focus.unit → (t.cell s.focus.cell).elem e = (s.cell s.focus.cell).elem e
  cell   : t.cell s.focus.cell = { s.cell s.focus.cell with
    elems := (t.cell s.focus.cell).elems, cnt := (t.cell s.focus.cell).cnt, now := (t.cell s.focus.cell).now }
  others : ∀ c, c ≠ s.focus.cell → t.cell c = s.cell c
  rest   : { t with cells := s.cells } = s
  bytes  : SameBytes s t

/-- A lane-wise result (R38, R115, R117): lane n is `val n` where every operand's group is enabled. A scalar stands in REF; a
vector in the payload, with the AND of the operands' masks, every other byte zero. -/
structure LaneRes (ty : BitVec 3) (sh : BitVec 2) (ts : List Token) (val : Nat → Nat) (r : Token) : Prop where
  head   : r = { dataHead ts with pl := decide (sh ≠ 0), ref := r.ref, lmask := r.lmask, payload := r.payload }
  scalar : sh = 0 → r.ref.toNat = val 0 ∧ r.lmask = 0 ∧ r.payload = 0
  ref    : sh ≠ 0 → r.ref = 0
  mask   : sh ≠ 0 → ∀ g, g < 16 →
    (r.lmask.getLsbD g = true ↔ g < shapeBytes sh / 4 ∧ ∀ t ∈ ts, t.pl = true ∧ t.lmask.getLsbD g = true)
  lanes  : sh ≠ 0 → ∀ n, n < laneCount ty sh → r.payload.toNat / 2 ^ (8 * tyBytes ty * n) % 2 ^ (8 * tyBytes ty)
    = if r.lmask.getLsbD (n * tyBytes ty / 4) = true then val n else 0
  rest   : sh ≠ 0 → r.payload.toNat < 2 ^ (8 * shapeBytes sh)

/-- A step of the focused stream block or matrix engine: its block becomes `b`, its own state is set as `own` says, only the
block counters of its cell may rise, and nothing else changes. -/
structure StepsBlock (s t : State) (b : Block) (own : Cell → Cell) : Prop where
  block  : t.blk = b
  blocks : ∀ u, u ≠ s.focus.unit → (t.cell s.focus.cell).block u = (s.cell s.focus.cell).block u
  cell   : t.cell s.focus.cell = own { s.cell s.focus.cell with
    blocks := (t.cell s.focus.cell).blocks, cnt := (t.cell s.focus.cell).cnt, now := (t.cell s.focus.cell).now }
  cnts   : ∀ n, (n < 0x043 ∨ 0x047 < n) →
    SMap.get 0 (t.cell s.focus.cell).cnt n = SMap.get 0 (s.cell s.focus.cell).cnt n
  others : ∀ c, c ≠ s.focus.cell → t.cell c = s.cell c
  rest   : { t with cells := s.cells } = s

/-- A freeze is raised in a cell's placed graph, if it has one, and no byte of the package's memories changes. -/
def Freezes (s t : State) (c : Nat) : Prop :=
  t.mem = s.mem ∧ t.cells = s.cells ∧ ∀ p g, s.graphAt c = some (p, g) → ∃ g', t.graph p g.lid = some g' ∧ g'.freeze ≠ none

/-- Nothing outside a cell changes: no other cell, nothing else of the package, and no memory of the package. -/
structure OnlyCell (s t : State) (c : Nat) : Prop where
  others : ∀ d, d ≠ c → t.cell d = s.cell d
  rest   : { t with cells := s.cells } = s

/-- A switch word of the focused router moves a token (R221): the buffers `ins` lose their heads, each as often as it is
named, the outputs `outs` hold the token, a place freed at a link owes its credit and a token for a link takes one (R211), the DONEs
noted at the word may change (R230), and the word's own state is set as `own` says. -/
structure MovesToken (s t : State) (ins outs : List Nat) (k : Token) (own : Router → Router) : Prop where
  inb    : ∀ n, SMap.get [] (t.cell s.focus.cell).router.inb n
    = (SMap.get [] (s.cell s.focus.cell).router.inb n).drop (ins.count n)
  outb   : ∀ n, SMap.get [] (t.cell s.focus.cell).router.outb n
    = if n ∈ outs then [k] else SMap.get [] (s.cell s.focus.cell).router.outb n
  owed   : ∀ n, SMap.get 0 (t.cell s.focus.cell).router.owed n = SMap.get 0 (s.cell s.focus.cell).router.owed n
    + if (s.linkPeer s.focus.cell (n / 3)).isSome then ins.count n else 0
  used   : ∀ n, SMap.get 0 (t.cell s.focus.cell).router.used n = SMap.get 0 (s.cell s.focus.cell).router.used n
    + if (s.linkPeer s.focus.cell (n / 3)).isSome then outs.count n else 0
  noted  : ∀ n, n ≠ s.focus.unit →
    SMap.get 0 (t.cell s.focus.cell).router.arrived n = SMap.get 0 (s.cell s.focus.cell).router.arrived n
  router : { (t.cell s.focus.cell).router with
    inb := (s.cell s.focus.cell).router.inb, outb := (s.cell s.focus.cell).router.outb
    owed := (s.cell s.focus.cell).router.owed, used := (s.cell s.focus.cell).router.used
    arrived := (s.cell s.focus.cell).router.arrived } = own (s.cell s.focus.cell).router
  cell   : t.cell s.focus.cell = { s.cell s.focus.cell with router := (t.cell s.focus.cell).router }
  only   : OnlyCell s t s.focus.cell

/-- The memories of the package keep their canonical form. -/
def Mems.wf (m : Mems) : Prop :=
  Memory.wf m.hbm = true ∧ Memory.wf m.ws = true ∧ Memory.wf m.lode = true ∧ Memory.wf m.remote = true
    ∧ Memory.wf m.host = true

/-- The headframe is in a state that R357 and R361 name: a boot status of R357, one of the three clock points, no change
to another point, and a power limit of at most 2,600 W. -/
def Headframe.ok (h : Headframe) : Prop :=
  h.boot ≤ 4 ∧ h.point < 3 ∧ (∀ n, h.toPoint = some n → n < 3) ∧ h.watts ≤ 2600

/-- A sparse map's numbers rise. -/
def Rises {α : Type} (m : SMap α) : Prop := m.Pairwise fun a b => a.1 < b.1

/-- A cell's own memories keep their canonical form, and its data cache lists its lines in rising order. -/
structure Cell.Kept (x : Cell) : Prop where
  code    : Memory.wf x.code = true
  priv    : Memory.wf x.priv = true
  scratch : Memory.wf x.m.scratch = true
  dc      : Rises x.dc
/-- The cells of a partition's yielded contexts keep the same. -/
def Part.Kept (q : Part) : Prop := ∀ e ∈ q.yields, ∀ c ∈ e.2.cells, c.2.Kept
/-- Every cell, those of yielded contexts and of contexts in the caisson among them, keeps the form of its memories, and every die
cache lists its lines in rising order. -/
structure State.CellsKept (s : State) : Prop where
  cells   : ∀ e ∈ s.cells, e.2.Kept
  parts   : ∀ e ∈ s.parts, e.2.Kept
  caisson : ∀ e ∈ s.caisson, ∀ k, e.2 = some k → k.part.Kept ∧ ∀ c ∈ k.cells, c.2.Kept
  die     : ∀ e ∈ s.mem.die, Rises e.2

/-- The invariant: canonical memories, rising caches and a legal headframe. -/
def State.Inv (s : State) : Prop := s.mem.wf ∧ s.hf.ok ∧ s.CellsKept

end Sys2Proof.Machine
end

