-- ==== Sys2Proof/Certificates/Slice0/Obligations.lean ====
section
/-! DEFINITION. The statements for the provers, from the numbered rules of spec/; each docstring names the rules it
formalises. -/

open Sys2Proof Sys2Proof.Machine

/-- R62-R74: decoding and encoding agree, in both directions, for every control word, every well-formed operation word and
every well-formed switch word, with every operand at every value. -/
def Obligations.DecodeEncode : Prop :=
  (∀ i : Instr, (i.cls = .control → decodeControl (encodeControl i) = some i)
    ∧ (i.cls = .op → i.wf = true → decodeOpInstr (encodeOp i) = some i)
    ∧ (i.cls = .switch → i.wf = true → decodeSwitchInstr (encodeSwitch i) = some i))
  ∧ (∀ (w : BitVec 32) (i : Instr), (decodeControl w = some i → i.cls = .control ∧ encodeControl i = w)
    ∧ (decodeOpInstr w = some i → i.cls = .op ∧ i.wf = true ∧ encodeOp i = w))
  ∧ ∀ (w : BitVec 16) (i : Instr), decodeSwitchInstr w = some i → i.cls = .switch ∧ i.wf = true ∧ encodeSwitch i = w

/-- Words that spec/ writes out beside their assembly (R119, R201, R203, R218, R240, R244, R249, R251, R255, R279, R305,
R316): each decodes to the instruction it stands for. -/
def Obligations.KnownWords : Prop :=
  decodeControl 0x84520000 = some (.launch 5 4) ∧ decodeControl 0x86521800 = some (.rlaunch 5 4 6)
  ∧ decodeControl 0x92620018 = some (.cntr 6 4 0x18) ∧ decodeControl 0x7C000009 = some (.fenceRel 1)
  ∧ decodeControl 0x7E00001B = some (.xfence 0 3 3) ∧ decodeControl 0x68500005 = some (.take 5 0 0 1 1)
  ∧ decodeControl 0x88620012 = some (.regionQuery 6 4 1) ∧ decodeControl 0x90620030 = some (.xlook 6 4 3)
  ∧ decodeOpInstr 0x33020000 = some (.rept 0 1) ∧ decodeOpInstr 0x34900140 = some (.reduceTopk 1 0 10)
  ∧ decodeOpInstr 0x30218425 = some (.scanC 3 2 4 2 1)

/-- R36, R62, R65, R71, R74, R113, R334 and log entry 4: a step takes the oldest entry of the agenda, lets its time pass, and runs
what the entry asks for: the control word at the cell's PC (with the budget begun before and the issue counted after it), the
word of an element or block at which no CFG or control token stands that it takes itself, the CFG that a block takes, the switch
word at a position, or an event. A word that is no control word traps ILLOP; a latched trap is taken
first, then FIRING where the budget has run out; a cell that may not issue does nothing. -/
def Obligations.StepRunsDecoded : Prop := ∀ (s : State) (d : Due) (ds : List Due) (c u : Nat) (i : Instr),
  let t : State := { ({ s with agenda := ds }).elapse d.ns d.ticks with focus := { s.focus with fn := d.fn } }
  let q := t.seqAt c
  let w := BitVec.ofNat 32 (memNat (t.cell c).code (4 * q.pc.toNat) 4)
  let at' : State := { t with focus := { cell := c, unit := u } }
  let x := (t.cell c).elem u
  let ready := t.mayIssue c = true
  let out := 65536 < q.budget ∧ q.tr.tm = false
  s.agenda = d :: ds → c < 9216 →
  (d.act = .issue c → ready → q.pending = none → ¬ out → decodeControl w = some i →
    step s = afterIssue c (exec i { t.startBudget c with focus := { cell := c } }))
  ∧ (d.act = .issue c → ready → q.pending = none → out →
    step s = .next (t.trapOn c 0x07 65536 q.pc q.loopst (w.setWidth 64)))
  ∧ (d.act = .issue c → ready → q.pending = none → ¬ out → decodeControl w = none → ∃ t', step s = .next t'
      ∧ t' = (({ t.startBudget c with focus := { cell := c } }).trapOn c 0x01 (w.setWidth 64) q.pc q.loopst
        (w.setWidth 64)).issued c)
  ∧ (∀ cause v, d.act = .issue c → ready → q.pending = some (cause, v) → step s = .next
      ((t.setSeqAt c { q with pending := none }).trapOn c cause v q.pc q.loopst (w.setWidth 64)))
  ∧ (d.act = .issue c → ¬ ready → step s = .next t)
  ∧ (d.act = .fire c u → u < elemCount c → t.cellLive c = true → elemInstr x.word = some i →
      x.in0.map (·.kind) ≠ some 6 → x.in0.map tkIsCtl ≠ some true → step s = exec i at')
  ∧ (d.act = .fire c u → 16 ≤ u → unitIn c u = true → t.cellLive c = true → unitWordOk u ((t.cell c).block u).word = true →
      decodeOp ((t.cell c).block u).word = some (.instr i) →
      ((((t.cell c).block u).head 0).map (·.kind) ≠ some 6 ∨ u = 24 ∨ t.cfgWaits c u = true) → step s = exec i at')
  ∧ (d.act = .fire c u → 16 ≤ u → unitIn c u = true → t.cellLive c = true → u ≠ 24 → t.cfgWaits c u = false →
      (((t.cell c).block u).head 0).map (·.kind) = some 6 → step s = exec (.cfgFiring c u) at')
  ∧ (∀ sw, d.act = .route c u → t.cellLive c = true → (t.cell c).router.words[u]? = some sw →
      decodeSwitch sw = some (.instr i) → step s = exec i at')
  ∧ (∀ sw, d.act = .route c u → t.cellLive c = true → (t.cell c).router.words[u]? = some sw → decodeSwitch sw = none →
      step s = exec (.switchStoreSoftError c u sw) at')
  ∧ (d.act = .ev i → i.cls = .event → wakes i = none → answers i = none → step s = exec i t)
  ∧ (∀ e t', d.act = .ev i → i.cls = .event → wakes i = some e → exec i t = .next t' →
      step s = .next (if t.waits e then t'.ssAfter e else t'))
  ∧ (∀ e t', d.act = .ev i → i.cls = .event → answers i = some e → exec i t = .next t' →
      step s = .next (if (t.seqAt e).wait.hold.isSome then t'.issued e else t'))

/-- R322, R328, R357 and log entries 1, 3 and 6: the package right after reset. Nothing has started, TBASE is 0, no partition is
loaded, no context is saved, and every memory is empty (an unlisted byte reads as 0, log 1); a sequencer's registers hold the values that the log names, p0 true,
and no firing runs. -/
def Obligations.ResetState : Prop :=
  let s := State.reset
  let empty := fun (m : Mem) => ∀ a, memRead m a = 0
  s.tbase = 0 ∧ s.hf.boot = 0 ∧ s.hf.booted = false ∧ s.hf.swap = none ∧ s.caisson = [] ∧ s.failed = []
  ∧ (∀ p, (s.part p).loaded = false) ∧ (∀ c, s.partOf c = none) ∧ empty s.mem.hbm ∧ empty s.mem.ws ∧ empty s.mem.lode
  ∧ empty s.mem.remote ∧ empty s.mem.host ∧ (∀ c, empty (s.cell c).priv ∧ empty (s.cell c).m.scratch ∧ empty (s.cell c).code)
  ∧ s.mem.die = [] ∧ s.mem.poison = [] ∧ (∀ c, (s.cell c).dc = [])
  ∧ ∀ c, (∀ r, (s.seqAt c).getG r = 0) ∧ (s.seqAt c).p = 1 ∧ (s.seqAt c).pc = 0 ∧ (s.seqAt c).loopst = 0
    ∧ (s.seqAt c).tr = {} ∧ (s.seqAt c).running = false ∧ (∀ k, ((s.cell c).slot k).valid = false)
    ∧ s.mayIssue c = false

/-- The invariant holds at reset. -/
def Obligations.InvAtReset : Prop := State.reset.Inv

/-- Every step keeps the canonical form of the memories of the package and of every cell, saved contexts included: addresses
strictly rising, and no byte listed that an unlisted address reads as. It also keeps the lines of every data cache in rising
order. -/
def Obligations.MemoriesKept : Prop := ∀ (s t : State), step s = .next t →
  (s.mem.wf → t.mem.wf) ∧ (s.CellsKept → t.CellsKept)

/-- R357, R361: no step takes the headframe out of the states that it has: a boot status of R357, one of the three clock
points, and a power limit of at most 2,600 W. -/
def Obligations.HeadframeKept : Prop := ∀ (s t : State), s.hf.ok → step s = .next t → t.hf.ok

/-- R95, R48: the integer instructions, over the exact integers their operands stand for. R95, R96: logic, immediates
and shifts. A shift counts modulo 64; an arithmetic one floors. -/
def Obligations.IntegerAndLogic : Prop :=
  (∀ (s : State) (d a b : BitVec 5),
  let x := s.seq.getG a
  let y := s.seq.getG b
  Gives .nop s (WritesReg s · 0 0)
  ∧ Gives (.addReg d a b) s (WritesReg s · d (BitVec.ofNat 64 (x.toNat + y.toNat)))
  ∧ Gives (.sub d a b) s (WritesReg s · d (BitVec.ofInt 64 (x.toInt - y.toInt)))
  ∧ Gives (.mulLo d a b) s (WritesReg s · d (BitVec.ofNat 64 (x.toNat * y.toNat)))
  ∧ Gives (.mulHs d a b) s (WritesReg s · d (BitVec.ofInt 64 (x.toInt * y.toInt / 2 ^ 64)))
  ∧ Gives (.mulHu d a b) s (WritesReg s · d (BitVec.ofNat 64 (x.toNat * y.toNat / 2 ^ 64)))
  ∧ Gives (.divS d a b) s (WritesReg s · d
      (if y = 0 then 0xFFFFFFFFFFFFFFFF#64 else BitVec.ofInt 64 (x.toInt.tdiv y.toInt)))
  ∧ Gives (.divU d a b) s (WritesReg s · d
      (if y = 0 then 0xFFFFFFFFFFFFFFFF#64 else BitVec.ofNat 64 (x.toNat / y.toNat)))
  ∧ Gives (.remS d a b) s (WritesReg s · d (if y = 0 then x else BitVec.ofInt 64 (x.toInt.tmod y.toInt)))
  ∧ Gives (.remU d a b) s (WritesReg s · d (if y = 0 then x else BitVec.ofNat 64 (x.toNat % y.toNat)))
  ∧ Gives (.minS d a b) s (WritesReg s · d (if x.toInt ≤ y.toInt then x else y))
  ∧ Gives (.minU d a b) s (WritesReg s · d (if x.toNat ≤ y.toNat then x else y))
  ∧ Gives (.maxS d a b) s (WritesReg s · d (if x.toInt ≤ y.toInt then y else x))
  ∧ Gives (.maxU d a b) s (WritesReg s · d (if x.toNat ≤ y.toNat then y else x)))
  ∧ (∀ (s : State) (d a b : BitVec 5) (imm : BitVec 15) (n : BitVec 6),
  let x := s.seq.getG a
  let y := s.seq.getG b
  let k := y.toNat % 64
  let v : Word := BitVec.ofInt 64 imm.toInt
  Gives (.andReg d a b) s (WritesReg s · d (x &&& y))
  ∧ Gives (.orReg d a b) s (WritesReg s · d (x ||| y))
  ∧ Gives (.xorReg d a b) s (WritesReg s · d (x ^^^ y))
  ∧ Gives (.addImm d a imm) s (WritesReg s · d (BitVec.ofInt 64 (x.toInt + imm.toInt)))
  ∧ Gives (.andImm d a imm) s (WritesReg s · d (x &&& v))
  ∧ Gives (.orImm d a imm) s (WritesReg s · d (x ||| v))
  ∧ Gives (.xorImm d a imm) s (WritesReg s · d (x ^^^ v))
  ∧ Gives (.shlR d a b) s (WritesReg s · d (BitVec.ofNat 64 (x.toNat * 2 ^ k)))
  ∧ Gives (.shlI d a n) s (WritesReg s · d (BitVec.ofNat 64 (x.toNat * 2 ^ n.toNat)))
  ∧ Gives (.shrLr d a b) s (WritesReg s · d (BitVec.ofNat 64 (x.toNat / 2 ^ k)))
  ∧ Gives (.shrLi d a n) s (WritesReg s · d (BitVec.ofNat 64 (x.toNat / 2 ^ n.toNat)))
  ∧ Gives (.shrAr d a b) s (WritesReg s · d (BitVec.ofInt 64 (x.toInt / 2 ^ k)))
  ∧ Gives (.shrAi d a n) s (WritesReg s · d (BitVec.ofInt 64 (x.toInt / 2 ^ n.toNat))))

/-- R97: a comparison writes its predicate and nothing else; p0 stays true (R87). Its FN names the form, and a word
with d[4:3] non-zero traps ILLOP. R98: SEL and PLOG, with the fields of their words; one whose fields that must be
zero are not traps ILLOP. -/
def Obligations.ComparisonsAndPredicates : Prop :=
  (∀ (s : State) (p : BitVec 3) (a b : BitVec 5) (w : BitVec 32),
  let is := fun n i => w.extractLsb' 25 7 = 0x12 ∧ w.extractLsb' 23 2 = 0 ∧ w.extractLsb' 20 3 = p ∧ w.extractLsb' 15 5 = a
    ∧ w.extractLsb' 10 5 = b ∧ w.extractLsb' 0 10 = n → decodeControl w = some i
  let x := s.seq.getG a
  let y := s.seq.getG b
  Gives (.cmpEq p a b) s (WritesPred s · p (decide (x = y)))
  ∧ Gives (.cmpNe p a b) s (WritesPred s · p (decide (x ≠ y)))
  ∧ Gives (.cmpLt p a b) s (WritesPred s · p (decide (x.toInt < y.toInt)))
  ∧ Gives (.cmpLe p a b) s (WritesPred s · p (decide (x.toInt ≤ y.toInt)))
  ∧ Gives (.cmpLtu p a b) s (WritesPred s · p (decide (x.toNat < y.toNat)))
  ∧ Gives (.cmpLeu p a b) s (WritesPred s · p (decide (x.toNat ≤ y.toNat)))
  ∧ is 0 (.cmpEq p a b) ∧ is 1 (.cmpNe p a b) ∧ is 2 (.cmpLt p a b) ∧ is 3 (.cmpLe p a b) ∧ is 4 (.cmpLtu p a b)
  ∧ is 5 (.cmpLeu p a b)
  ∧ (w.extractLsb' 25 7 = 0x12 → w.extractLsb' 23 2 ≠ 0 → TakesTraps s → TrapsIllop s w))
  ∧ (∀ (s : State) (d a b : BitVec 5) (n : BitVec 1) (p x y : BitVec 3) (w : BitVec 32),
  let plog := fun k i => w.extractLsb' 25 7 = 0x1A ∧ w.extractLsb' 20 5 = p.setWidth 5 ∧ w.extractLsb' 15 5 = x.setWidth 5
    ∧ w.extractLsb' 10 5 = y.setWidth 5 ∧ w.extractLsb' 0 10 = k → decodeControl w = some i
  let wide := w.extractLsb' 23 2 ≠ 0 ∨ w.extractLsb' 18 2 ≠ 0 ∨ w.extractLsb' 13 2 ≠ 0
  Gives (.sel d a b n p) s (WritesReg s · d (if s.seq.getP p = (n == 0) then s.seq.getG a else s.seq.getG b))
  ∧ Gives (.plogAnd p x y) s (WritesPred s · p (s.seq.getP x && s.seq.getP y))
  ∧ Gives (.plogOr p x y) s (WritesPred s · p (s.seq.getP x || s.seq.getP y))
  ∧ Gives (.plogXor p x y) s (WritesPred s · p (s.seq.getP x ^^ s.seq.getP y))
  ∧ Gives (.plogAndn p x y) s (WritesPred s · p (s.seq.getP x && !s.seq.getP y))
  ∧ Gives (.plogXor p x 0) s (WritesPred s · p (!s.seq.getP x)) ∧ Gives (.plogAnd p 0 0) s (WritesPred s · p true)
  ∧ (w.extractLsb' 25 7 = 0x14 → w.extractLsb' 20 5 = d → w.extractLsb' 15 5 = a → w.extractLsb' 10 5 = b →
      w.extractLsb' 4 3 = p → w.extractLsb' 7 1 = n → w.extractLsb' 8 2 = 0 → w.extractLsb' 0 4 = 0 →
      decodeControl w = some (.sel d a b n p))
  ∧ (w.extractLsb' 25 7 = 0x14 → w.extractLsb' 8 2 ≠ 0 → TakesTraps s → TrapsIllop s w)
  ∧ plog 0 (.plogAnd p x y) ∧ plog 1 (.plogOr p x y) ∧ plog 2 (.plogXor p x y) ∧ plog 3 (.plogAndn p x y)
  ∧ (w.extractLsb' 25 7 = 0x1A → wide → TakesTraps s → TrapsIllop s w))

/-- R99, R100: values, fields, addresses and bit counts. A field past bit 63 traps ILLOP with the instruction word. -/
def Obligations.FieldsAndCounts : Prop :=
  ∀ (s : State) (d a b : BitVec 5) (imm : BitVec 20) (lsb wid : BitVec 6) (w : BitVec 1) (sh : BitVec 3),
  let x := s.seq.getG a
  let y := s.seq.getG b
  let l := lsb.toNat
  let m := wid.toNat + 1
  Gives (.ldi d imm) s (WritesReg s · d (BitVec.ofInt 64 (imm.toInt * 2 ^ 12)))
  ∧ (l + m ≤ 64 →
      Gives (.extr d a lsb wid) s (WritesReg s · d (BitVec.ofNat 64 (x.toNat / 2 ^ l % 2 ^ m)))
      ∧ Gives (.insr d a lsb wid) s fun t => ∃ v, WritesReg s t d v ∧ ∀ k < 64,
          v.getLsbD k = if l ≤ k ∧ k < l + m then x.getLsbD (k - l) else (s.seq.getG d).getLsbD k)
  ∧ (64 < l + m → TakesTraps s → let e := wordOf (.extr d a lsb wid); let f := wordOf (.insr d a lsb wid)
      Gives (.extr d a lsb wid) s (TrapsTo s · 0x01 e s.seq.pc s.seq.loopst)
      ∧ Gives (.insr d a lsb wid) s (TrapsTo s · 0x01 f s.seq.pc s.seq.loopst))
  ∧ Gives (.ixa d a b w sh) s (WritesReg s · d
      (x + BitVec.ofInt 64 ((if w = 1 then (y.setWidth 32).toInt else y.toInt) * 2 ^ sh.toNat)))
  ∧ Gives (.bitcClz d a) s (WritesReg s · d (BitVec.ofNat 64 (if x = 0 then 64 else 63 - x.toNat.log2)))
  ∧ Gives (.bitcCtz d a) s (fun t => ∃ n ≤ 64, WritesReg s t d (BitVec.ofNat 64 n)
      ∧ (∀ k < n, x.getLsbD k = false) ∧ (n < 64 → x.getLsbD n = true))
  ∧ Gives (.bitcPopc d a) s
      (WritesReg s · d (BitVec.ofNat 64 ((List.range 64).countP fun k => x.getLsbD k)))
  ∧ Gives (.hashsLane d a) s (WritesReg s · d ((hashLane (x.setWidth 32)).zeroExtend 64))
  ∧ Gives (.hashsCrc d a b) s (WritesReg s · d ((hashCrc (x.setWidth 32) (y.setWidth 32)).zeroExtend 64))
  ∧ Gives (.hashsFold d a) s (WritesReg s · d ((hashFold (x.setWidth 32)).zeroExtend 64))

/-- R101, R102, R105: transfers of control. A branch not taken goes on; targets wrap in the code store; JR refuses a
target past the store or off a word. -/
def Obligations.Transfers : Prop :=
  ∀ (s : State) (p : BitVec 3) (neg : BitVec 1) (off21 : BitVec 21) (off25 : BitVec 25) (a : BitVec 5),
  let t21 := BitVec.ofInt 12 ((s.seq.pc.toNat : Int) + off21.toInt)
  let t25 := BitVec.ofInt 12 ((s.seq.pc.toNat : Int) + off25.toInt)
  let v := if a = 0 then s.seq.lk else s.seq.getG a
  (s.seq.getP p = (neg == 0) → Gives (.br p neg off21) s fun t => JumpsTo s t t21 ∧ t.seq.lk = s.seq.lk)
  ∧ (s.seq.getP p ≠ (neg == 0) → Gives (.br p neg off21) s (WritesReg s · 0 0))
  ∧ Gives (.jmp off25) s (fun t => JumpsTo s t t25 ∧ t.seq.lk = s.seq.lk)
  ∧ Gives (.jal off25) s (fun t => JumpsTo s t t25 ∧ t.seq.lk = BitVec.ofNat 64 (4 * s.seq.pc.toNat + 4))
  ∧ (v.toNat < 2 ^ 14 → v.toNat % 4 = 0 →
      Gives (.jr a) s fun t => JumpsTo s t (BitVec.ofNat 12 (v.toNat / 4)) ∧ t.seq.lk = s.seq.lk)
  ∧ (TakesTraps s → 2 ^ 14 ≤ v.toNat → Gives (.jr a) s (TrapsTo s · 0x01 v s.seq.pc s.seq.loopst))
  ∧ (TakesTraps s → v.toNat < 2 ^ 14 → v.toNat % 4 ≠ 0 →
      Gives (.jr a) s (TrapsTo s · 0x03 v s.seq.pc s.seq.loopst))

/-- R104: LOOP activates LOOPST with its count, or skips the body on a count of zero, and traps ILLOP otherwise. R105,
R108: where an instruction that transfers no control leaves PC and LOOPST. At the end of an active body it loops while
more than one iteration is left, and else ends the clause; everywhere else PC goes to the next word. -/
def Obligations.Clauses : Prop :=
  (∀ (s : State) (a : BitVec 5) (len : BitVec 6),
  let v := s.seq.getG a
  let h := s.seq.pc.toNat
  let i : Instr := .loopH a len
  let legal := len ≠ 0 ∧ lsActive s.seq.loopst = false ∧ h + len.toNat ≤ 4095
  (legal → v = 0 → Gives i s fun t =>
      t.seq = { s.seq with pc := BitVec.ofNat 12 (h + len.toNat + 1), wait := {} } ∧ OnlySeq s t)
  ∧ (legal → v ≠ 0 → v.toNat < 2 ^ 32 → Gives i s fun t =>
      t.seq = { s.seq with pc := BitVec.ofNat 12 (h + 1), loopst := t.seq.loopst, wait := {} } ∧ OnlySeq s t
      ∧ lsActive t.seq.loopst = true ∧ lsLen t.seq.loopst = len.toNat ∧ lsStart t.seq.loopst = h + 1
      ∧ (lsRemain t.seq.loopst).toNat = v.toNat)
  ∧ (TakesTraps s → len ≠ 0 → lsActive s.seq.loopst = false → 2 ^ 32 ≤ v.toNat →
      Gives i s (TrapsTo s · 0x01 v s.seq.pc s.seq.loopst))
  ∧ (TakesTraps s → (len = 0 ∨ lsActive s.seq.loopst = true ∨ (v.toNat < 2 ^ 32 ∧ 4095 < h + len.toNat)) →
      Gives i s (TrapsTo s · 0x01 (wordOf i) s.seq.pc s.seq.loopst)))
  ∧ (∀ (s : State),
  let ls := s.seq.loopst
  let h := s.seq.pc.toNat
  let last := lsActive ls = true ∧ h + 1 = lsStart ls + lsLen ls
  (last → 1 < (lsRemain ls).toNat → Gives .nop s fun t =>
      t.seq.pc.toNat = lsStart ls ∧ (lsRemain t.seq.loopst).toNat = (lsRemain ls).toNat - 1
      ∧ lsActive t.seq.loopst = true ∧ lsStart t.seq.loopst = lsStart ls ∧ lsLen t.seq.loopst = lsLen ls)
  ∧ (last → (lsRemain ls).toNat = 1 → Gives .nop s fun t => t.seq.pc = s.seq.pc + 1 ∧ t.seq.loopst = 0)
  ∧ (¬ last → Gives .nop s fun t => t.seq.pc = s.seq.pc + 1 ∧ t.seq.loopst = ls))

/-- R65, R107-R109, R111: ILL, TRAP and BRK trap with their cause and value; TRAP resumes after itself with its step
of the clause counted. BRK with MODE.BE at 0 is a NOP. R109, R337: a trap in trap mode, or with TRAPVEC.EN at 0, is
unhandled: the sequencer stops and its placed graph has a freeze raised. -/
def Obligations.TrapsTaken : Prop :=
  (∀ (s : State) (r : BitVec 25) (imm : BitVec 20) (w : BitVec 32),
  let n := nextPc s.seq.pc s.seq.loopst
  (TakesTraps s →
      Gives (.ill r) s (TrapsTo s · 0x01 (BitVec.ofNat 64 r.toNat) s.seq.pc s.seq.loopst)
      ∧ Gives (.trapI imm) s (TrapsTo s · 0x09 (BitVec.ofNat 64 imm.toNat) n.1 n.2)
      ∧ (s.seq.tr.be = true →
          Gives (.brk imm) s (TrapsTo s · 0x0A (BitVec.ofNat 64 imm.toNat) s.seq.pc s.seq.loopst)))
  ∧ (s.seq.tr.be = false → Gives (.brk imm) s (WritesReg s · 0 0))
  ∧ (w.extractLsb' 20 5 = 0 → w.extractLsb' 0 20 = imm →
      (w.extractLsb' 25 7 = 0x52 → decodeControl w = some (.trapI imm))
      ∧ (w.extractLsb' 25 7 = 0x54 → decodeControl w = some (.brk imm)))
  ∧ ((w.extractLsb' 25 7 = 0x52 ∨ w.extractLsb' 25 7 = 0x54) → w.extractLsb' 20 5 ≠ 0 → TakesTraps s → TrapsIllop s w))
  ∧ (∀ (s : State) (imm : BitVec 20) (p : Nat) (g : Graph),
  (s.seq.tr.tm = true ∨ s.seq.tr.vec.getLsbD 0 = false) → s.graphAt s.focus.cell = some (p, g) →
  Gives (.trapI imm) s fun t =>
    t.seq = { s.seq with stuck := true, wait := {} } ∧ t.mem = s.mem ∧
    ∃ g', t.graph p g.lid = some g' ∧ g'.freeze ≠ none)

/-- R110: TRET restores LOOPST from TRAPLS, clearing it where TRAPPC lies outside its body, leaves trap mode and resumes at
TRAPPC; after FIRING the budget restarts. Outside trap mode it traps ILLOP with its word. -/
def Obligations.TrapReturn : Prop := ∀ (s : State) (w : BitVec 32),
  let ls := lsMask s.seq.tr.ls
  let outside := lsActive ls = true ∧
    (s.seq.tr.pc.toNat < lsStart ls ∨ lsStart ls + lsLen ls ≤ s.seq.tr.pc.toNat)
  (s.seq.tr.tm = true → Gives .tret s fun t =>
      t.seq.pc = s.seq.tr.pc ∧ t.seq.tr.tm = false
      ∧ (outside → t.seq.loopst = 0) ∧ (¬ outside → t.seq.loopst = ls)
      ∧ (s.seq.tr.cause = 0x07 → t.seq.budget = 0) ∧ (s.seq.tr.cause ≠ 0x07 → t.seq.budget = s.seq.budget)
      ∧ t.seq = { s.seq with
          pc := t.seq.pc, loopst := t.seq.loopst, budget := t.seq.budget, wait := {}, tr := { s.seq.tr with tm := false } }
      ∧ OnlySeq s t)
  ∧ (TakesTraps s → Gives .tret s (TrapsTo s · 0x01 (wordOf .tret) s.seq.pc s.seq.loopst))
  ∧ decodeControl 0xA6000000 = some .tret
  ∧ (w.extractLsb' 25 7 = 0x53 → w.extractLsb' 0 25 ≠ 0 → TakesTraps s → TrapsIllop s w)

/-- R153, R166, R168: a load from the private-memory window gives the destination the bytes, sign- or zero-extended,
and leaves every byte of memory as it was. Once the task of the open span is aborted it gives a free value (R295, log
23). R153, R166, R169: a store to the private-memory window writes the low bytes of its register, lowest first, and
nothing else in any memory; no register changes. Once the task of the open span is aborted it writes nothing (R295). -/
def Obligations.PrivateMemory : Prop :=
  (∀ (s : State) (d b : BitVec 5) (off : BitVec 12) (o : Nat),
  let m := fun n => memNat (s.cell s.focus.cell).priv o n
  let dead := s.suppressed (s.seqWho s.focus.cell)
  let at' := fun n => PrivAt (s.seq.getG b) (off.signExtend 48) n o ∧ dead = false
  let free := fun i => Gives i s fun t => ∃ v, WritesReg { s with freeCtr := t.freeCtr } t d v
  (dead = true → PrivAt (s.seq.getG b) (off.signExtend 48) 8 o → free (.ldB d b off) ∧ free (.ldBu d b off) ∧ free (.ldH d b off)
    ∧ free (.ldHu d b off) ∧ free (.ldW d b off) ∧ free (.ldWu d b off) ∧ free (.ldD d b off))
  ∧ (at' 1 → Gives (.ldB d b off) s (WritesReg s · d ((BitVec.ofNat 8 (m 1)).signExtend 64))
    ∧ Gives (.ldBu d b off) s (WritesReg s · d (BitVec.ofNat 64 (m 1))))
  ∧ (at' 2 → Gives (.ldH d b off) s (WritesReg s · d ((BitVec.ofNat 16 (m 2)).signExtend 64))
    ∧ Gives (.ldHu d b off) s (WritesReg s · d (BitVec.ofNat 64 (m 2))))
  ∧ (at' 4 → Gives (.ldW d b off) s (WritesReg s · d ((BitVec.ofNat 32 (m 4)).signExtend 64))
    ∧ Gives (.ldWu d b off) s (WritesReg s · d (BitVec.ofNat 64 (m 4))))
  ∧ (at' 8 → Gives (.ldD d b off) s (WritesReg s · d (BitVec.ofNat 64 (m 8)))))
  ∧ (∀ (s : State) (v b : BitVec 5) (off : BitVec 12) (o : Nat),
  let dead := s.suppressed (s.seqWho s.focus.cell)
  let at' := fun n => PrivAt (s.seq.getG b) (off.signExtend 48) n o ∧ dead = false
  let none' := fun i => Gives i s (WritesReg s · 0 0)
  let does := fun n t => WritesPriv s t o n (s.seq.getG v).toNat ∧ GoesOn s t
    ∧ { t.seq with pc := s.seq.pc, loopst := s.seq.loopst, wait := s.seq.wait } = s.seq
  (dead = true → PrivAt (s.seq.getG b) (off.signExtend 48) 8 o →
    none' (.stB v b off) ∧ none' (.stH v b off) ∧ none' (.stW v b off) ∧ none' (.stD v b off))
  ∧ (at' 1 → Gives (.stB v b off) s (does 1)) ∧ (at' 2 → Gives (.stH v b off) s (does 2))
  ∧ (at' 4 → Gives (.stW v b off) s (does 4)) ∧ (at' 8 → Gives (.stD v b off) s (does 8)))

/-- R171, R172: the integer atomics on private memory. The old value is returned; ACAS writes only on a match with
g[d]. R171, R172: the 4-byte atomics on private memory: AADD.W returns the old word sign-extended, the floating adds
return it zero-extended and round each sum once to nearest even. -/
def Obligations.PrivateAtomics : Prop :=
  (∀ (s : State) (d a b : BitVec 5) (o : Nat),
  let y := s.seq.getG b
  let w := fun (x : Nat) => BitVec.ofNat 64 x
  PrivAt (s.seq.getG a) 0 8 o → o % 8 = 0 → s.suppressed (s.seqWho s.focus.cell) = false →
  Gives (.aaddD d a b) s (AtomicPriv s · d o 8 (fun x => some ((x + y.toNat) % 2 ^ 64)) w)
  ∧ Gives (.aminS d a b) s (AtomicPriv s · d o 8 (fun x => some (if (w x).toInt ≤ y.toInt then x else y.toNat)) w)
  ∧ Gives (.aminU d a b) s (AtomicPriv s · d o 8 (fun x => some (if x ≤ y.toNat then x else y.toNat)) w)
  ∧ Gives (.amaxS d a b) s (AtomicPriv s · d o 8 (fun x => some (if (w x).toInt ≤ y.toInt then y.toNat else x)) w)
  ∧ Gives (.amaxU d a b) s (AtomicPriv s · d o 8 (fun x => some (if x ≤ y.toNat then y.toNat else x)) w)
  ∧ Gives (.alogAnd d a b) s (AtomicPriv s · d o 8 (fun x => some (x &&& y.toNat)) w)
  ∧ Gives (.alogOr d a b) s (AtomicPriv s · d o 8 (fun x => some (x ||| y.toNat)) w)
  ∧ Gives (.alogXor d a b) s (AtomicPriv s · d o 8 (fun x => some (x ^^^ y.toNat)) w)
  ∧ Gives (.axch d a b) s (AtomicPriv s · d o 8 (fun _ => some y.toNat) w)
  ∧ Gives (.acas d a b) s
      (AtomicPriv s · d o 8 (fun x => if x = (s.seq.getG d).toNat then some y.toNat else none) w))
  ∧ (∀ (s : State) (d a b : BitVec 5) (o : Nat),
  let y := s.seq.getG b
  PrivAt (s.seq.getG a) 0 4 o → o % 4 = 0 → s.suppressed (s.seqWho s.focus.cell) = false →
  Gives (.aaddW d a b) s (AtomicPriv s · d o 4 (fun x => some ((x + y.toNat) % 2 ^ 32))
      (fun x => (BitVec.ofNat 32 x).signExtend 64))
  ∧ Gives (.afaddF32 d a b) s (AtomicPriv s · d o 4
      (fun x => some (f32add (BitVec.ofNat 32 x) (y.setWidth 32)).toNat) (fun x => BitVec.ofNat 64 x))
  ∧ Gives (.afaddBf16x2 d a b) s (AtomicPriv s · d o 4
      (fun x => some ((bf16add (BitVec.ofNat 16 x) (y.setWidth 16)).toNat
        + 65536 * (bf16add (BitVec.ofNat 16 (x / 65536)) ((y >>> 16).setWidth 16)).toNat))
      (fun x => BitVec.ofNat 64 x)))

/-- R166-R170: every load and store on every path. Where the access is performed, the load's value and the program
counter are all that the sequencer gains over the state the access leaves; where a check refuses it, the instruction
traps with the cause and the address, and performs nothing. R153, R171, R167, R159: an access of the sequencer that
leaves its window traps PERM with the address; an atomic or MARM off its natural alignment traps MISALIGN with it, and
that alignment stands before every other check is the model's reading (log 29, DEDUCED). A load that meets poison is
held, and its trap comes with the response. -/
def Obligations.AccessFates : Prop :=
  (∀ (s : State) (d b : BitVec 5) (off : BitVec 12),
  let va := vaPlus (s.seq.getG b) (off.signExtend 48)
  let w := s.seqWho s.focus.cell
  let ld := fun n => s.readVa w va n
  let st := fun n => s.writeVa w va (natLe (s.seq.getG d).toNat n)
  (∀ bs s', (ld 1 = .ok (bs, s') → Gives (.ldB d b off) s (WritesReg s' · d (loadValue bs true))
        ∧ Gives (.ldBu d b off) s (WritesReg s' · d (loadValue bs false)))
      ∧ (ld 2 = .ok (bs, s') → Gives (.ldH d b off) s (WritesReg s' · d (loadValue bs true))
        ∧ Gives (.ldHu d b off) s (WritesReg s' · d (loadValue bs false)))
      ∧ (ld 4 = .ok (bs, s') → Gives (.ldW d b off) s (WritesReg s' · d (loadValue bs true))
        ∧ Gives (.ldWu d b off) s (WritesReg s' · d (loadValue bs false)))
      ∧ (ld 8 = .ok (bs, s') → Gives (.ldD d b off) s (WritesReg s' · d (loadValue bs false))))
  ∧ (∀ s', (st 1 = .ok s' → Gives (.stB d b off) s (WritesReg s' · 0 0))
      ∧ (st 2 = .ok s' → Gives (.stH d b off) s (WritesReg s' · 0 0))
      ∧ (st 4 = .ok s' → Gives (.stW d b off) s (WritesReg s' · 0 0))
      ∧ (st 8 = .ok s' → Gives (.stD d b off) s (WritesReg s' · 0 0)))
  ∧ (∀ cause v, TakesTraps s → cause ≠ 0x06 →
      let traps := fun i => Gives i s (TrapsTo s · cause v s.seq.pc s.seq.loopst)
      let bad : AccFail := .bad cause v
      (ld 1 = .error bad → traps (.ldB d b off) ∧ traps (.ldBu d b off))
      ∧ (ld 2 = .error bad → traps (.ldH d b off) ∧ traps (.ldHu d b off))
      ∧ (ld 4 = .error bad → traps (.ldW d b off) ∧ traps (.ldWu d b off))
      ∧ (ld 8 = .error bad → traps (.ldD d b off))
      ∧ (st 1 = .error bad → traps (.stB d b off)) ∧ (st 2 = .error bad → traps (.stH d b off))
      ∧ (st 4 = .error bad → traps (.stW d b off)) ∧ (st 8 = .error bad → traps (.stD d b off))))
  ∧ (∀ (s : State) (d a b : BitVec 5) (off : BitVec 12) (v : Word),
  let va := vaPlus (s.seq.getG b) (off.signExtend 48)
  let x := s.seq.getG a
  let mis := fun i => Gives i s (TrapsTo s · 0x03 x s.seq.pc s.seq.loopst)
  let poison := fun n => s.readVa (s.seqWho s.focus.cell) va n = .error (.bad 0x06 v)
  let held := fun i => Gives i s fun t =>
    t.seq.wait = { hold := some { va := v, kind := .read, trap := some (0x06, v) }, stall := 1 } ∧ Waits s t
  (poison 1 → held (.ldB d b off) ∧ held (.ldBu d b off)) ∧ (poison 2 → held (.ldH d b off) ∧ held (.ldHu d b off))
  ∧ (poison 4 → held (.ldW d b off) ∧ held (.ldWu d b off)) ∧ (poison 8 → held (.ldD d b off))
  ∧ (TakesTraps s →
  (vaTensor va = 0xFFFF → 0x4000 < vaOff va + 8 → vaOff va % 65536 + 8 ≤ 65536 →
    s.suppressed (s.seqWho s.focus.cell) = false →
      Gives (.ldD d b off) s (TrapsTo s · 0x05 va s.seq.pc s.seq.loopst)
      ∧ Gives (.stD d b off) s (TrapsTo s · 0x05 va s.seq.pc s.seq.loopst))
  ∧ (va.toNat % 8 ≠ 0 → Gives (.marm d b off) s (TrapsTo s · 0x03 va s.seq.pc s.seq.loopst))
  ∧ (x.toNat % 8 ≠ 0 → mis (.aaddD d a b) ∧ mis (.aminS d a b) ∧ mis (.aminU d a b) ∧ mis (.amaxS d a b)
      ∧ mis (.amaxU d a b) ∧ mis (.alogAnd d a b) ∧ mis (.alogOr d a b) ∧ mis (.alogXor d a b) ∧ mis (.axch d a b)
      ∧ mis (.acas d a b))
  ∧ (x.toNat % 4 ≠ 0 → mis (.aaddW d a b) ∧ mis (.afaddF32 d a b) ∧ mis (.afaddBf16x2 d a b))))

/-- R189, R190, R206: MARM arms the monitor on 8 readable aligned bytes. MWAIT returns them once they differ from the
reference, disarming the monitor and dropping what is clean of the data cache; until then it waits, and MONITOR_WAKE returns
them. Once the task of the open span is aborted MARM arms all the same and MWAIT returns a free value (R295, log 23). -/
def Obligations.MonitorInstructions : Prop := ∀ (s : State) (d v b : BitVec 5) (off : BitVec 12) (x : Word),
  let va := vaPlus (s.seq.getG b) (off.signExtend 48)
  let c := s.focus.cell
  let w := s.seqWho c
  let took := fun (t : State) (x : Word) => t.seqAt c = ({ s.seqAt c with
      mon := { (s.seqAt c).mon with armed := false } }.setG d x).stepPc
    ∧ (Rises (s.cell c).dc → ∀ e ∈ (t.cell c).dc, e.2.dirty ≠ 0 ∧ ∃ l, (e.1, l) ∈ (s.cell c).dc ∧ l.dirty = e.2.dirty
      ∧ ∀ i, i < 64 → l.dirty.getLsbD i = true → byteOf e.2.data i = byteOf l.data i)
    ∧ ∀ y, y ≠ c → t.cell y = s.cell y
  let returned := fun (t : State) => t = s.mwaitReturn c d x ∧ took t x
  (va.toNat % 8 = 0 → ((∃ r, s.locate w .rd va 8 = .ok r) ∨ s.locate w .rd va 8 = .error .supp) →
      Gives (.marm v b off) s fun t =>
        t.seq = { s.seq with mon := { addr := va, ref := s.seq.getG v, armed := true } }.stepPc ∧ OnlySeq s t)
  ∧ (s.seq.mon.armed = true → s.homeVa w s.seq.mon.addr = .error .supp → Gives (.mwait d) s fun t => ∃ y, took t y)
  ∧ (s.seq.mon.armed = true → s.homeVa w s.seq.mon.addr = .ok x → x ≠ s.seq.mon.ref → Gives (.mwait d) s returned)
  ∧ (s.seq.mon.armed = true → s.homeVa w s.seq.mon.addr = .ok s.seq.mon.ref → Gives (.mwait d) s fun t =>
      t.seq = { s.seq with wait := { mwait := some d } } ∧ OnlySeq s t)
  ∧ ((s.seqAt c).wait.mwait = some d → s.homeVa w (s.seqAt c).mon.addr = .ok x → x ≠ (s.seqAt c).mon.ref →
      s.cellLive c = true → (s.seqAt c).dbg = false → Gives (.monitorWake c) s returned)
  ∧ (TakesTraps s → s.seq.mon.armed = false →
      Gives (.mwait d) s (TrapsTo s · 0x01 (wordOf (.mwait d)) s.seq.pc s.seq.loopst))

/-- R195, R201, R408: what a fence at an assigned scope does. It completes with no register written. At scope cell it
only orders. A release writes the dirty bytes that the scope reaches (those of kind UN from partition scope on) back
from the cell's cache to its die, and past one bay on to HBM; an acquire discards the clean lines too, so that a clean
line of the die shows what HBM holds. Scope 7 traps ILLOP. That caches list their lines in rising order is part of the
invariant that every step keeps. R203: XFENCE with assigned scope and classes sends its markers and waits; when they
are acknowledged it completes with no register written. Then no die of the scope holds a dirty byte that the scope
reaches or a clean line, nor does a cell of the scope where FROM and TO are both SEQ. Else it traps ILLOP. Rising
caches are part of the invariant that every step keeps. -/
def Obligations.Fences : Prop :=
  (∀ (s : State) (scope : BitVec 3),
  let c := s.focus.cell
  let d := dieOf c
  let reach := fun (l : Line) => if 4 ≤ scope.toNat then l.dirty else l.dirty &&& ~~~l.un
  let ends := fun (t : State) => t.seq = s.seq.stepPc ∧ (∀ x, x ≠ c → t.cell x = s.cell x)
    ∧ t.cell c = { s.cell c with seq := t.seq, dc := (t.cell c).dc }
    ∧ (∀ e, e ≠ d → t.dieCache e = s.dieCache e)
    ∧ { t with cells := s.cells, freeCtr := s.freeCtr, mem := { t.mem with hbm := s.mem.hbm, die := s.mem.die } } = s
  let out := fun (t : State) => (∀ e ∈ (t.cell c).dc, reach e.2 = 0)
    ∧ (1 < scope.toNat → ∀ e ∈ t.dieCache d, reach e.2 = 0)
    ∧ ∀ e ∈ (s.cell c).dc, ∀ i, i < 64 → (reach e.2).getLsbD i = true →
      memRead t.mem.hbm (64 * e.1 + i) = byteOf e.2.data i
      ∨ (scope = 1 ∧ ∃ l ∈ t.dieCache d, l.1 = e.1 ∧ byteOf l.2.data i = byteOf e.2.data i)
  let fresh := fun (t : State) => (∀ e ∈ (t.cell c).dc, e.2.dirty ≠ 0)
    ∧ (1 < scope.toNat → ∀ e ∈ t.dieCache d, e.2.dirty ≠ 0 ∨ e.2.data = memLine t.mem.hbm e.1)
  (Gives (.fenceRel 0) s (WritesReg s · 0 0) ∧ Gives (.fenceAcq 0) s (WritesReg s · 0 0)
    ∧ Gives (.fenceFull 0) s (WritesReg s · 0 0))
  ∧ (scope ≠ 7 → Gives (.fenceRel scope) s ends ∧ Gives (.fenceAcq scope) s ends ∧ Gives (.fenceFull scope) s ends)
  ∧ (scope ≠ 7 → scope ≠ 0 → Rises (s.cell c).dc → Rises (s.dieCache d) →
    Gives (.fenceRel scope) s out ∧ Gives (.fenceAcq scope) s (fun t => out t ∧ fresh t)
    ∧ Gives (.fenceFull scope) s fun t => out t ∧ fresh t)
  ∧ (TakesTraps s → Gives (.fenceRel 7) s (TrapsTo s · 0x01 (wordOf (.fenceRel 7)) s.seq.pc s.seq.loopst)
    ∧ Gives (.fenceAcq 7) s (TrapsTo s · 0x01 (wordOf (.fenceAcq 7)) s.seq.pc s.seq.loopst)
    ∧ Gives (.fenceFull 7) s (TrapsTo s · 0x01 (wordOf (.fenceFull 7)) s.seq.pc s.seq.loopst)))
  ∧ (∀ (s : State) (dst frm scope : BitVec 3),
  let c := s.focus.cell
  let reach := fun (l : Line) => if 4 ≤ scope.toNat then l.dirty else l.dirty &&& ~~~l.un
  let ends := fun (t u : State) => u.seq = s.seq.stepPc ∧ (∀ x, u.seqAt x = if x = c then s.seq.stepPc else t.seqAt x)
    ∧ (∀ x, (u.cell x).priv = (s.cell x).priv ∧ (u.cell x).m = (s.cell x).m ∧ (u.cell x).cnt = (s.cell x).cnt)
    ∧ u.hf = s.hf ∧ u.bays = s.bays
  (scope ≠ 7 → frm.toNat ≤ 5 → dst.toNat ≤ 5 →
    Gives (.xfence dst frm scope) s fun t =>
      t.seq = { s.seq with wait := { xfence := some (frm, dst, scope) } } ∧ OnlySeq s t
      ∧ (s.mayAnswer c = true → Gives (.xfenceComplete c) t fun u => ends t u
        ∧ ((∀ x, Rises (s.cell x).dc) → (∀ d, Rises (s.dieCache d)) →
          (dst ≠ 0 → ∀ d ∈ s.scopeDies c scope, ∀ e ∈ u.dieCache d, reach e.2 = 0 ∧ e.2.dirty ≠ 0)
          ∧ (dst = 0 → frm = 0 → ∀ x ∈ s.scopeCells c scope, ∀ e ∈ (u.cell x).dc, reach e.2 = 0 ∧ e.2.dirty ≠ 0))))
  ∧ (TakesTraps s → (scope = 7 ∨ 5 < frm.toNat ∨ 5 < dst.toNat) →
      Gives (.xfence dst frm scope) s (TrapsTo s · 0x01 (wordOf (.xfence dst frm scope)) s.seq.pc s.seq.loopst)))

/-- R327: a BAR releases at its scope as FENCE REL does. One that completes its subgroup's count of arrivals then
passes at once with an acquire, the entry's arrivals back at 0 and its generation one higher; one that does not waits
with ARR at 1. The subgroup is the rectangle that g[a] gives, within the graph's and holding the cell; its entry is
its own, or the first free one of sixteen. R327: a waiting BAR passes when the generation of its entry has changed:
ARR clears, and it acquires. -/
def Obligations.Barriers : Prop :=
  (∀ (s : State) (a b : BitVec 5) (scope : BitVec 3) (p : Nat) (g : Graph) (k x0 y0 wl hl : Nat),
  let c := s.focus.cell
  let grp := s.seq.getG a
  let n := s.seq.getG b
  let old := SMap.get {} g.barriers k
  let mine := fun j => (SMap.get {} g.barriers j).used = true ∧ (SMap.get {} g.barriers j).grp = grp
  let own := (mine k ∧ ∀ j < k, ¬ mine j)
    ∨ ((∀ j < 16, ¬ mine j) ∧ old.used = false ∧ ∀ j < k, (SMap.get {} g.barriers j).used = true)
  let e : Barrier := if old.used then old else { grp := grp, n := n.setWidth 16, used := true }
  let arrived := fun (e' : Barrier) => ((s.release c scope).modGraph p g.lid fun g =>
    { g with barriers := SMap.set g.barriers k e' }).setSeq
      { s.seq with barst := { arr := true, entry := BitVec.ofNat 4 k, gen := e.gen } }
  let rx := cellX c - 8 * g.ox
  let ry := cellY c - 8 * g.oy
  s.graphAt c = some (p, g) → s.graph p g.lid = some g → scope ≠ 7 → 1 ≤ n.toNat → n.toNat < 2 ^ 16 →
  grp.toNat = x0 + 2 ^ 8 * y0 + 2 ^ 16 * wl + 2 ^ 20 * hl → x0 < 2 ^ 7 → y0 < 2 ^ 7 → wl < 8 → hl < 8 →
  x0 % 2 ^ wl = 0 → y0 % 2 ^ hl = 0 → x0 + 2 ^ wl ≤ 8 * g.w → y0 + 2 ^ hl ≤ 8 * g.h →
  x0 ≤ rx → rx < x0 + 2 ^ wl → y0 ≤ ry → ry < y0 + 2 ^ hl → g.holds c = true →
  s.seq.barst.arr = false → k < 16 → own → e.n = n.setWidth 16 →
  (e.arrivals + 1 = e.n → Gives (.bar a b scope) s fun t =>
      t = ((arrived { e with arrivals := 0, gen := e.gen + 1 }).acquire c scope).setSeqAt c
        { s.seq with barst := { arr := false, entry := BitVec.ofNat 4 k, gen := e.gen } }.stepPc
      ∧ t.seq.barst.arr = false
      ∧ (∃ g', t.graph p g.lid = some g' ∧ SMap.get {} g'.barriers k = { e with arrivals := 0, gen := e.gen + 1 })
      ∧ GoesOn s t ∧ t.seq.g = s.seq.g ∧ ∀ x, x ≠ c → t.cell x = s.cell x)
  ∧ (e.arrivals + 1 ≠ e.n → Gives (.bar a b scope) s fun t =>
      t = (arrived { e with arrivals := e.arrivals + 1 }).setSeq
        { s.seq with barst := { arr := true, entry := BitVec.ofNat 4 k, gen := e.gen }, wait := { bar := some scope } }
      ∧ t.seq.barst = { arr := true, entry := BitVec.ofNat 4 k, gen := e.gen } ∧ t.seq.wait.bar = some scope
      ∧ t.seq.pc = s.seq.pc
      ∧ ∃ g', t.graph p g.lid = some g' ∧ SMap.get {} g'.barriers k = { e with arrivals := e.arrivals + 1 }))
  ∧ (∀ (s : State) (c p : Nat) (g : Graph) (scope : BitVec 3),
  let q := s.seqAt c
  q.wait.bar = some scope → s.graphAt c = some (p, g) → s.cellLive c = true → q.dbg = false →
  (SMap.get {} g.barriers q.barst.entry.toNat).gen ≠ q.barst.gen →
  Gives (.barWake c) s fun t => t = s.barDone c scope ∧ (t.seqAt c).barst.arr = false
    ∧ ((t.seqAt c).pc, (t.seqAt c).loopst) = nextPc ((s.acquire c scope).seqAt c).pc ((s.acquire c scope).seqAt c).loopst)

/-- R34, R35, R92: a free live sequencer that chooses slot k enters its actor: PC at the entry, LOOPST 0, ACTOR, g28,
g30 and g31 as the rules give, FIRES one higher, a0-a15 and the FIFOs kept. The other registers are free, TRAPPC and
TRAPLS among them; that the other trap registers are kept is the model's choice (log 2). R34: the choice. While a
low-level actor is owed and one is eligible, a low-level slot is chosen; else a high-level slot where one is eligible.
The chosen slot is the first eligible one after the last of its level, cyclically. R103, R112, R174, R305, R327: FEND
ends the firing: the monitor is disarmed, ARR cleared, trap mode left, and registers but TRAPPC and TRAPLS (log 2),
actor state, FIFOs and memory keep every value. In trap mode after UNDECL, PERM or POISON it first aborts the task of
the open span. -/
def Obligations.Firings : Prop :=
  (∀ (s : State) (c p : Nat) (g : Graph) (k : Nat) (d : Sched),
  let q := s.seqAt c
  let sl := (s.cell c).slot k
  let ok := fun (hi : Bool) (j : Nat) => ((s.cell c).slot j).eligible && ((s.cell c).slot j).prio == hi
  s.cellLive c = true → s.graphAt c = some (p, g) → g.yreq = false → q.running = false → q.stuck = false →
  q.dbg = false → q.pending = none → q.sched.choose (ok true) (ok false) = some (k, d) →
  k < 8 ∧ sl.eligible = true ∧ Gives (.actorFiringStart c) s fun t =>
    let r := t.seqAt c
    r.pc = sl.entry ∧ r.loopst = 0 ∧ r.running = true ∧ r.budget = 0 ∧ r.sched = d
    ∧ r.tr = { q.tr with pc := r.tr.pc, ls := r.tr.ls }
    ∧ r.actor.toNat = k + 8 * sl.prio.toNat
    ∧ r.getG 31 = 0xFFFF000000000000 ∧ (r.getG 28).toNat = 0xFFFF000000001800 + 0x100 * k
    ∧ (r.getG 30).toNat = 0xFFFF000000002400 + 0x400 * k
    ∧ (t.cell c).slot k = { sl with fires := sl.fires + 1 }
    ∧ (∀ j, j ≠ k → (t.cell c).slot j = (s.cell c).slot j) ∧ (∀ e, e ≠ c → t.cell e = s.cell e)
    ∧ t.mem = s.mem ∧ t.parts = s.parts)
  ∧ (∀ (d : Sched) (hi lo : Nat → Bool),
  let anyLo := ∃ k, k < 8 ∧ lo k = true
  let anyHi := ∃ k, k < 8 ∧ hi k = true
  let after := fun (last : BitVec 3) (ok : Nat → Bool) (k : Nat) => k < 8 ∧ ok k = true ∧
    ∀ j, j < 8 → ok j = true → (k + 7 - last.toNat) % 8 ≤ (j + 7 - last.toNat) % 8
  (anyHi → ¬ (d.lowOwed = true ∧ anyLo) → ∃ k e, d.choose hi lo = some (k, e) ∧ after d.hiLast hi k
      ∧ e.hiLast.toNat = k ∧ e.loLast = d.loLast
      ∧ (anyLo → e.hiRun = d.hiRun + 1 ∧ (e.hiRun = 16 → e.lowOwed = true)))
  ∧ (anyLo → (d.lowOwed = true ∨ ¬ anyHi) → ∃ k e, d.choose hi lo = some (k, e) ∧ after d.loLast lo k
      ∧ e.loLast.toNat = k ∧ e.hiLast = d.hiLast ∧ e.hiRun = 0 ∧ e.lowOwed = false)
  ∧ (¬ anyHi → ¬ anyLo → d.choose hi lo = none))
  ∧ (∀ (s : State) (p : Nat) (g : Graph) (k : Task),
  let c := s.focus.cell
  let q := s.seq
  let hard := q.tr.tm = true ∧ (q.tr.cause = 0x04 ∨ q.tr.cause = 0x05 ∨ q.tr.cause = 0x06) ∧ s.runSlot.spanOpen = true
  (¬ hard → Gives .fend s fun t =>
    t.seq = { q with
      running := false, mon := { q.mon with armed := false }, barst := { q.barst with arr := false }, wait := {}
      tr := { q.tr with tm := false, pc := t.seq.tr.pc, ls := t.seq.tr.ls } }
    ∧ (t.cell c).slot q.slotNo = { s.runSlot with
      spanOpen := s.runSlot.spanOpen && !s.runSlot.closing, closing := false, sinkTook := [] }
    ∧ t.mem = s.mem ∧ (∀ d, d ≠ c → t.cell d = s.cell d))
  ∧ (hard → s.graphAt c = some (p, g) → g.taskOf s.runSlot.spanid = some k → Gives .fend s fun t =>
    t = (s.abortTask p g.lid k.x k.y 2 q.tr.cause.toNat (vaOff q.tr.value)
      { cell := c, pc := 4 * q.pc.toNat, port := 0x80 }).endFiring c))

/-- R88-R90: SRR of every assigned number gives the register, zero-extended; an unassigned number traps ILLOP. R90:
SRW writes the P fields of a register and leaves its other fields; TRAPPC, TRAPV and TRAPLS change only in trap mode;
a register of C or H fields keeps its value; FMODE traps PRIV; an unassigned number traps ILLOP. -/
def Obligations.SystemRegisters : Prop :=
  (∀ (s : State) (d : BitVec 5) (sel : BitVec 15),
  let c := s.focus.cell
  let q := s.seq
  let sl := s.runSlot
  let n := sel.toNat
  let reads := fun (v : Word) => Gives (.srr d sel) s (WritesReg s · d v)
  (n = 0x00 → reads (BitVec.ofNat 64 (c % 96 + c / 96 * 2 ^ 8 + dieOf c * 2 ^ 16 + kindOf c * 2 ^ 18)))
  ∧ (n = 0x01 → reads (BitVec.ofNat 64 (c % 96 / 8 + c / 96 / 8 * 2 ^ 4 + (c / 96 / 8 * 12 + c % 96 / 8) * 2 ^ 8
      + (s.partOf c).getD 0 * 2 ^ 16)))
  ∧ (n = 0x02 → reads (sl.taskxy.setWidth 64)) ∧ (n = 0x03 → reads sl.spanid)
  ∧ (n = 0x04 → reads (q.actor.setWidth 64)) ∧ (n = 0x05 → reads sl.fires)
  ∧ (n = 0x08 → reads (q.tr.vec &&& 0x3FFD)) ∧ (n = 0x09 → reads (q.tr.cause.setWidth 64))
  ∧ (n = 0x0A → reads (BitVec.ofNat 64 (4 * q.tr.pc.toNat))) ∧ (n = 0x0B → reads q.tr.value)
  ∧ (n = 0x0C → reads q.tr.ls)
  ∧ (n = 0x0D → reads (BitVec.ofNat 64 (q.tr.tm.toNat + 2 * (q.loopst.getLsbD 63).toNat + 256 * q.tr.lastc.toNat)))
  ∧ (n = 0x0E → reads (BitVec.ofNat 64 (q.tr.be.toNat + 2 * q.tr.ss.toNat)))
  ∧ (n = 0x0F → reads s.tbase)
  ∧ (n = 0x10 → reads (BitVec.ofNat 64 (s.part ((s.partOf c).getD 0)).fq.ring.toNat))
  ∧ (n = 0x11 → reads q.lk) ∧ (n = 0x12 → reads q.loopst)
  ∧ (0x20 ≤ n → n < 0x30 → reads (SMap.get 0 sl.a (n - 0x20)))
  ∧ (TakesTraps s → (n = 0x06 ∨ n = 0x07 ∨ (0x13 ≤ n ∧ n < 0x20) ∨ 0x30 ≤ n) →
      Gives (.srr d sel) s (TrapsTo s · 0x01 (wordOf (.srr d sel)) s.seq.pc s.seq.loopst)))
  ∧ (∀ (s : State) (a : BitVec 5) (sel : BitVec 15),
  let q := s.seq
  let v := q.getG a
  let n := sel.toNat
  let i : Instr := .srw a sel
  let sets := fun (q' : Seq) => Gives i s fun t => t.seq = q'.stepPc ∧ OnlySeq s t
  (n = 0x08 → sets { q with tr := { q.tr with vec := v &&& 0x3FFD } })
  ∧ (n = 0x0A → q.tr.tm = true → sets { q with tr := { q.tr with pc := (v >>> 2).setWidth 12 } })
  ∧ (n = 0x0B → q.tr.tm = true → sets { q with tr := { q.tr with value := v } })
  ∧ (n = 0x0C → q.tr.tm = true → sets { q with tr := { q.tr with ls := lsMask v } })
  ∧ (n = 0x0E → sets { q with tr := { q.tr with be := v.getLsbD 0 } })
  ∧ (n = 0x11 → sets { q with lk := v })
  ∧ ((n ≤ 0x05 ∨ n = 0x09 ∨ n = 0x0D ∨ n = 0x0F ∨ n = 0x12
      ∨ (q.tr.tm = false ∧ (n = 0x0A ∨ n = 0x0B ∨ n = 0x0C))) → Gives i s (WritesReg s · 0 0))
  ∧ (0x20 ≤ n → n < 0x30 → Gives i s fun t =>
      t = (s.modRunSlot fun sl => { sl with a := SMap.set sl.a (n - 0x20) v }).setSeq q.stepPc)
  ∧ (TakesTraps s → n = 0x10 → Gives i s (TrapsTo s · 0x02 0x10 s.seq.pc s.seq.loopst))
  ∧ (TakesTraps s → (n = 0x06 ∨ n = 0x07 ∨ (0x13 ≤ n ∧ n < 0x20) ∨ 0x30 ≤ n) →
      Gives i s (TrapsTo s · 0x01 (wordOf i) s.seq.pc s.seq.loopst)))

/-- R218: TAKE and PEEK of a bound port that holds the token give the part asked for; TAKE removes the head and
follows an SOT in TASKXY and SPANID; PEEK changes no FIFO. A payload asked for is stored first. With too few tokens
they wait. R219: EMIT and EMITS append one token to a bound emit port with room, and change no register. EMITS reads a
payload only where the head's PL asks for it. -/
def Obligations.ActorPorts : Prop :=
  (∀ (s : State) (d a : BitVec 5) (depth : BitVec 3) (pay : BitVec 1) (part port : BitVec 2) (k : Token) (s' : State),
  let sl := s.runSlot
  let n := port.toNat
  let fifo := SMap.get [] sl.inq n
  let v := if part = 0 then k.ref else if part = 1 then k.coord.setWidth 64 else tkHead k
  let stored := if pay = 1 ∧ k.pl = true then
      s.writeVa (s.seqWho s.focus.cell) (s.seq.getG a) (natLe k.payload.toNat 64) = .ok s' else s' = s
  part ≠ 3 → (pay = 0 → a = 0) → (s.cell s.focus.cell).inBound (0x30 + 4 * s.seq.slotNo + n) = true →
  (fifo[depth.toNat]? = some k → stored → Gives (.peek d a depth pay part port) s (WritesReg s' · d v))
  ∧ (fifo[0]? = some k → stored → Gives (.take d a pay part port) s
      (WritesReg (s'.modRunSlot fun sl => sl.taken n k (fifo.drop 1)) · d v))
  ∧ (k.kind = 3 → (sl.taken n k (fifo.drop 1)).spanid = k.ref
      ∧ (sl.taken n k (fifo.drop 1)).taskxy = k.coord &&& 0x0FFF0FFF)
  ∧ SMap.get [] (sl.taken n k (fifo.drop 1)).inq n = fifo.drop 1
  ∧ (fifo.length ≤ depth.toNat → Gives (.peek d a depth pay part port) s (Waits s))
  ∧ (fifo = [] → Gives (.take d a pay part port) s (Waits s)))
  ∧ (∀ (s : State) (d a b c : BitVec 5) (n : BitVec 2) (bs : List Byte) (s' : State),
  let h := s.seq.getG a
  let full := (SMap.get [] s.runSlot.outq n.toNat).length ≥ 8
  let appends := fun (s' : State) (k : Token) (t : State) => t = (s'.modRunSlot fun sl =>
    { sl with outq := SMap.set sl.outq n.toNat (SMap.get [] sl.outq n.toNat ++ [k]) }).setSeq s'.seq.stepPc
  (s.cell s.focus.cell).outBound (4 * s.seq.slotNo + n.toNat) = true →
  (¬ full → Gives (.emit d a n) s (appends s { coord := (s.seq.getG d).setWidth 32, ref := h }))
  ∧ (¬ full → h.toNat % 16 < 8 → h.toNat / 2 ^ 12 % 16 = 0 →
      (h.getLsbD 7 = false → c = 0 → Gives (.emits a b c n) s (appends s (tkOfHead h (s.seq.getG b) 0)))
      ∧ (h.getLsbD 7 = true → s.readVa (s.seqWho s.focus.cell) (s.seq.getG c) 64 = .ok (bs, s') →
          Gives (.emits a b c n) s (appends s' (tkOfHead h (s.seq.getG b) (BitVec.ofNat 512 (leNat bs))))))
  ∧ (full → Gives (.emit d a n) s (Waits s)))

/-- R36, R107, R109, R191: a running firing whose budget is spent traps FIRING at its boundary, with the next
instruction as the resume address and 65,536 as the value; no further instruction of it issues before that. While an
access other than an MWAIT's is held, an XFENCE waits, or a latched trap is due first (R113), the event does nothing.
R113, R167, R333, R334: the response of a held access: with no fault found and its port free the access is performed
and its instruction completes, also in a drain; a fault found is taken as its trap, or latched while the cell is
halted. A cell whose freeze is raised answers nothing, which is the model's choice (log 20). R89, R113: the headframe
debugger halts a cell at an instruction boundary, lets it go on, and writes MODE.SS and words of the code store. -/
def Obligations.BoundaryEvents : Prop :=
  (∀ (s : State),
  let c := s.focus.cell
  65536 < s.seq.budget → s.seq.stuck = false → s.seq.dbg = false → s.cellLive c = true → TakesTraps s →
  (s.seq.running = true → (∀ h, s.seq.wait.hold = some h → h.mwait = true) → s.seq.wait.xfence = none → s.seq.pending = none →
    Gives (.firingBudgetExpiry c) s (TrapsTo s · 0x07 65536 s.seq.pc s.seq.loopst))
  ∧ (c < 9216 → s.mayIssue c = true → s.seq.pending = none →
    ∃ t, s.issue c = .next t ∧ TrapsTo s t 0x07 65536 s.seq.pc s.seq.loopst)
  ∧ ((∃ h, s.seq.wait.hold = some h ∧ h.mwait = false) ∨ s.seq.wait.xfence ≠ none ∨ s.seq.pending ≠ none → Gives (.firingBudgetExpiry c) s (· = s)))
  ∧ (∀ (s : State) (h : Hold) (cause : BitVec 8) (v : Word),
  let c := s.focus.cell
  let s0 : State := { s.setSeq { s.seq with wait := {} } with focus := { cell := c } }
  s.seq.wait.hold = some h →
  (s.mayAnswer c = false → Gives (.seqAccessResponse c none) s (· = s)) ∧ (s.mayAnswer c = true →
  (h.trap = none → h.stopped = false → s.portBusy c 0x80 = false →
    (∀ d b off bs s', decodeControl (s.codeWord c s.seq.pc) = some (.ldD d b off) → s.halted c = false →
      s0.readVa (s.seqWho c) (vaPlus (s.seq.getG b) (offS12 off)) 8 = .ok (bs, s') →
      Gives (.seqAccessResponse c none) s (WritesReg s' · d (BitVec.ofNat 64 (leNat bs))))
    ∧ (∀ i, decodeControl (s.codeWord c s.seq.pc) = some i → s.halted c = false →
      exec (.seqAccessResponse c none) s = s0.perform i))
  ∧ (h.trap = some (cause, v) → s.halted c = false → TakesTraps s →
    Gives (.seqAccessResponse c none) s (TrapsTo s · cause v s.seq.pc s.seq.loopst))
  ∧ (h.trap = some (cause, v) → s.halted c = true →
    Gives (.seqAccessResponse c none) s fun t =>
      t.seq = { s.seq with wait := {}, pending := some (cause, v) } ∧ OnlySeq s t)))
  ∧ (∀ (s : State) (ss : Bool) (a : Nat) (w : BitVec 32),
  let c := s.focus.cell
  c < 9216 →
  (s.halted c = false → s.seq.boundary = true →
    Gives (.debugHalt c) s fun t => t.seq = { s.seq with dbg := true, wait := {} } ∧ OnlySeq s t)
  ∧ (s.seq.dbg = true → Gives (.debuggerResume c) s fun t => t.seq = { s.seq with dbg := false } ∧ OnlySeq s t)
  ∧ (a < 4096 → Gives (.debugPathWrite c (some ss) (some (a, w))) s fun t =>
      t.seq = { s.seq with tr := { s.seq.tr with ss := ss } }
      ∧ (∀ k, memRead (t.cell c).code k =
          if 4 * a ≤ k ∧ k < 4 * a + 4 then BitVec.ofNat 8 (w.toNat / 256 ^ (k - 4 * a)) else memRead (s.cell c).code k)
      ∧ (t.cell c).priv = (s.cell c).priv ∧ t.mem = s.mem))

/-- R3, R322, R324, R325: CNTR gives the counter named, zero-extended; CNTW writes a P counter, after which the events of its
own tick count, leaves a C or H counter, and traps PRIV on an S counter. A number that the cell's kind does not assign, non-zero
sel15[14:7], or an index register named for an unindexed counter traps ILLOP with the word; an index out of the counter's range,
or a window id that names no shadow window, traps it with the index. -/
def Obligations.Counters : Prop := ∀ (s : State) (d a : BitVec 5) (n : BitVec 7) (w : BitVec 32),
  let c := s.focus.cell
  let k := n.toNat
  let x := s.cell c
  let assigned := k ≤ 0x04 ∨ (kindOf c = 0 ∧ (0x08 ≤ k ∧ k ≤ 0x0D ∨ k = 0x10)) ∨ (0x11 ≤ k ∧ k ≤ 0x14) ∨ (0x18 ≤ k ∧ k ≤ 0x21)
    ∨ (0x28 ≤ k ∧ k ≤ 0x2A) ∨ (0x40 ≤ k ∧ k ≤ 0x45) ∨ (kindOf c = 2 ∧ (k = 0x46 ∨ k = 0x47))
  let indexed := (0x10 ≤ k ∧ k ≤ 0x13) ∨ k = 0x18 ∨ k = 0x1D ∨ k = 0x1F ∨ (0x28 ≤ k ∧ k ≤ 0x2A)
  let window := fun (v : Word) =>
    let e := s.desc ((s.partOf c).getD 0) (bayOf c) v.toNat
    v.toNat < 0xFFFE ∧ e.v = true ∧ e.ok = true ∧ e.shadow = true
  let inRange := fun (v : Word) => (0x10 ≤ k ∧ k ≤ 0x12 → v.toNat < 32) ∧ ((k = 0x13 ∨ k = 0x1D) → v.toNat < 16)
    ∧ (k = 0x18 → window v) ∧ (k = 0x1F → v.toNat < 64) ∧ ((k = 0x28 ∨ k = 0x29) → v.toNat < 8) ∧ (k = 0x2A → v.toNat < 18)
  let ok := fun (r : BitVec 5) => assigned ∧ (¬ indexed → r = 0) ∧ inRange (s.seq.getG r)
  let rd : Instr := .cntr d a n
  let wr : Instr := .cntw d a n
  (ok a → Gives rd s (WritesReg s · d (s.cntValue c k (s.seq.getG a).toNat)))
  ∧ (k = 0x00 → s.cntValue c k 0 = s.tbase) ∧ (0x40 ≤ k → k ≤ 0x47 → s.cntValue c k 0 = SMap.get 0 x.cnt k)
  ∧ (∀ q, k = 0x10 → s.cntValue c k q = BitVec.ofNat 64 (SMap.get {} x.m.queues q).toks.length)
  ∧ (k = 0x08 → s.cntValue c k 0 = x.m.copy.seq.setWidth 64) ∧ (k = 0x09 → s.cntValue c k 0 = x.m.fill.seq.setWidth 64)
  ∧ (ok d → 0x40 ≤ k → Gives wr s fun t =>
      t = (s.modCell c fun x => { x with cnt := SMap.set x.cnt k (s.seq.getG a + SMap.get 0 x.now k) }).setSeq s.seq.stepPc)
  ∧ (ok d → k < 0x40 → k ≠ 0x04 → ¬ (0x28 ≤ k ∧ k ≤ 0x2A) → Gives wr s (WritesReg s · 0 0))
  ∧ (TakesTraps s → ok d → (k = 0x04 ∨ (0x28 ≤ k ∧ k ≤ 0x2A)) →
      Gives wr s (TrapsTo s · 0x02 (BitVec.ofNat 64 k) s.seq.pc s.seq.loopst))
  ∧ (TakesTraps s → (¬ assigned ∨ (¬ indexed ∧ a ≠ 0)) → Gives rd s (TrapsTo s · 0x01 (wordOf rd) s.seq.pc s.seq.loopst))
  ∧ (TakesTraps s → (¬ assigned ∨ (¬ indexed ∧ d ≠ 0)) → Gives wr s (TrapsTo s · 0x01 (wordOf wr) s.seq.pc s.seq.loopst))
  ∧ (TakesTraps s → assigned → indexed → ¬ inRange (s.seq.getG a) →
      Gives rd s (TrapsTo s · 0x01 (s.seq.getG a) s.seq.pc s.seq.loopst))
  ∧ (TakesTraps s → assigned → indexed → ¬ inRange (s.seq.getG d) →
      Gives wr s (TrapsTo s · 0x01 (s.seq.getG d) s.seq.pc s.seq.loopst))
  ∧ ((w.extractLsb' 25 7 = 0x49 ∨ w.extractLsb' 25 7 = 0x4A) → w.extractLsb' 7 8 ≠ 0 → TakesTraps s → TrapsIllop s w)

/-- R176, R177: a COPY that passes every check of issue joins its engine's queue with the stamp number the engine
gives next, and the sequencer goes on; while the queue holds sixteen it waits. The conditions are R177's, for a
destination in memory, a channel queue and the weight store. An aborted span's COPY joins the queue too: its accesses
are suppressed as it runs (R295). R177, R167: the checks of COPY at issue in their order: the first of the listed
conditions that holds traps with its cause and value. Where none holds, the first of the source's, the destination's
and the stamp slot's first bytes that an access may not have traps as R167 says, but for poison, which is the engine's
(log 93); and a queue's LEN off a multiple of 64 then traps MISALIGN. -/
def Obligations.CopyInstruction : Prop :=
  (∀ (s : State) (a b c : BitVec 5) (ws remote queue : BitVec 1) (retry : BitVec 3)
    (last chain : BitVec 1) (assay : BitVec 2) (m p : Nat) (g : Graph),
  let i : Instr := .copy a b c ws remote queue retry last chain assay
  let src := s.seq.getG a
  let dst := s.seq.getG b
  let gc := s.seq.getG c
  let len := gc.toNat % 2 ^ 32
  let cmd : CopyCmd :=
    { src := src, dst := dst, len := len, expect := (gc >>> 32).setWidth 32
      assay := assay, chain := chain == 1, last := last == 1, retry := retry.toNat, queue := queue == 1
      remote := remote == 1, ws := ws == 1, issuer := s.focus.cell, seq := (s.eng m).seq
      span := s.openSpan s.focus.cell }
  let held := (s.eng m).queue.length + (if (s.eng m).cur.isSome then 1 else 0)
  let stamp := mkVa (vaTensor dst) (vaOff dst + len)
  let d := s.desc p (bayOf m) (vaTensor dst)
  let at' := fun (need : Need) (va : Word) =>
    s.locate (probeWho (copyWho m cmd.span) s.focus.cell va) need va 1
  let may := fun (need : Need) (va : Word) => (∃ l, at' need va = .ok l) ∨ at' need va = .error .supp
  let runs := (held < 16 → Gives i s (GoesOver
      (s.modEng m fun e => { e with queue := e.queue ++ [cmd], seq := seqNext e.seq })))
    ∧ (16 ≤ held → Gives i s (Waits s))
  s.servingCell s.focus.cell = some m → s.graphAt s.focus.cell = some (p, g) →
  assay ≠ 3 → ¬ (last = 1 ∧ assay = 0) → ¬ (chain = 1 ∧ last = 1) → 8 ≤ len → len ≤ 0x7FFFFFF8 → len % 8 = 0 →
  (∀ k ∈ (s.eng m).openChain s.focus.cell, k.assay = assay) → ((s.eng m).openChain s.focus.cell).length < 8 →
  vaTensor src ≠ 0xFFFF → vaOff src % 8 = 0 → may .rd src →
  (ws = 0 → queue = 0 → vaTensor dst ≠ 0xFFFF → ¬ (vaTensor dst ≠ 0xFFFE ∧ d.v = true ∧ d.shadow = true) → vaOff dst % 8 = 0 →
    (vaTensor src ≠ vaTensor dst ∨ vaOff src + len ≤ vaOff dst ∨ vaOff dst + len ≤ vaOff src) →
    may .wr dst → may .wr stamp → runs)
  ∧ (ws = 0 → queue = 1 → dst.toNat < 32 → (s.chanq m dst.toNat).depth ≠ 0 → len % 64 = 0 → runs)
  ∧ (ws = 1 → queue = 0 → dst.toNat < 2 ^ 33 → wsOff dst % 8 = 0 → wsCol dst ≤ 5 →
    (∀ n, wsOff dst / 2 ^ 24 ≤ n → n ≤ (wsOff dst + len + 7) / 2 ^ 24 → (s.part p).cfg.banks.getLsbD n = true) →
    s.mloadIn g (wsDie dst) (wsCol dst) = false → runs)
  ∧ (seqNext cmd.seq ≠ 0 ∧ (cmd.seq ≠ 0xFFFFFFFF → seqNext cmd.seq = cmd.seq + 1)))
  ∧ (∀ (s : State) (a b c : BitVec 5) (ws remote queue : BitVec 1) (retry : BitVec 3)
    (last chain : BitVec 1) (assay : BitVec 2) (m p : Nat) (g : Graph),
  let i : Instr := .copy a b c ws remote queue retry last chain assay
  let src := s.seq.getG a
  let dst := s.seq.getG b
  let len := (s.seq.getG c).toNat % 2 ^ 32
  let open' := (s.eng m).openChain s.focus.cell
  let mem := queue = 0 ∧ ws = 0
  let d := s.desc p (bayOf m) (vaTensor dst)
  let word := wordOf i
  let checks : List (Prop × BitVec 8 × Word) :=
    [(assay = 3 ∨ (last = 1 ∧ assay = 0) ∨ (chain = 1 ∧ last = 1) ∨ (queue = 1 ∧ ws = 1) ∨ (queue = 1 ∧ 2 ^ 16 ≤ dst.toNat)
        ∨ (ws = 1 ∧ 2 ^ 33 ≤ dst.toNat), 0x01, word),
      (len < 8 ∨ 0x7FFFFFF8 < len, 0x01, word),
      (open' ≠ [] ∧ ((∃ k ∈ open', k.assay ≠ assay) ∨ 8 ≤ open'.length), 0x01, word),
      (mem ∧ vaTensor src = vaTensor dst ∧ vaOff src < vaOff dst + len ∧ vaOff dst < vaOff src + len, 0x01, word),
      (vaOff src % 8 ≠ 0, 0x03, src),
      ((mem ∧ vaOff dst % 8 ≠ 0) ∨ (ws = 1 ∧ wsOff dst % 8 ≠ 0), 0x03, dst),
      (len % 8 ≠ 0, 0x03, BitVec.ofNat 64 len),
      (vaTensor src = 0xFFFF, 0x05, src),
      (mem ∧ (vaTensor dst = 0xFFFF ∨ (vaTensor dst ≠ 0xFFFE ∧ d.v = true ∧ d.shadow = true)), 0x05, dst),
      (queue = 1 ∧ (32 ≤ dst.toNat ∨ (s.chanq m dst.toNat).depth = 0), 0x05, dst),
      (ws = 1 ∧ (5 < wsCol dst ∨ ∃ n, wsOff dst / 2 ^ 24 ≤ n ∧ n ≤ (wsOff dst + len + 7) / 2 ^ 24
        ∧ (s.part p).cfg.banks.getLsbD n = false), 0x05, dst),
      (ws = 1 ∧ s.mloadIn g (wsDie dst) (wsCol dst) = true, 0x05, dst)]
  let at' := fun (need : Need) (va : Word) =>
    s.locate (probeWho (copyWho m (s.openSpan s.focus.cell)) s.focus.cell va) need va 1
  let may := fun (need : Need) (va : Word) => (∃ l, at' need va = .ok l) ∨ at' need va = .error .supp
  let stamp := mkVa (vaTensor dst) (vaOff dst + len)
  let traps := fun (cause : BitVec 8) (v : Word) => Gives i s (TrapsTo s · cause v s.seq.pc s.seq.loopst)
  s.servingCell s.focus.cell = some m → s.graphAt s.focus.cell = some (p, g) → TakesTraps s →
  (∀ pre q post, checks = pre ++ q :: post → (∀ y ∈ pre, ¬ y.1) → q.1 → traps q.2.1 q.2.2)
  ∧ ((∀ q ∈ checks, ¬ q.1) →
    (∀ cause v, cause ≠ 0x06 → (at' .rd src = .error (.bad cause v)
        ∨ (mem ∧ may .rd src ∧ at' .wr dst = .error (.bad cause v))
        ∨ (mem ∧ may .rd src ∧ may .wr dst ∧ at' .wr stamp = .error (.bad cause v))) → traps cause v)
    ∧ (queue = 1 → may .rd src → len % 64 ≠ 0 → traps 0x03 (BitVec.ofNat 64 len))))

/-- R185, R186: a FILL whose checks pass and whose tile is empty and sized joins the fill engine's queue, and the tile
is FILLING; while the tile is not ready for it or the queue holds eight it waits. A length or row count of 0 or a
reserved bit traps ILLOP, a length or row size off its multiple or range MISALIGN, a source or index list that COPY's
rules refuse PERM with its address (that every such refusal is PERM is log 28's reading, that an index list need be
4-byte aligned and no more log 86, and that poison is not looked at when a FILL issues log 93), and a payload that
cannot fit PERM with the tile's number. R185, R186, R295: the fill engine. A contiguous fill moves its bytes block by
block, writes its stamp after them and makes its tile READY; a gather packs a row inside its backing, or drops and
counts one outside; after its last row its stamp tells the rows dropped. While the bay's cache lacks the backing's
descriptor a walk brings it before a row is taken (R264). A fill of an aborted task leaves with no stamp, moves no
byte and leaves its tile EMPTY (R184, R306; that one in the queue is dropped so is log 83). The model's choices are
the tag where every row was dropped (log 85), the extent of a backing in the scratchpad window and the index list's
alignment (log 86). -/
def Obligations.FillInstruction : Prop :=
  (∀ (s : State) (a b c : BitVec 5) (tile : BitVec 6) (m : Nat),
  let x := s.focus.cell
  let t := (s.cell m).tile tile.toNat
  let at' := fun (va : Word) => s.locate (probeWho (fillWho m (s.openSpan x)) x va) .rd va 1
  let ok := fun (al : Nat) (va : Word) =>
    vaTensor va ≠ 0xFFFF ∧ vaOff va % al = 0 ∧ ((∃ l, at' va = .ok l) ∨ at' va = .error .supp)
  let bad := fun (al : Nat) (va : Word) => vaTensor va = 0xFFFF ∨ vaOff va % al ≠ 0 ∨ ∃ cause v, at' va = .error (.bad cause v)
  let ga := s.seq.getG a
  let gb := (s.seq.getG b).toNat
  let gc := (s.seq.getG c).toNat
  let sz := gc % 2 ^ 16
  let n := gc / 2 ^ 16
  let fits := fun (len : Nat) => t.size = 0 ∨ len + 8 ≤ 64 * t.size.toNat
  let room := t.size ≠ 0 ∧ t.state = 0 ∧ (s.fillEng m).queue.length < 8
  let queued := fun (cmd : FillCmd) => GoesOver ((s.modFill m fun e =>
    { e with queue := e.queue ++ [{ cmd with seq := e.seq }], seq := seqNext e.seq }).modTile m tile.toNat
      fun t => { t with state := 1 })
  let cont : Instr := .fillContiguous a b tile
  let gath : Instr := .fillGather a b c tile
  let lenOk := 0 < gb ∧ gb < 2 ^ 32 ∧ gb % 8 = 0
  let rowsOk := 0 < n ∧ gc < 2 ^ 32 ∧ sz % 8 = 0 ∧ 8 ≤ sz ∧ sz ≤ 16384
  let traps := fun i (cause : BitVec 8) (v : Word) => TakesTraps s → Gives i s (TrapsTo s · cause v s.seq.pc s.seq.loopst)
  s.servingCell x = some m →
  (lenOk → ok 8 ga → fits gb →
    (room → Gives cont s (queued { src := ga, len := gb, tile := tile.toNat, issuer := x, span := s.openSpan x }))
    ∧ (¬ room → Gives cont s (Waits s)))
  ∧ (rowsOk → ok 8 ga → ok 4 (s.seq.getG b) → fits (n * sz) →
    (room → Gives gath s (queued
      { src := ga, index := s.seq.getG b, gather := true, len := sz, rows := n, tile := tile.toNat,
        issuer := x, span := s.openSpan x }))
    ∧ (¬ room → Gives gath s (Waits s)))
  ∧ ((2 ^ 32 ≤ gb ∨ gb = 0 → traps cont 0x01 (wordOf cont))
    ∧ (0 < gb → gb < 2 ^ 32 → gb % 8 ≠ 0 → traps cont 0x03 (s.seq.getG b))
    ∧ (lenOk → bad 8 ga → traps cont 0x05 ga)
    ∧ (lenOk → ok 8 ga → ¬ fits gb → traps cont 0x05 (BitVec.ofNat 64 tile.toNat)))
  ∧ ((2 ^ 32 ≤ gc ∨ n = 0 → traps gath 0x01 (wordOf gath))
    ∧ (0 < n → gc < 2 ^ 32 → (sz % 8 ≠ 0 ∨ sz < 8 ∨ 16384 < sz) → traps gath 0x03 (BitVec.ofNat 64 sz))
    ∧ (rowsOk → bad 8 ga → traps gath 0x05 ga)
    ∧ (rowsOk → ok 8 ga → bad 4 (s.seq.getG b) → traps gath 0x05 (s.seq.getG b))
    ∧ (rowsOk → ok 8 ga → ok 4 (s.seq.getG b) → ¬ fits (n * sz) → traps gath 0x05 (BitVec.ofNat 64 tile.toNat))))
  ∧ (∀ (s s1 s2 : State) (c p : Nat) (g : Graph) (k : FillCmd) (bs ix : List Byte),
  let e := s.fillEng c
  let w := { fillWho c k.span with port := k.port }
  let x := leNat ix
  let src := mkVa (vaTensor k.src) (vaOff k.src + x * k.len)
  let idx := mkVa (vaTensor k.index) (vaOff k.index + 4 * e.row)
  let drop := x = 0xFFFFFFFF ∨ ∃ n, s1.gatherExtent c k.src = some n ∧ n < (x + 1) * k.len
  let keep := x ≠ 0xFFFFFFFF ∧ ∃ n, s1.gatherExtent c k.src = some n ∧ (x + 1) * k.len ≤ n
  let s0 := s.modFill c fun e => { e with fmt := some (s.fillTag w k.src) }
  let stampAt := fun (t : State) (pos : Nat) => memNat (t.cell c).m.scratch (((s.cell c).tile k.tile).baseByte + pos) 8
  e.queue.head? = some k → s.graphAt c = some (p, g) → s.cellLive c = true → s.engHeld c k.port = false →
  (s.suppressed w = true → Gives (.fillComplete c) s fun t => (t.fillEng c).queue = e.queue.drop 1
    ∧ ((t.cell c).tile k.tile).state = 0 ∧ (t.cell c).m.scratch = (s.cell c).m.scratch ∧ t.mem = s.mem)
  ∧ (s.suppressed w = false →
    (k.gather = false → e.pos = 0 → 0 < k.len → k.len ≤ 256 →
      s0.readVa w (mkVa (vaTensor k.src) (vaOff k.src)) k.len = .ok (bs, s1) → Gives (.fillComplete c) s fun t =>
      t = ((s1.tileWrite c k.tile 0 bs).modFill c fun e => { e with pos := k.len }).fillEnd p c k k.len 0 none
        (s.fillTag w k.src) ∧ ((t.cell c).tile k.tile).state = 2)
    ∧ (k.gather = false → e.pos = 0 → s0.fillBlocks w k (k.len / 256 + 1) = (s1, none) → Gives (.fillComplete c) s fun t =>
      t = s1.fillEnd p c k k.len 0 none ((s1.fillEng c).fmt.getD (0, false)) ∧ ((t.cell c).tile k.tile).state = 2)
    ∧ (k.gather = true → k.rows ≤ e.row → e.poison = none → Gives (.fillComplete c) s fun t =>
      t = s.fillEnd p c k e.pos e.dropped none (e.fmt.getD (0, false)) ∧ ((t.cell c).tile k.tile).state = 2
      ∧ stampAt t e.pos = (stampOf k.seq (if e.dropped = 0 then 0 else 4) 0 e.dropped).toNat)
    ∧ (k.gather = true → e.row < k.rows → e.poison = none → s.readVa w idx 4 = .ok (ix, s1) → drop →
      Gives (.gatherFillRow c) s fun t => (t.fillEng c).row = (s1.fillEng c).row + 1 ∧ (t.fillEng c).pos = e.pos
        ∧ (t.fillEng c).dropped = e.dropped + 1
        ∧ SMap.get 0 (t.cell c).cnt 0x00C = SMap.get 0 (s1.cell c).cnt 0x00C + 1)
    ∧ (k.gather = true → e.row < k.rows → e.poison = none → s.readVa w idx 4 = .ok (ix, s1) → x ≠ 0xFFFFFFFF →
      s1.gatherExtent c k.src = none → Gives (.gatherFillRow c) s fun t => t.fillEng c = e ∧ t.mem = s.mem
        ∧ ∃ w, (t.bay (bayOf c)).walks = (s.bay (bayOf c)).walks ++ [w] ∧ w.va = k.src ∧ w.cell = c ∧ w.desc = true)
    ∧ (k.gather = true → e.row < k.rows → e.poison = none → s.readVa w idx 4 = .ok (ix, s1) → keep →
      s1.rowFmtBad w src k.len (e.fmt.getD (s1.fillTag w src)).1 = none → s1.readVa w src k.len = .ok (bs, s2) →
      Gives (.gatherFillRow c) s fun t => (t.fillEng c).row = (s2.fillEng c).row + 1 ∧ (t.fillEng c).pos = e.pos + k.len
        ∧ (t.fillEng c).dropped = e.dropped ∧ (t.cell c).m.scratch = ((s2.tileWrite c k.tile e.pos bs).cell c).m.scratch)))

/-- R165, R175, R187, R188: WBIND of a shadow window to a backing tensor and an index vector whose chunk has format RAW or I32
adds a binding of the issuing task and clears the window's count of tailings; WFREE adds the end of a binding. One issued with no
open span counts for task (0, 0) (log 110). The shadow flags are those of the descriptors in the bay's cache and the format is that of
the chunk's entry as the issuing cell has it cached; while one is not there the instruction is held and a walk brings it (R264). While
the copy engine's queue holds sixteen either waits (log 84). A task's gathers use the newest binding that they see: one whose issuer's
task passed its edge before the gathering task was released, or that an XFENCE from SEQ to GATH reached the cell with. A
tensor that is not a shadow window traps PERM with its address. A window offset that is not 0 traps ILLOP, and a backing or index in
a cell-local window, or an index that another package owns, PERM with its address (log 98). -/
def Obligations.WindowBindings : Prop :=
  (∀ (s : State) (a b c : BitVec 5) (row : BitVec 10) (m p : Nat) (g : Graph),
    let x := s.focus.cell
    let win := s.seq.getG a
    let back := s.seq.getG b
    let ix := s.seq.getG c
    let bind : Instr := .wbind a b c row
    let free : Instr := .wfree a
    let desc := fun (va : Word) => s.cachedDesc (bayOf x) (vaTensor va)
    let flag := fun (va : Word) (f : Bool) => vaTensor va < 0xFFFE ∧ ∃ d, desc va = some d ∧ d.shadow = f
    let wrong := fun (va : Word) (f : Bool) => 0xFFFE ≤ vaTensor va ∨ flag va (!f)
    let lacks := fun (va : Word) => vaTensor va < 0xFFFE ∧ desc va = none
    let k := s.taskFor (s.seqWho x)
    let ver : Option WinBind → WinVer := fun v =>
      { bind := v, cell := x, lid := g.lid, x := k.elim 0 (·.x), y := k.elim 0 (·.y) }
    let adds := fun (v : Option WinBind) (q : Part) =>
      { q with windows := SMap.set q.windows (vaTensor win) (SMap.get [] q.windows (vaTensor win) ++ [ver v]) }
    let held := (s.eng m).queue.length + (if (s.eng m).cur.isSome then 1 else 0)
    let walks := fun (i : Instr) (va : Word) (only : Bool) => Gives i s fun t => t.seq.pc = s.seq.pc ∧ t.mem = s.mem
      ∧ t.seq.wait = { hold := some { va := va, kind := .read }, stall := 1 }
      ∧ ∃ w, (t.bay (bayOf x)).walks = (s.bay (bayOf x)).walks ++ [w] ∧ w.va = va ∧ w.cell = x ∧ w.port = 0x80 ∧ w.desc = only
    let traps := fun (i : Instr) (cause : BitVec 8) (v : Word) =>
      TakesTraps s → Gives i s (TrapsTo s · cause v s.seq.pc s.seq.loopst)
    let cached := s.cachedEntry x k (vaTensor ix) (vaOff ix / 65536)
    let good := fun (e : ChunkTr) => e.shadow = false ∧ (ceFmt e.entry = 0 ∨ ceFmt e.entry = 3)
    let shard := fun (h : ShardEnt) => ∃ t, k = some t ∧ t.shardAt (vaTensor ix) (vaOff ix) = some h
    let flags := vaOff win = 0 ∧ flag win true ∧ flag back false ∧ flag ix false
    s.servingCell x = some m → s.graphAt x = some (p, g) →
    (∀ e f, flags → cached = some (e, f) → good e →
      (held < 16 → Gives bind s fun t => GoesPart s t p fun q =>
        { adds (some { backing := back, index := ix, row := 8 * (row.toNat + 1) }) q with
          tails := SMap.set q.tails (vaTensor win) 0 })
      ∧ (16 ≤ held → Gives bind s (Waits s)))
    ∧ (flag win true → (held < 16 → Gives free s fun t => GoesPart s t p (adds none)) ∧ (16 ≤ held → Gives free s (Waits s)))
    ∧ ((lacks win → walks free win true) ∧ (vaOff win = 0 → lacks win → walks bind win true)
      ∧ (vaOff win = 0 → flag win true → lacks back → walks bind back true)
      ∧ (vaOff win = 0 → flag win true → flag back false → lacks ix → walks bind ix true)
      ∧ (flags → cached = none → k ≠ none → (∀ h, shard h → h.owner = s.hf.pkg.toNat) → walks bind ix false)
      ∧ (flags → cached = none → k = none →
        (∀ r, s.walkRead p (bayOf x) (vaTensor ix) (vaOff ix) none false = .ok r → r.chunk ≠ none) → walks bind ix false))
    ∧ ((wrong win true → traps free 0x05 win ∧ (vaOff win = 0 → traps bind 0x05 win))
      ∧ (vaOff win ≠ 0 → traps bind 0x01 (wordOf bind))
      ∧ (vaOff win = 0 → flag win true → wrong back false → traps bind 0x05 back)
      ∧ (vaOff win = 0 → flag win true → flag back false → wrong ix false → traps bind 0x05 ix)
      ∧ (∀ e f, flags → cached = some (e, f) → ¬ good e → traps bind 0x05 ix)
      ∧ (∀ h, flags → cached = none → shard h → h.owner ≠ s.hf.pkg.toNat → traps bind 0x05 ix)))
  ∧ (∀ (s : State) (p c tensor : Nat) (t : Task) (vs ws : List WinVer) (v : WinVer),
    SMap.get [] (s.part p).windows tensor = vs ++ v :: ws →
    ((∃ e, v.edge = some e ∧ e < t.born) ∨ ∃ q ∈ v.seen, s.inScope q.2 q.1 c = true) →
    (∀ w ∈ ws, (∀ e, w.edge = some e → t.born ≤ e) ∧ ∀ q ∈ w.seen, s.inScope q.2 q.1 c = false) →
    s.bindingOf p c t tensor = v.bind)

/-- R173, R306, R307: TILE on the serving M-cell's table. A form in its needed state has its effect and returns 0; in
another it returns code 1 under bit 63 and changes no tile; QUERY returns the entry. -/
def Obligations.TileInstructions : Prop := ∀ (s : State) (d a b : BitVec 5) (m n o : Nat),
  let t := (s.cell m).tile n
  let sz := (s.seq.getG b).toNat
  let v := s.seq.getG b
  let bad := fun i => Gives i s (WritesReg s · d 0x8000000000000001)
  let does := fun i (f : Tile → Tile) => Gives i s fun u => WritesReg (s.modTile m n f) u d 0
  s.servingCell s.focus.cell = some m → (s.seq.getG a).toNat = n → n < 64 →
  (sz % 64 = 0 → 0 < sz → sz ≤ 0x40000 →
    (t.state = 0 → t.size = 0 → (s.cell m).tileRoom sz = some o → does (.tileClaim d a b)
      fun t => { t with base := BitVec.ofNat 12 (o / 64), size := BitVec.ofNat 13 (sz / 64) })
    ∧ (t.state = 0 → t.size = 0 → (s.cell m).tileRoom sz = none →
      Gives (.tileClaim d a b) s (WritesReg s · d 0x8000000000000002))
    ∧ ((t.state ≠ 0 ∨ t.size ≠ 0) → bad (.tileClaim d a b)))
  ∧ (v.toNat < 32 → v.toNat % 16 ≠ 15 → (v.toNat < 16 ∨ (10 ≤ v.toNat % 16 ∧ v.toNat % 16 ≤ 12)) →
    (t.state = 0 → t.size ≠ 0 → does (.tileReady d a b)
      fun t => { t with fmt := BitVec.ofNat 4 v.toNat, mxm := decide (16 ≤ v.toNat), state := 2 })
    ∧ ((t.state ≠ 0 ∨ t.size = 0) → bad (.tileReady d a b)))
  ∧ (t.state = 2 → does (.tileDrain d a) fun t => { t with state := 3 })
  ∧ (t.state ≠ 2 → bad (.tileDrain d a))
  ∧ (t.state = 0 → t.size ≠ 0 → does (.tileFree d a) fun t => { t with size := 0 })
  ∧ ((t.state ≠ 0 ∨ t.size = 0) → bad (.tileFree d a))
  ∧ Gives (.tileQuery d a) s (WritesReg s · d (BitVec.ofNat 64
      (t.base.toNat + 2 ^ 12 * t.size.toNat + 2 ^ 25 * t.fmt.toNat + 2 ^ 29 * t.state.toNat + 2 ^ 31 * t.mxm.toNat)))

/-- R305: REGION on the task of the open span. ADD of a record that instantiates, fits and conflicts with no unordered
running task takes its leases and returns its index; SHRINK narrows or removes a read record and releases the leases that no record
covers; QUERY returns a word of a record, or all ones. With no open span's task, or where the rule's conditions on the operands fail,
each traps ILLOP. The explicit form of ADD reads its record from private
memory; every chunk of the record, if it is not lazy, is leased already. -/
def Obligations.Regions : Prop := ∀ (s s1 s2 : State) (d a b : BitVec 5) (w : BitVec 2) (p : Nat) (g : Graph) (t : Task)
    (bs : List Byte) (r : BitVec 256) (ls : List LeaseEnt),
  let c := s.focus.cell
  let ga := s.seq.getG a
  let n := (s.seq.getG b).toNat
  (∀ o, s.runTask = some (p, g, t) → s.suppressed (s.seqWho c) = false → ga.toNat % 8 = 0 → PrivAt ga 0 32 o →
    s.instRegion p (bayOf c) (BitVec.ofNat 256 (memNat (s.cell c).priv o 32)) t.x t.y = some r →
    s.graph p g.lid = some g → g.task t.x t.y = some t → t.regions.length < 16 →
    (∀ h ∈ (s.part p).allGraphs, ∀ u ∈ h.tasks, u.st = 1 ∨ u.st = 2 →
      (h.lid = g.lid ∧ u.x = t.x ∧ u.y = t.y) ∨ ∀ q ∈ u.regions, rgConflict r q = false) →
    (∀ e ∈ (s.part p).emb, e.2.busy = true → e.2.cur.isSome = true → ∀ q ∈ s.embRegions p e.2, rgConflict r q = false) →
    (rgLazy r = true ∨ ∀ q ∈ g.leaseList [r], ∃ e : TlbEntry, e.leases ≠ 0 ∧
      (s.bay q.1).tlb.find? (fun e => e.tensor == q.2.1 && e.chunk == q.2.2 && !e.stale) = some e) →
    Gives (.regionAdd d a) s fun u =>
      (∀ n, u.seq.getG n = if n = 0 then 0 else if n = d then BitVec.ofNat 64 t.regions.length else s.seq.getG n)
      ∧ GoesOn s u ∧ u.mem = s.mem ∧ (∀ e, e ≠ c → u.cell e = s.cell e)
      ∧ ∃ h k, u.graph p g.lid = some h ∧ h.task t.x t.y = some k ∧ k.regions = t.regions ++ [r])
  ∧ (s.runTask = none → TakesTraps s →
    Gives (.regionAdd d a) s (TrapsTo s · 0x01 (wordOf (.regionAdd d a)) s.seq.pc s.seq.loopst)
    ∧ Gives (.regionShrink a b) s (TrapsTo s · 0x01 (wordOf (.regionShrink a b)) s.seq.pc s.seq.loopst)
    ∧ Gives (.regionQuery d a w) s (TrapsTo s · 0x01 (wordOf (.regionQuery d a w)) s.seq.pc s.seq.loopst))
  ∧ (s.runTask = some (p, g, t) → TakesTraps s →
    let illop := fun i => Gives i s (TrapsTo s · 0x01 (wordOf i) s.seq.pc s.seq.loopst)
    (16 ≤ ga.toNat ∨ 2 ^ 40 ≤ n ∨ t.regions.length ≤ ga.toNat ∨ (t.regions[ga.toNat]? = some r ∧ (rgKind r ≠ 0 ∨ rgExtent r < n)) →
      illop (.regionShrink a b))
    ∧ (16 ≤ ga.toNat → illop (.regionQuery d a w))
    ∧ (ga.toNat % 8 ≠ 0 → Gives (.regionAdd d a) s (TrapsTo s · 0x03 ga s.seq.pc s.seq.loopst))
    ∧ (ga.toNat % 8 = 0 → s.readVa (s.seqWho c) ga 32 = .ok (bs, s1) →
      s1.instRegion p (bayOf c) (BitVec.ofNat 256 (leNat bs)) t.x t.y = none → illop (.regionAdd d a)))
  ∧ (s.runTask = some (p, g, t) →
    (∀ r', ga.toNat < 16 → t.regions[ga.toNat]? = some r → rgKind r = 0 → 0 < n → n ≤ rgExtent r → rgExtent r' = n →
      (∀ j, (j < 64 ∨ 104 ≤ j) → r'.getLsbD j = r.getLsbD j) → Gives (.regionShrink a b) s fun u =>
      ∃ s', s' = (s.modGraph p g.lid fun g => g.modTask t.x t.y fun t =>
          { t with regions := t.regions.set ga.toNat r' }).dropUncovered p g.lid t.x t.y ∧ GoesOver s' u)
    ∧ (ga.toNat < 16 → t.regions[ga.toNat]? = some r →
      Gives (.regionQuery d a w) s (WritesReg s · d ((r >>> (64 * w.toNat)).setWidth 64)))
    ∧ (ga.toNat < 16 → t.regions.length ≤ ga.toNat →
      Gives (.regionQuery d a w) s (WritesReg s · d 0xFFFFFFFFFFFFFFFF))
    ∧ (ga.toNat < 16 → t.regions[ga.toNat]? = some r → rgKind r = 0 → n = 0 → Gives (.regionShrink a b) s fun u =>
      ∃ s', s' = (s.modGraph p g.lid fun g => g.modTask t.x t.y fun t =>
          { t with regions := t.regions.eraseIdx ga.toNat }).dropUncovered p g.lid t.x t.y ∧ GoesOver s' u)
    ∧ (ga.toNat % 8 = 0 → s.readVa (s.seqWho c) ga 32 = .ok (bs, s1) →
      s1.instRegion p (bayOf c) (BitVec.ofNat 256 (leNat bs)) t.x t.y = some r →
      (16 ≤ t.regions.length → Gives (.regionAdd d a) s (WritesReg s1 · d 0x8000000000000001))
      ∧ (t.regions.length < 16 → s1.addConflict p g t r = true →
        Gives (.regionAdd d a) s (WritesReg s1 · d 0x8000000000000002))
      ∧ (t.regions.length < 16 → s1.addConflict p g t r = false → s1.takeLeases p (g.leaseList [r]) = .ok (ls, s2) →
        Gives (.regionAdd d a) s (WritesReg (s2.modGraph p g.lid fun g => g.modTask t.x t.y fun t =>
          { t with regions := t.regions ++ [r], leases := t.leases ++ ls }) · d (BitVec.ofNat 64 t.regions.length)))))

/-- R289: STAB in an M-cell writes COUNT checked entries from FIRST on; with GO it clears the counters and enters
START. It keeps what it read and waits while an action runs (R289). R185, R287, R288, R306: the memory sequencer. A
state whose action is done takes C0 before C1 and stays while neither holds, and HALT is left by STAB alone; an error
record of the unit that waits for room holds it (R210). PUSH sends the tile's pieces in order and then EOR; ACCEPT
takes an empty tile, writes 64 bytes a DATA and leaves it READY; FILL queues a contiguous fill; DRAIN takes a READY
tile and writes its bytes; WAIT ends at once. A completed action applies INC. A DRAINING tile with no access left is
EMPTY. -/
def Obligations.MemorySequencer : Prop :=
  (∀ (s s1 : State) (a b : BitVec 5) (bs : List Byte),
  let c := s.focus.cell
  let v := s.seq.getG b
  let first := v.toNat % 64
  let count := v.toNat / 2 ^ 8 % 128
  let start := BitVec.ofNat 6 (v.toNat / 2 ^ 16)
  let es := msEntries bs count
  let put := fun (es : List (BitVec 256)) (k : MemSeq) =>
    { k with table := (es.zip (List.range count)).foldl (fun m e => SMap.set m (first + e.2) e.1) k.table }
  kindOf c = 0 → v.toNat / 2 ^ 6 % 4 = 0 → v.toNat / 2 ^ 15 % 2 = 0 → v.toNat < 2 ^ 23 → 1 ≤ count → count ≤ 64 →
  first + count ≤ 64 → (s.seq.getG a).toNat % 8 = 0 →
  (s.seq.wait.stab = none → s.readVa (s.seqWho c) (s.seq.getG a) (32 * count) = .ok (bs, s1) → es.all msOk = true →
  ((s1.cell c).m.ms.busy = false → v.getLsbD 22 = false → Gives (.stab a b) s (GoesOver (s1.modMs c (put es))))
  ∧ ((s1.cell c).m.ms.busy = false → v.getLsbD 22 = true → Gives (.stab a b) s (GoesOver
      (s1.modMs c fun k => { put es k with cnt0 := 0, cnt1 := 0 }.enter start)))
  ∧ ((s1.cell c).m.ms.busy = true → Gives (.stab a b) s fun t => Waits s1 t ∧ t.seq.wait.stab = some es))
  ∧ (∀ fs, s.seq.wait.stab = some fs → fs.length = count → (s.cell c).m.ms.busy = false → v.getLsbD 22 = false →
    Gives (.stab a b) s (GoesOver (s.modMs c (put fs))))
  ∧ ∀ k : MemSeq, (k.enter start).cur = start)
  ∧ (∀ (s s1 : State) (c p tile : Nat) (g : Graph) (tok : Token),
  let k := s.ms c
  let e := k.entry
  let x := s.cell c
  let n := msTile e
  let w := s.msWho c
  let step := fun (P : State → Prop) => Gives (.msActionComplete c) s P
  let done := fun (k : MemSeq) => { k with
    busy := false, cnt0 := k.cnt0 + (if (msInc e).getLsbD 0 then 1 else 0), cnt1 := k.cnt1 + (if (msInc e).getLsbD 1 then 1 else 0) }
  let sized := (x.tile n).size ≠ 0
  let fits := fun (l : Nat) => l ≤ 64 * (x.tile n).size.toNat
  s.cellLive c = true → s.graphAt c = some (p, g) →
  (k.busy = false → k.halted = false → msAct e ≠ 0 → s.errWaits c 0x84 = false →
    (s.msCond c (msC0 e) = true → Gives (.msTransition c) s fun t =>
      t = s.modMs c (·.enter (msN0 e)) ∧ (t.ms c).cur = msN0 e)
    ∧ (s.msCond c (msC0 e) = false → s.msCond c (msC1 e) = true →
      Gives (.msTransition c) s fun t => t = s.modMs c (·.enter (msN1 e)) ∧ (t.ms c).cur = msN1 e)
    ∧ (s.msCond c (msC0 e) = false → s.msCond c (msC1 e) = false → Gives (.msTransition c) s (· = s)))
  ∧ (k.halted = true → Gives (.msTransition c) s (· = s))
  ∧ (k.busy = true → s.engHeld c 0x84 = false →
    (msAct e = 5 → step fun t => t = s.modMs c done)
    ∧ (msAct e = 1 → s.suppressed w = false → k.out = [] →
      (k.prog < msLen e / 64 → sized → fits (msLen e) → (x.tile n).state = 2 → x.tilePoison n (64 * k.prog) 64 = none →
        step fun t => t = s.modMs c fun k =>
          { k with out := [msPiece k.prog (x.tileBytes n (64 * k.prog) 64)], prog := k.prog + 1 })
      ∧ (k.prog = msLen e / 64 → msEor e = true → step fun t => t = s.modMs c fun k =>
          { k with out := [{ kind := 5 }], prog := k.prog + 1 })
      ∧ (msLen e / 64 + (if msEor e then 1 else 0) ≤ k.prog → step fun t => t = s.modMs c done))
    ∧ (msAct e = 2 → k.issued = false → sized → (x.tile n).state = 0 → fits (msLen e) → step fun t =>
        t = (s.modTile c n fun t => { t with state := 1 }).modMs c fun k => { k with issued := true })
    ∧ (msAct e = 2 → k.issued = true → k.inq.head? = some tok → tok.kind = 0 → s.suppressed w = false → step fun t =>
        (t.cell c).m.scratch = ((s.tileWrite c n k.prog (bytesOf512 tok.payload 64)).cell c).m.scratch
        ∧ t.ms c = (if msLen e ≤ k.prog + 64 then done else id) { k with inq := k.inq.drop 1, prog := k.prog + 64 }
        ∧ (msLen e ≤ k.prog + 64 → ((t.cell c).tile n).state = 2))
    ∧ (msAct e = 2 → k.issued = true → k.inq.head? = some tok → tok.kind ≠ 0 → k.out = [] → step fun t =>
        (t.ms c).out = [tok] ∧ (t.ms c).inq = k.inq.drop 1 ∧ (t.cell c).m.scratch = x.m.scratch
        ∧ (tok.kind = 2 ∨ tok.kind = 4 ∨ tok.kind = 5 → (t.ms c).busy = false ∧ ((t.cell c).tile n).state = 2))
    ∧ (msAct e = 3 → k.issued = false → vaTensor k.va ≠ 0xFFFF → vaOff k.va % 8 = 0 → sized → (x.tile n).state = 0 →
      (s.fillEng c).queue.length < 8 → fits (msLen e + 8) → step fun t => ∃ u,
        u = s.modFill c (fun f => { f with
          queue := f.queue ++ [{ src := k.va, len := msLen e, tile := n, seq := f.seq, issuer := c, span := k.span, ms := true }]
          seq := seqNext f.seq })
        ∧ t = (u.modTile c n fun t => { t with state := 1 }).modMs c fun k => { k with issued := true })
    ∧ (msAct e = 3 → k.issued = true → (∀ f ∈ (s.fillEng c).queue, f.ms = false) → step fun t => t = s.modMs c done)
    ∧ (msAct e = 4 → s.suppressed w = false → k.issued = false → sized → (x.tile n).state = 2 → fits (msLen e) → step fun t =>
        t = (s.modTile c n fun t => { t with state := 3 }).modMs c fun k => { k with issued := true })
    ∧ (msAct e = 4 → s.suppressed w = false → k.issued = true → x.tilePoison n 0 (msLen e) = none →
      s.writeStrm w [(k.va, x.tileBytes n 0 (msLen e))] = .ok s1 → step fun t => t = s1.msDone c))
  ∧ ((x.tile tile).state = 3 → k.busy = false → s.tileLoading c tile = false →
      Gives (.tileDrainComplete c tile) s fun t => t = s.modTile c tile (fun t => { t with state := 0 })
        ∧ ((t.cell c).tile tile).state = 0))

/-- R174, R178, R180: the copy engine starts the first command of its queue that may start: none before it is its
issuer's, and a weight-store copy only once no placed graph loads weights from its column (that a command starts past
one of another issuer that waits is the reading of log 53). The command leaves the queue, its issuer's chain runs with
a fresh assay, and a queue destination's credit is the queue's depth. R178, R179: a payload block of a local copy
between memories is read and written (but for bytes in frames of the source reached through another tensor, which the
model leaves free, R177, log 12), and the assay takes its words; then the next block, the next command or the end of
the pass follows. A block with a remote destination waits for its home's acknowledgement, and REMOTE_BLOCK_ACK lets
the chain go on. The chain of an aborted task is discarded (R184, R295). -/
def Obligations.CopyProgress : Prop :=
  (∀ (s : State) (c p n : Nat) (g : Graph),
  let e := s.eng c
  let k := e.queue.getD n {}
  let free := fun (k : CopyCmd) => ∀ h ∈ (s.part p).graphs, s.mloadIn h (wsDie k.dst) (wsCol k.dst) = false
  let started := fun (t : State) => (t.eng c).queue = e.queue.eraseIdx n ∧ (t.eng c).cur = some k.issuer
    ∧ SMap.get {} (t.eng c).runs k.issuer = { chain := [k], assay := assayInit k.assay, inj := s.armed c }
    ∧ t.armed c = none ∧ (t.eng c).seq = e.seq
    ∧ (k.queue = true → (t.chanq c k.dst.toNat).credit = (s.chanq c k.dst.toNat).depth) ∧ t.mem = s.mem
  s.graphAt c = some (p, g) → s.cellLive c = true → e.cur = none → s.portBusy c 0x81 = false → n < e.queue.length →
  (∀ j, j < n → (e.queue.getD j {}).issuer ≠ k.issuer) → (k.ws = true → free k) →
  (∀ j, j < n → ((e.queue.getD j {}).ws = true ∧ ¬ free (e.queue.getD j {})) ∨
    ∃ l, l < j ∧ (e.queue.getD l {}).issuer = (e.queue.getD j {}).issuer) →
  (e.runs.find? fun r => r.1 == k.issuer) = none →
  (k.ws = false → Gives (.copyCommandStart c) s started) ∧ (k.ws = true → Gives (.weightStoreCopyStart c) s started))
  ∧ (∀ (s s1 s2 : State) (c p i : Nat) (g : Graph) (r : CopyRun) (bs : List Byte),
  let k := r.chain.getD r.idx {}
  let w := copyWho c k.span
  let n := min 256 (k.len - 256 * r.block)
  let src := mkVa (vaTensor k.src) (vaOff k.src + 256 * r.block)
  let dst := mkVa (vaTensor k.dst) (vaOff k.dst + 256 * r.block)
  let r' := { r with remoteV := r.assay, assay := assayBytes k.assay r.assay (flipBlock r bs) ((flipBlock r bs).length / 4) }
  (s.curRun c = some (i, r) → s.graphAt c = some (p, g) → s.cellLive c = true → r.ack = false → 0 < n →
    r.due = [] → s.suppressed w = false → s.engHeld c 0x81 = false → k.queue = false → k.ws = false → s.readVa w src n = .ok (bs, s1) →
    (s1.blurOverlap w p k dst (flipBlock r bs)).2.writeSeen w dst (s1.blurOverlap w p k dst (flipBlock r bs)).1 = .ok s2 →
    (s.touchesRemote w .rd src n = false → s.touchesRemote w .wr dst n = false →
      Gives (.copyPayloadBlock c) s fun t => t = s2.blockDone c i r' ∧ t.mem = s2.mem ∧ (256 * (r.block + 1) < k.len →
        SMap.get {} (t.eng c).runs i = { r' with block := r.block + 1, ack := false }))
    ∧ (k.remote = true → s.touchesRemote w .wr dst n = true →
      Gives (.copyPayloadBlock c) s (· = s2.setRun c i { r' with ack := true })))
  ∧ (∀ j, j < bs.length → (s.overlapAt w p k dst bs.length).getD j false = false →
      (s.blurOverlap w p k dst bs).1.getD j 0 = bs.getD j 0)
  ∧ (s.curRun c = some (i, r) → s.suppressed w = true → s.graphAt c = some (p, g) → s.cellLive c = true → r.ack = false →
    0 < n → r.due = [] → s.engHeld c 0x81 = false → Gives (.copyPayloadBlock c) s fun t => t.mem = s.mem ∧ (t.eng c).cur = none
      ∧ (k.chain = false → r.chain = [k] → smHas (t.eng c).runs i = false))
  ∧ (s.curRun c = some (i, r) → r.ack = true → s.cellLive c = true → Gives (.remoteBlockAck c) s fun t =>
      t = s.blockDone c i { r with remoteV := r.assay } ∧ t.mem = s.mem ∧ (256 * (r.block + 1) < k.len →
        SMap.get {} (t.eng c).runs i = { r with remoteV := r.assay, block := r.block + 1, ack := false })))

/-- R180, R181, R182: at the end of a chain's pass, a match writes the stamps with status 0, or 3 after a rerun; a
mismatch past the retry limit writes them with status 2 and counts it; any other mismatch reruns every command with a
fresh assay. The stamps are written in command order and the chain leaves the engine; one that cannot be written
leaves itself and those after it due, and they are written on by a later event. The stamp of a copy to the weight
store follows its payload. The chain of an aborted task is discarded and writes none (R184, R295). R401, R357: once
the package has booted PF 0 arms one bit flip on an M-cell's copy engine; any other requester, and a cell that is no
M-cell or does not exist, arms nothing and is answered PERM (log 37); before it nothing is armed. -/
def Obligations.ChainEnd : Prop :=
  (∀ (s s' : State) (c p i : Nat) (g : Graph) (r : CopyRun),
  let k := r.chain.getD r.idx {}
  let same := k.last = false ∨ assayFinal k.assay r.assay = k.expect
  let st := fun (n : Nat) => stampOf k.seq n r.pass 0
  let stamps := fun (n : Nat) => r.chain.map fun k => (k, stampOf k.seq n r.pass 0, false)
  let left := fun (t : State) => (t.eng c).cur = none ∧ smHas (t.eng c).runs i = false
  let ends := fun (n : Nat) => Gives (.chainPassEnd c) s (· = s.finishChain p c i r (stamps n))
  let live := s.suppressed (copyWho c k.span) = false
  let passEnd := r.due = [] ∧ k.chain = false ∧ r.ack = false ∧ k.len ≤ 256 * r.block ∧ r.idx + 1 = r.chain.length
  s.curRun c = some (i, r) → s.graphAt c = some (p, g) → s.cellLive c = true → s.engHeld c 0x81 = false →
  (live → passEnd →
    (same → r.pass = 0 → ends 0) ∧ (same → r.pass ≠ 0 → ends 3) ∧ (¬ same → r.pass = k.retry → ends 2)
    ∧ (r.chain = [k] → r.poisoned = false →
      (same → s.putStamp p c k (st (if r.pass = 0 then 0 else 3)) false = .ok s' →
        Gives (.chainPassEnd c) s (· = s'.endChain c i r true))
      ∧ (¬ same → r.pass = k.retry → s.putStamp p c k (st 2) false = .ok s' →
        Gives (.chainPassEnd c) s (· = (s'.bump c 0x00B 1).endChain c i r true))
      ∧ (same → k.ws = true → k.queue = false →
        s.wsRefresh (wsOff k.dst + k.len) 8 = false → Gives (.chainPassEnd c) s fun t =>
          memNat t.mem.ws (wsKey k.dst + k.len) 8 = (st (if r.pass = 0 then 0 else 3)).toNat ∧ left t
          ∧ t.mem.hbm = s.mem.hbm))
    ∧ (¬ same → r.pass ≠ k.retry → Gives (.chainPassEnd c) s fun t =>
      SMap.get {} (t.eng c).runs i =
        { r with pass := r.pass + 1, idx := 0, block := 0, assay := assayInit k.assay, remoteV := 0 }
      ∧ SMap.get 0 (t.cell c).cnt 0x00A = SMap.get 0 (s.cell c).cnt 0x00A + 1))
  ∧ (live → r.due ≠ [] → Gives (.chainPassEnd c) s (· = s.finishChain p c i r r.due))
  ∧ (¬ live → (passEnd ∨ r.due ≠ []) → Gives (.chainPassEnd c) s fun t => t = s.discardChain c i r ∧ t.mem = s.mem
    ∧ (t.eng c).cur = none ∧ (r.chain = [k] → k.chain = false → left t))
  ∧ (∀ x y m ks, s.putStamp p c x y m = .ok s' → s.finishChain p c i r ((x, y, m) :: ks) = s'.finishChain p c i r ks)
  ∧ (∀ x y m ks, s.putStamp p c x y m = .error .wait →
      SMap.get {} ((s.finishChain p c i r ((x, y, m) :: ks)).eng c).runs i = { r with due := (x, y, m) :: ks }))
  ∧ (∀ (s : State) (c word bit : Nat) (all : Bool),
  (s.hf.booted = true → c < 9216 → kindOf c = 0 → Gives (.injectionArm true c word bit all) s fun t =>
    t.armed c = some (word, bit % 32, all) ∧ (∀ d, d ≠ c → t.armed d = s.armed d) ∧ t.cells = s.cells ∧ t.mem = s.mem
      ∧ t.hf.mail = s.hf.mail)
  ∧ (∀ pf0, s.hf.booted = true → (pf0 = false ∨ 9216 ≤ c ∨ kindOf c ≠ 0) → Gives (.injectionArm pf0 c word bit all) s fun t =>
    t = s.answer 18 1 ∧ (∀ d, t.armed d = s.armed d) ∧ t.cells = s.cells ∧ t.mem = s.mem)
  ∧ (∀ pf0, s.hf.booted = false → Gives (.injectionArm pf0 c word bit all) s (· = s)))

/-- R37, R38, R115, R117, R119-R121, R128: the words that compute lane by lane on the tokens of their slots. An integer lane is
the exact result, wrapped or saturated; a floating lane is the exact result rounded once. -/
def Obligations.ElementLanes : Prop :=
  ∀ (s : State) (ty : BitVec 3) (rm : BitVec 2) (sat : BitVec 1) (sh : BitVec 2) (da db : BitVec 6) (a b c : Token),
  let w := 8 * tyBytes ty
  let x := laneOf ty sh a
  let y := laneOf ty sh b
  let z := laneOf ty sh c
  let i := fun (v : Nat) => laneInt w v
  let fit := fun (q : BitVec 1) (v : Int) =>
    ((if q = 1 then max (-(2 ^ (w - 1))) (min (2 ^ (w - 1) - 1) v) else v) % 2 ^ w).toNat
  let num := fun (q : BitVec 1) (f : FFmt → FVal) (v : Int) => match tyFmt ty with
    | some F => F.round (f F) rm (q == 1) % 2 ^ w
    | none => fit q v
  let mask := fun (f : FFmt → Bool) (v : Bool) => if (match tyFmt ty with | some F => f F | none => v) then 2 ^ w - 1 else 0
  let fires := fun (i : Instr) (ts : List Token) (val : Nat → Nat) =>
    ElemHolds s i ts → Gives i s fun t => ∃ r, LaneRes ty sh ts val r ∧ FiresElem s t i r
  fires (.vadd ty rm sat sh da db) [a, b] (fun n => num sat (fun F => (F.dec (x n)).add (F.dec (y n)) rm) (i (x n) + i (y n)))
  ∧ fires (.vsub ty rm sat sh da db) [a, b] (fun n => num sat (fun F => (F.dec (x n)).add (F.dec (y n)).neg rm) (i (x n) - i (y n)))
  ∧ fires (.vmul ty rm sat sh da db) [a, b] (fun n => num sat (fun F => (F.dec (x n)).mul (F.dec (y n))) (i (x n) * i (y n)))
  ∧ (∀ F, tyFmt ty = some F → fires (.vfma ty rm sat sh da db) [a, b, c] (fun n =>
      F.round (((F.dec (x n)).mul (F.dec (y n))).add (F.dec (z n)) rm) rm (sat == 1) % 2 ^ w))
  ∧ fires (.vmin ty rm sh da db) [a, b] (fun n => num 0 (fun F => FVal.min (F.dec (x n)) (F.dec (y n))) (min (i (x n)) (i (y n))))
  ∧ fires (.vmax ty rm sh da db) [a, b] (fun n => num 0 (fun F => FVal.max (F.dec (x n)) (F.dec (y n))) (max (i (x n)) (i (y n))))
  ∧ fires (.vnegNeg ty rm sat sh da db) [a] (fun n => num sat (fun F => (F.dec (x n)).neg) (-(i (x n))))
  ∧ fires (.vnegAbs ty rm sat sh da db) [a] (fun n => num sat (fun F => (F.dec (x n)).abs) ((i (x n)).natAbs : Int))
  ∧ fires (.vand ty sh da db) [a, b] (fun n => (x n &&& y n) % 2 ^ w)
  ∧ fires (.vor ty sh da db) [a, b] (fun n => (x n ||| y n) % 2 ^ w)
  ∧ fires (.vxor ty sh da db) [a, b] (fun n => (x n ^^^ y n) % 2 ^ w)
  ∧ fires (.vshl ty sh da db) [a, b] (fun n => x n * 2 ^ (y n % w) % 2 ^ w)
  ∧ fires (.vshrL ty sh da db) [a, b] (fun n => x n / 2 ^ (y n % w))
  ∧ fires (.vshrA ty sh da db) [a, b] (fun n => fit 0 (i (x n) / 2 ^ (y n % w)))
  ∧ fires (.vcmpEq ty sh da db) [a, b] (fun n => mask (fun F => FVal.eq (F.dec (x n)) (F.dec (y n))) (decide (i (x n) = i (y n))))
  ∧ fires (.vcmpNe ty sh da db) [a, b] (fun n => mask (fun F => !FVal.eq (F.dec (x n)) (F.dec (y n))) (decide (i (x n) ≠ i (y n))))
  ∧ fires (.vcmpLt ty sh da db) [a, b] (fun n => mask (fun F => FVal.lt (F.dec (x n)) (F.dec (y n))) (decide (i (x n) < i (y n))))
  ∧ fires (.vcmpLe ty sh da db) [a, b] (fun n => mask (fun F => FVal.le (F.dec (x n)) (F.dec (y n))) (decide (i (x n) ≤ i (y n))))
  ∧ fires (.vsel ty sh da db) [a, b, c] (fun n => if x n ≠ 0 then y n else z n)
  ∧ (ty = 0 →
    fires (.vhashLane sh da db) [a] (fun n => (hashLane (BitVec.ofNat 32 (x n))).toNat)
    ∧ fires (.vhashCrc sh da db) [a, b] (fun n => (hashCrc (BitVec.ofNat 32 (y n)) (BitVec.ofNat 32 (x n))).toNat)
    ∧ fires (.vhashFold sh da db) [a] (fun n => (hashFold (BitVec.ofNat 32 (x n))).toNat))

/-- R122-R127, R137: the words whose result is not lane by lane: conversions, the correctly rounded functions,
reductions, shuffles, constants, copies, byte comparisons and CFG tokens. R50, R51, R123: the special operands of the
one-operand functions, in F32: zeros, infinities, a negative finite number, 1 and NaN, rounded with SAT 0. -/
def Obligations.ElementWords : Prop :=
  (∀ (s : State) (ty : BitVec 3) (rm : BitVec 2) (sat : BitVec 1) (sh : BitVec 2) (ki : BitVec 3) (da db : BitVec 6) (a b : Token),
  let w := 8 * tyBytes ty
  let k0 := SMap.get 0 s.el.k 0
  let src := k0.extractLsb' 0 3
  let ws := 8 * tyBytes src
  let n := if sh = 0 then 4 else shapeBytes sh
  let hd := fun (ts : List Token) (ref : Word) => { dataHead ts with ref := ref }
  let on := fun (t : Token) (g : Nat) => t.pl = true ∧ t.lmask.getLsbD g = true ∧ (sh = 1 → g < 8)
  let byte := fun (t : Token) (j : Nat) => if sh = 0 then t.ref.toNat / 2 ^ (8 * j) % 256 else t.payload.toNat / 2 ^ (8 * j) % 256
  let seen := fun (j : Nat) => on a (j / 4) ∧ on b (j / 4)
  let fires := fun (i : Instr) (ts : List Token) (P : Token → Prop) =>
    ElemHolds s i ts → Gives i s fun t => ∃ r, P r ∧ FiresElem s t i r
  let gives := fun (i : Instr) (ts : List Token) (r : Token) => fires i ts (· = r)
  let un := fun (f : FVal → FVal) (n : Nat) => match tyFmt ty with
    | some F => F.round (f (F.dec (laneOf ty sh a n))) rm (sat == 1) % 2 ^ w
    | none => laneOf ty sh a n
  (sh = 0 → gives (.vcvt ty rm sat sh da db) [a]
      (hd [a] (BitVec.ofNat 64 (cvtLane src ty rm (sat == 1) (a.ref.toNat % 2 ^ ws) % 2 ^ w))))
  ∧ (sh ≠ 0 → fires (.vcvt ty rm sat sh da db) [a] fun r =>
      let cs := tyBytes src
      let ct := tyBytes ty
      let m := shapeBytes sh / max cs ct
      let so := if cs < ct ∧ k0.getLsbD 4 = true then shapeBytes sh / 2 else 0
      let dO := if ct < cs ∧ k0.getLsbD 3 = true then shapeBytes sh / 2 else 0
      r = { dataHead [a] with pl := true, lmask := r.lmask, payload := r.payload }
      ∧ (∀ n, n < m → r.payload.toNat / 2 ^ (8 * (dO + n * ct)) % 2 ^ w = if on a ((so + n * cs) / 4) then
          cvtLane src ty rm (sat == 1) (a.payload.toNat / 2 ^ (8 * (so + n * cs)) % 2 ^ ws) % 2 ^ w else 0)
      ∧ (∀ j, j < 64 → (j < dO ∨ dO + m * ct ≤ j) → r.payload.toNat / 2 ^ (8 * j) % 256 = 0)
      ∧ ∀ g, g < 16 → (r.lmask.getLsbD g = true ↔ ∀ j, 4 * g ≤ j → j < 4 * g + 4 →
          dO ≤ j ∧ j < dO + m * ct ∧ on a ((so + (j - dO) / ct * cs) / 4)))
  ∧ ((tyFmt ty).isSome = true →
    fires (.vrcp ty rm sat sh da db) [a] (LaneRes ty sh [a] (un FVal.rcp))
    ∧ fires (.vrsq ty rm sat sh da db) [a] (LaneRes ty sh [a] (un FVal.rsq))
    ∧ fires (.vexp2 ty rm sat sh da db) [a] (LaneRes ty sh [a] (un FVal.exp2))
    ∧ fires (.vlog2 ty rm sat sh da db) [a] (LaneRes ty sh [a] (un FVal.log2)))
  ∧ ((tyFmt ty = none) →
    let lanes := (((List.range (laneCount ty sh)).filter fun n => decide (on a (n * tyBytes ty / 4))).map fun n =>
      laneInt w (laneOf ty sh a n))
    let fit := fun (q : BitVec 1) (v : Int) =>
      (if q = 1 then max (-(2 ^ (w - 1))) (min (2 ^ (w - 1) - 1) v) else v)
    let ref := fun (v : Int) => BitVec.ofNat 64 (v % 2 ^ w).toNat
    (sat = 0 → gives (.vsumAdd ty rm sat sh da db) [a] (hd [a] (ref lanes.sum)))
    ∧ (sat = 1 → gives (.vsumAdd ty rm sat sh da db) [a] (hd [a] (ref (lanes.foldl (fun acc v => fit 1 (acc + v)) 0))))
    ∧ gives (.vsumMin ty rm sh da db) [a] (hd [a] (ref (lanes.foldl min (2 ^ (w - 1) - 1))))
    ∧ gives (.vsumMax ty rm sh da db) [a] (hd [a] (ref (lanes.foldl max (-(2 ^ (w - 1)))))))
  ∧ (∀ F, tyFmt ty = some F →
    let lanes := (((List.range (laneCount ty sh)).filter fun n => decide (on a (n * tyBytes ty / 4))).map fun n => laneOf ty sh a n)
    let fold := fun (q : Bool) (start : FVal) (op : FVal → FVal → FVal) =>
      hd [a] (BitVec.ofNat 64 (lanes.foldl (fun acc v => F.round (op (F.dec acc) (F.dec v)) rm q) (F.round start 0 false) % 2 ^ w))
    gives (.vsumAdd ty rm sat sh da db) [a] (fold (sat == 1) (.fin false 0 0) (fun u v => u.add v rm))
    ∧ gives (.vsumMin ty rm sh da db) [a] (fold false (.inf false) FVal.min)
    ∧ gives (.vsumMax ty rm sh da db) [a] (fold false (.inf true) FVal.max))
  ∧ (sh ≠ 0 → fires (.vshuf ty sh da db) [a, b] fun r => r.kind = 0 ∧ r.coord = a.coord ∧ r.pl = true ∧
      ∀ n, n < laneCount ty sh →
        let q := byte b n % laneCount ty sh
        let got := r.payload.toNat / 2 ^ (w * n) % 2 ^ w
        if on b (n / 4) ∧ on a (q * tyBytes ty / 4) then got = laneOf ty sh a q else got = 0)
  ∧ (sh = 0 → gives (.vconst ty sh ki da db) [a] (hd [a] (BitVec.ofNat 64 ((s.el.const ki.toNat).toNat % 2 ^ w))))
  ∧ (sh ≠ 0 → fires (.vconst ty sh ki da db) [a] fun r => r.kind = 0 ∧ r.coord = a.coord ∧ r.pl = true
      ∧ r.lmask = (if sh = 1 then 0xFF else 0xFFFF)
      ∧ ∀ n, n < laneCount ty sh → r.payload.toNat / 2 ^ (w * n) % 2 ^ w = (s.el.const ki.toNat).toNat % 2 ^ w)
  ∧ gives (.vmov ty sh da db) [a] a
  ∧ fires (.vbcmp sh da db) [a, b] (fun r => ∃ m ≤ n, r = hd [a, b] (BitVec.ofNat 64 m)
      ∧ (∀ j < m, (sh = 0 ∨ seen j) → byte a j = byte b j)
      ∧ (m < n → (sh = 0 ∨ seen m) ∧ byte a m ≠ byte b m))
  ∧ fires (.vbeqm sh da db) [a, b] (fun r => r = hd [a, b] r.ref ∧
      ∀ j < 64, (r.ref.getLsbD j = true ↔ j < n ∧ (sh = 0 ∨ seen j) ∧ byte a j = byte b j))
  ∧ gives (.ecfg da) [a]
      { kind := 6, coord := BitVec.ofNat 32 (k0.toNat % 16 + 2 ^ 16 * (k0.toNat / 2 ^ 16 % 256)), ref := BitVec.ofNat 64 (a.ref.toNat % 2 ^ 32) })
  ∧ (∀ (rm : BitVec 2),
  let f := fun (g : FVal → FVal) (x : Nat) => fF32.round (g (fF32.dec x)) rm false
  let pz := 0x00000000; let nz := 0x80000000; let pi := 0x7F800000; let ni := 0xFF800000
  let one := 0x3F800000; let nan := 0x7FC00000
  f FVal.rcp pz = pi ∧ f FVal.rcp nz = ni ∧ f FVal.rcp pi = pz ∧ f FVal.rcp ni = nz ∧ f FVal.rcp one = one
  ∧ f FVal.rsq pz = pi ∧ f FVal.rsq nz = ni ∧ f FVal.rsq pi = pz ∧ f FVal.rsq ni = nan ∧ f FVal.rsq one = one
  ∧ f FVal.exp2 pz = one ∧ f FVal.exp2 nz = one ∧ f FVal.exp2 pi = pi ∧ f FVal.exp2 ni = pz ∧ f FVal.exp2 one = 0x40000000
  ∧ f FVal.log2 pz = ni ∧ f FVal.log2 nz = ni ∧ f FVal.log2 pi = pi ∧ f FVal.log2 ni = nan ∧ f FVal.log2 one = pz
  ∧ ∀ x, x < 2 ^ 32 →
    (0x7F800000 < x % 2 ^ 31 → f FVal.rcp x = nan ∧ f FVal.rsq x = nan ∧ f FVal.exp2 x = nan ∧ f FVal.log2 x = nan
      ∧ f FVal.neg x = nan ∧ f FVal.abs x = nan)
    ∧ (0x80000000 < x → x < 0xFF800000 → f FVal.rsq x = nan ∧ f FVal.log2 x = nan))

/-- R39, R43, R117, R130-R132, R136: ELD and EST. The address is k0, k1 and index times k2. A performed read's bytes
stand in REF or in the payload, of a shadow window the bytes it gathers; a performed write covers the enabled groups,
whose formats alone are checked (log 79), and is acknowledged with REF 1; a false control value performs nothing and
emits REF 0, and its other fields do not count (log 77). The head of a vector result copies COORD and has REF 0 (log
78). The DATA that an element which is a sink takes is progress (R323). An offset off the lane's width freezes the
graph. R118, R133-R135: hash tables. An entry is 8 bytes of the tile named by k0, key below value; a probe goes from
the key's hash to the first entry that holds the key or is empty. HPROBE emits the value found, or ABSENT; HINS keeps
a value found, writes an empty entry, and counts a full table. A result waits in the output stage, of 2 places and one
for each slot probed. Both wait for the tile. Once the task is aborted what a probe finds is free and nothing is
written (R295, log 23). A hash element of lower index that would fire goes first (log 4). -/
def Obligations.ElementMemory : Prop :=
  (∀ (s : State) (ty : BitVec 3) (sh : BitVec 2) (gd : BitVec 1) (da db : BitVec 6)
    (a v g : Token) (bs : List Byte) (s' : State) (p : Nat) (gr : Graph),
  let k := fun n => (SMap.get 0 s.el.k n).toNat
  let w := s.elWho
  let va := mkVa (k 0 % 2 ^ 16) (2 ^ 32 * (k 0 / 2 ^ 16) + k 1 + a.ref.toNat % 2 ^ 32 * k 2)
  let n := if sh = 0 then tyBytes ty else shapeBytes sh
  let ld : Instr := .eld ty sh gd da db
  let st : Instr := .est ty sh da db
  let lt := if gd = 1 then [a, g] else [a]
  let reads := (s.isWindow w va = false ∧ badFmt ty (s.entriesOf w .rd va n) = none ∧ s.readVa w va n = .ok (bs, s'))
    ∨ (s.isWindow w va = true ∧ ∃ es, s.readWindow w va n = .ok (bs, s', es) ∧ badFmt ty es = none)
  let ok := gd = 0 ∨ tkCtlVal g = true
  let sunk := fun (s0 : State) (i : Instr) (r : Token) (t : State) =>
    ∃ u, FiresElem s0 u i r ∧ t = u.sinkToken s.focus.cell s.focus.unit a
  let frozen := fun (t : State) => t.mem = s.mem ∧ ∃ g', t.graph p gr.lid = some g' ∧ g'.freeze ≠ none
  s.portBusy s.focus.cell (3 * s.focus.unit) = false →
  (ElemHolds s ld lt →
    (¬ ok → Gives ld s fun t => sunk s ld (dataHead [a]) t)
    ∧ (ok → vaOff va % tyBytes ty = 0 → reads → Gives ld s fun t => ∃ r, sunk s' ld r t
        ∧ (sh = 0 → r = { dataHead [a] with ref := BitVec.ofNat 64 (leNat bs) })
        ∧ (sh ≠ 0 → r = { dataHead [a] with
            pl := true, lmask := 0xFFFF, payload := BitVec.ofNat 512 (leNat bs) }))
    ∧ (ok → vaOff va % tyBytes ty ≠ 0 → s.graphAt s.focus.cell = some (p, gr) → Gives ld s frozen))
  ∧ (ElemHolds s st [a, v, g] →
    (tkCtlVal g = false → Gives st s fun t => sunk s st (dataHead [a, v]) t)
    ∧ (tkCtlVal g = true → vaOff va % tyBytes ty ≠ 0 → s.graphAt s.focus.cell = some (p, gr) → Gives st s frozen)
    ∧ (tkCtlVal g = true → vaOff va % tyBytes ty = 0 →
      (sh = 0 → badFmt ty (s.entriesOf w .wr va n) = none →
        s.writeVa w va (natLe (v.ref.toNat % 2 ^ (8 * n)) n) = .ok s' → (∃ ps, s.locateAll w .wr (partsOf va n) = .ok ps) →
        Gives st s fun t => sunk s' st { dataHead [a, v] with ref := 1 } t)
      ∧ (sh ≠ 0 → badFmt ty ((estPieces ty sh va v).flatMap fun q => s.entriesOf w .wr q.1 q.2.length) = none →
        s.writeStrm w (estPieces ty sh va v) = .ok s' →
        Gives st s fun t => sunk s' st { dataHead [a, v] with ref := 1 } t)
      ∧ (sh ≠ 0 → ∀ q, q ∈ estPieces ty sh va v ↔ ∃ j < shapeBytes sh / 4, v.pl = true ∧ v.lmask.getLsbD j = true
        ∧ q.1 = mkVa (vaTensor va) (vaOff va + 4 * j) ∧ q.2 = natLe (v.payload.toNat / 2 ^ (32 * j)) 4)
      ∧ (sh ≠ 0 → (v.pl = false ∨ v.lmask = 0) → Gives st s fun t => sunk s st { dataHead [a, v] with ref := 1 } t))))
  ∧ (∀ (s : State) (da db : BitVec 6) (a v g : Token) (m : Nat),
  let c := s.focus.cell
  let x := s.cell c
  let k := fun n => (SMap.get 0 s.el.k n).toNat
  let tile := k 0 % 64
  let log := k 1 % 32
  let key := (a.ref.setWidth 32 : BitVec 32)
  let val := v.ref.toNat % 2 ^ 32
  let sel := k 1 / 2 ^ 8 % 4
  let h := if sel = 0 then hashLane key else if sel = 1 then hashCrc 0xFFFFFFFF key else if sel = 2 then hashFold key else key
  let at' := fun j => (h.toNat + j) % 2 ^ log
  let ek := fun j => x.tileNat tile (8 * at' j) 4
  let ev := fun j => x.tileNat tile (8 * at' j + 4) 4
  let passed := fun n => ∀ j < n, ek j ≠ 0xFFFFFFFF ∧ ek j ≠ key.toNat
  let found := m < 2 ^ log ∧ passed m ∧ ek m = key.toNat ∧ key ≠ 0xFFFFFFFF
  let empty := m < 2 ^ log ∧ passed m ∧ ek m = 0xFFFFFFFF
  let full := passed (2 ^ log)
  let hp : Instr := .hprobe da db
  let hi : Instr := .hins da db
  let probed : Token := { kind := 0, coord := key }
  let put : Token := { kind := 0, coord := a.coord }
  let absent := fun (t : Token) => { t with ref := BitVec.allOnes 64, absent := true }
  let fires := fun (s0 : State) (i : Instr) (r : Token) (t : State) =>
    ∃ u, FiresElem s0 u i r ∧ t = u.sinkToken c s.focus.unit a
  let holds := fun (i : Instr) (ts : List Token) (places : Nat) => (instrSlots i).mapM s.el.slot = some ts
    ∧ ts.head?.map (·.kind) = some 0 ∧ (∀ t ∈ ts, tkIsCtl t = false) ∧ s.el.out.length < places
  let fits := log ≤ 15 ∧ x.tileReady tile = true ∧ 8 * 2 ^ log ≤ (x.tile tile).bytes
  let dead := s.suppressed s.elWho = true
  let free := { s with freeCtr := s.freeCtr + 2 }
  s.portBusy c (3 * s.focus.unit) = false →
  (fits → ¬ dead → s.hashFirst = true → (∀ j < 2 ^ log, x.tilePoison tile (8 * j) 8 = none) →
    (found → holds hp [a] (m + 3) → Gives hp s (fires s hp { probed with ref := BitVec.ofNat 64 (ev m) }))
    ∧ (empty → holds hp [a] (m + 3) → Gives hp s (fires s hp (absent probed)))
    ∧ (full → holds hp [a] (2 ^ log + 2) → Gives hp s (fires s hp (absent probed)))
    ∧ (tkCtlVal g = true →
      (found → holds hi [a, v, g] (m + 3) → Gives hi s (fires s hi { put with ref := BitVec.ofNat 64 (ev m) }))
      ∧ (empty → key ≠ 0xFFFFFFFF → holds hi [a, v, g] (m + 3) → Gives hi s
          (fires (s.tileWrite c tile (8 * at' m) (natLe (key.toNat + 2 ^ 32 * val) 8)) hi { put with ref := BitVec.ofNat 64 val }))
      ∧ (empty → key = 0xFFFFFFFF → holds hi [a, v, g] (m + 3) → Gives hi s (fires (s.bump c 0x00D 1) hi (absent put)))
      ∧ (full → holds hi [a, v, g] (2 ^ log + 2) → Gives hi s (fires (s.bump c 0x00D 1) hi (absent put)))))
  ∧ ((fits ∨ dead) → holds hi [a, v, g] 2 → tkCtlVal g = false → Gives hi s (fires s hi (absent put)))
  ∧ (x.tileReady tile = false → ¬ dead →
    (holds hp [a] 2 → exec hp s = .next s) ∧ (holds hi [a, v, g] 2 → exec hi s = .next s))
  ∧ (dead → s.hashFirst = true →
    (holds hp [a] 3 → Gives hp s fun t => fires free hp (absent probed) t
      ∨ ∃ n < 2 ^ 32, fires free hp { probed with ref := BitVec.ofNat 64 n } t)
    ∧ (holds hi [a, v, g] 3 → tkCtlVal g = true → Gives hi s fun t => fires (free.bump c 0x00D 1) hi (absent put) t
      ∨ ∃ n < 2 ^ 32, fires free hi { put with ref := BitVec.ofNat 64 n } t)))

/-- R236-R242: level scanners. No token is taken before the tiles that the word names are READY. A parent DATA opens
its fibre; the fibre's entries leave one at a time in the order of R240, with their values; its end leaves a STOP
pending, which the next token at sc.i gives its level; before a DATA a pending STOP(0) goes out first. An ABSENT
parent has an empty fibre, whatever N and the offsets hold (log 99). A seek-enabled scanner holds its STOP and its
next fibre until a release. Once its task is aborted a scanner waits for no tile, and what it would read is free
(R295, log 23). R242, R243: a SEEK at scN.k. COORD 0 releases a held scanner; another target moves the open fibre to
the first entry at or past it, or drops the rest; where the next entry is not before the target, nothing moves. A
scanner of an aborted task reads nothing: its seek stays, drops the fibre or moves to a free place (R295, log 23). -/
def Obligations.Scanners : Prop :=
  (∀ (s : State) (ta tb tv : BitVec 6) (vf : BitVec 2) (seek : BitVec 1) (t : Token),
  let c := s.focus.cell
  let x := s.cell c
  let u := s.focus.unit
  let b := s.blk
  let k := x.scanner u
  let kc := fun n => (SMap.get 0 b.k n).toNat
  let dn : Instr := .scanD tv vf seek
  let cm : Instr := .scanC ta tb tv vf seek
  let bm : Instr := .scanB ta tb tv vf seek
  let own := fun (k' : Scanner) (y : Cell) => { y with m := if u = 16 then { y.m with sc0 := k' } else { y.m with sc1 := k' } }
  let to' := fun (i : Instr) (b' : Block) (k' : Scanner) => Gives i s fun r => StepsBlock s r b' (own k') ∧ SameBytes s r
  let all := fun (P : Instr → Prop) => P dn ∧ P cm ∧ P bm
  let vals := vf = 0 ∨ x.tileReady tv.toNat = true
  let lists := x.tileReady ta.toNat = true ∧ x.tileReady tb.toNat = true
  let dead := s.suppressed s.blkWho = true
  let takes := fun (P : Instr → Prop) => (vals ∨ dead → P dn) ∧ ((vals ∧ lists) ∨ dead → P cm ∧ P bm)
  let stop0 := if k.pend then [tkStop 0] else []
  let held := seek = 1 ∧ k.win = .held
  let p := k.parent.toNat % 2 ^ 32
  let N := kc 0
  let k1 := if seek = 1 then { k with win := .opened } else k
  let nw := bmWords N
  let data := fun (co ref : Nat) (d : Token) =>
    let plain : Token := { kind := 0, coord := BitVec.ofNat 32 co, ref := BitVec.ofNat 64 ref }
    let size := if vf = 1 then 4 else 2
    (vf = 0 ∧ d = plain) ∨ (vf ≠ 0 ∧ ∃ v, x.tileRd tv.toNat (kc 3 + size * ref) size = .ok v
      ∧ d = { plain with pl := true, lmask := 1, payload := BitVec.ofNat 512 (widenValue vf.toNat v) })
  b.out = [] → s.blkFree = true →
  (∀ rest, k.owed = t :: rest →
    (¬ (held ∧ t.kind = 1) → all (to' · (b.emit t)
      { k with owed := rest, win := if seek = 1 ∧ t.kind = 1 then .held else k.win }))
    ∧ (held ∧ t.kind = 1 → all fun i => exec i s = .next s))
  ∧ (k.owed = [] → k.active = false → b.head 0 = some t →
    (¬ dead → (¬ vals → all fun i => exec i s = .next s) ∧ (¬ lists → exec cm s = .next s ∧ exec bm s = .next s))
    ∧ ((t.kind = 0 ∨ t.kind = 1) → b.span = none → takes fun i => Gives i s (Freezes s · c))
    ∧ (t.kind = 1 → b.span ≠ none → t.level ≠ 7 →
      takes (to' · (b.take 0 t) { k with owed := [tkStop (t.level + 1)], pend := false }))
    ∧ ((t.kind = 2 ∨ t.kind = 3 ∨ t.kind = 4 ∨ t.kind = 5) →
      takes (to' · (b.take 0 t) { k with owed := stop0 ++ [t], pend := false }))
    ∧ (t.kind = 0 → b.span ≠ none → k.pend = true → takes (to' · b { k with owed := [tkStop 0], pend := false }))
    ∧ (t.kind = 0 → b.span ≠ none → k.pend = false → t.absent = true →
      takes (to' · (b.take 0 t) { k with active := false, pend := true }))
    ∧ (t.kind = 0 → b.span ≠ none → k.pend = false → t.absent = false → ¬ dead →
      (vf = 0 ∨ (x.tileReady tv.toNat = true ∧ valueTagBad vf.toNat (x.tile tv.toNat).fmt = false)) →
      let k' : Scanner := { k with active := true, parent := t.ref }
      let q := t.ref.toNat % 2 ^ 32
      (N = 0 → Gives dn s (Freezes s · c)) ∧ (N ≠ 0 → to' dn (b.take 0 t) { k' with next := 0, stop := N })
      ∧ (N ≠ 0 → kc 1 % 4 = 0 → kc 2 % 64 = 0 → x.tileReady ta.toNat = true → x.tileReady tb.toNat = true →
        to' bm (b.take 0 t) { k' with next := 0, stop := N })
      ∧ (∀ lo hi, lo < 2 ^ 32 → kc 1 % 4 = 0 → kc 2 % 4 = 0 → x.tileCheck ta.toNat 0 0 = .ok () →
        x.tileRd tb.toNat (kc 1 + 4 * q) 8 = .ok (lo + 2 ^ 32 * hi) →
        (lo ≤ hi → to' cm (b.take 0 t) { k' with next := lo, stop := hi }) ∧ (hi < lo → Gives cm s (Freezes s · c)))))
  ∧ (k.owed = [] → k.active = true → ¬ held → dead → k.next < k.stop → Gives cm s fun r => ∃ d : Token,
      StepsBlock { s with freeCtr := r.freeCtr } r (b.emit d) (own { k1 with next := k.next + 1 }) ∧ d.kind = 0
      ∧ d.ref = BitVec.ofNat 64 k.next)
  ∧ (k.owed = [] → k.active = true → ¬ held → ¬ dead →
    (N ≤ k.next → to' dn b { k1 with active := false, pend := true })
    ∧ (k.stop ≤ k.next → to' cm b { k1 with active := false, pend := true })
    ∧ (k.next < N → ∀ d, data k.next (p * N + k.next) d → to' dn (b.emit d) { k1 with next := k.next + 1 })
    ∧ (k.next < k.stop → ∀ co d, x.tileRd ta.toNat (kc 2 + 4 * k.next) 4 = .ok co → data co k.next d →
        to' cm (b.emit d) { k1 with next := k.next + 1 })
    ∧ ((∀ j < nw, x.tileCheck ta.toNat (kc 2 + 64 * (p * nw + j)) 64 = .ok ()
        ∧ x.tileCheck tb.toNat (kc 1 + 4 * (p * nw + j)) 4 = .ok ()) →
      let bit := fun n => (x.tileNat ta.toNat (kc 2 + 64 * (p * nw + n / 512)) 64).testBit (n % 512)
      let ref := fun n => x.tileNat tb.toNat (kc 1 + 4 * (p * nw + n / 512)) 4
        + (List.range (n % 512)).countP fun j => bit (n / 512 * 512 + j)
      (∀ n d, k.next ≤ n → n < N → bit n = true → (∀ j, k.next ≤ j → j < n → bit j = false) → data n (ref n) d →
        to' bm (b.emit d) { k1 with next := n + 1 })
      ∧ ((∀ n, k.next ≤ n → n < N → bit n = false) → to' bm b { k1 with active := false, pend := true })))
  ∧ (k.owed = [] → k.active = true → held → all fun i => exec i s = .next s))
  ∧ (∀ (s : State) (c n : Nat) (ta tb tv : BitVec 6) (vf : BitVec 2) (t : Token) (rest : List Token),
  let u := 16 + n
  let x := s.cell c
  let b := x.block u
  let k := x.scanner u
  let kc := fun m => (SMap.get 0 b.k m).toNat
  let g := t.coord.toNat
  let to' := fun (k' : Scanner) => Gives (.scannerSeekTaken c n) s fun r => (r.cell c).scanner u = k'
    ∧ (r.cell c).block u = { b with back := SMap.set b.back 0 rest }
    ∧ (∀ v, v ≠ u → (r.cell c).block v = x.block v) ∧ (∀ d, d ≠ c → r.cell d = s.cell d) ∧ SameBytes s r
  let open' := k.win = .opened ∧ k.active = true ∧ k.owed = []
  let free := s.portBusy c (blockPort u) = false
  let dropped : Scanner := { k with active := false, pend := true }
  let dead := s.suppressed { cell := c, span := b.span, port := blockPort u, cls := .strm } = true
  n ≤ 1 → s.cellLive c = true → SMap.get [] b.back 0 = t :: rest →
  ((t.kind ≠ 8 ∨ t.level ≠ 0) → Gives (.scannerSeekTaken c n) s (Freezes s · c))
  ∧ (t.kind = 8 → t.level = 0 → ∀ i, decodeOp b.word = some (.instr i) →
    (i = .scanD tv vf 1 ∨ i = .scanC ta tb tv vf 1 ∨ i = .scanB ta tb tv vf 1) →
    (g = 0 → k.win = .held → to' { k with win := .ready }) ∧ (g = 0 → k.win ≠ .held → to' k)
    ∧ (g ≠ 0 → ¬ open' → to' k) ∧ (g ≠ 0 → open' → ¬ free → exec (.scannerSeekTaken c n) s = .next s)
    ∧ (g ≠ 0 → open' → free → i = .scanD tv vf 1 → k.next < kc 0 →
      (g ≤ k.next → to' k) ∧ (k.next < g → g < kc 0 → g ≠ 0xFFFFFFFF → to' { k with next := g })
      ∧ (k.next < g → (kc 0 ≤ g ∨ g = 0xFFFFFFFF) → to' dropped))
    ∧ (g ≠ 0 → open' → free → dead → i ≠ .scanD tv vf 1 → Gives (.scannerSeekTaken c n) s fun r =>
      (r.cell c).block u = { b with back := SMap.set b.back 0 rest } ∧ ((r.cell c).scanner u = k ∨ (r.cell c).scanner u = dropped
        ∨ ∃ m, (r.cell c).scanner u = { k with next := m }))
    ∧ (g ≠ 0 → open' → free → ¬ dead → i = .scanC ta tb tv vf 1 → k.next < k.stop →
      (∀ j, k.next ≤ j → j < k.stop → x.tileCheck ta.toNat (kc 2 + 4 * j) 4 = .ok ()) →
      let crd := fun j => x.tileNat ta.toNat (kc 2 + 4 * j) 4
      (g ≤ crd k.next → to' k)
      ∧ (∀ j, (∀ l l', k.next ≤ l → l < l' → l' < k.stop → crd l < crd l') → crd k.next < g → k.next < j → j < k.stop → g ≤ crd j → (∀ l, k.next ≤ l → l < j → crd l < g) → g ≠ 0xFFFFFFFF →
        to' { k with next := j })
      ∧ ((∀ l, k.next ≤ l → l < k.stop → crd l < g) → to' dropped)
      ∧ (crd k.next < g → g = 0xFFFFFFFF → to' dropped))
    ∧ (g ≠ 0 → open' → free → ¬ dead → i = .scanB ta tb tv vf 1 →
      let nw := bmWords (kc 0)
      let w := fun j => k.parent.toNat % 2 ^ 32 * nw + j
      (∀ j < nw, x.tileCheck ta.toNat (kc 2 + 64 * w j) 64 = .ok () ∧ x.tileCheck tb.toNat (kc 1 + 4 * w j) 4 = .ok ()) →
      let bit := fun m => (x.tileNat ta.toNat (kc 2 + 64 * w (m / 512)) 64).testBit (m % 512)
      ∀ m, k.next ≤ m → m < kc 0 → bit m = true → (∀ j, k.next ≤ j → j < m → bit j = false) →
      (g ≤ m → to' k)
      ∧ (m < g → g ≠ 0xFFFFFFFF → (∃ j, g ≤ j ∧ j < kc 0 ∧ bit j = true) → to' { k with next := g })
      ∧ (m < g → (g = 0xFFFFFFFF ∨ ∀ j, g ≤ j → j < kc 0 → bit j = false) → to' dropped))))

/-- R29, R236, R245-R248: merge units, over the heads of m.a and m.b inside a span and in order. Equal coordinates leave as one
DATA; ISECT discards the lesser, UNION emits it alone; STOPs of one level and like control tokens leave as one; unlike ones,
and a coordinate out of order, freeze the graph. A seek is sent only where the first router back buffer of its back path has room, a
release waits for that room (R212, R247). -/
def Obligations.MergeUnits : Prop := ∀ (s : State) (osel pay : BitVec 2) (ska skb : BitVec 1) (thr : BitVec 5) (a b : Token),
  let c := s.focus.cell
  let k := s.blk
  let g := s.mg
  let isect : Instr := .isect osel pay ska skb thr
  let uni : Instr := .union osel pay
  let own := fun (g' : Merge) (y : Cell) => { y with s := { y.s with mg := g' } }
  let to' := fun (i : Instr) (b' : Block) (g' : Merge) => Gives i s fun r => StepsBlock s r b' (own g') ∧ SameBytes s r
  let both := fun (P : Instr → Prop) => P isect ∧ P uni
  let ordered := fun (last : Option (BitVec 32)) (t : Token) => t.kind = 0 → t.coord ≠ 0xFFFFFFFF ∧ ∀ l, last = some l → l.toNat < t.coord.toNat
  let ref := fun (x y : Word) => if osel = 0 then x else y
  let pair := fun (q : Token) (x y : Option Token) (r : Token) =>
    let lane := fun (t : Option Token) => match t with | some t => if t.pl then t.payload.toNat % 2 ^ 32 else 0 | none => 0
    let bit := fun (t : Option Token) => match t with | some t => t.pl && t.lmask.getLsbD 0 | none => false
    let side := fun (t : Option Token) => match t with
      | some t => if t.pl then { q with pl := true, payload := t.payload, lmask := t.lmask } else q
      | none => q
    (pay = 0 → r = q) ∧ (pay = 1 → r = side x) ∧ (pay = 2 → r = side y)
    ∧ (pay = 3 → r = { q with pl := true, payload := r.payload, lmask := r.lmask }
      ∧ r.payload.toNat = lane x + 2 ^ 32 * lane y ∧ r.lmask.toNat = (bit x).toNat + 2 * (bit y).toNat)
  let emitted := fun (co : BitVec 32) (x y : Option Token) (r : Token) =>
    let miss : Word := BitVec.allOnes 64
    pair { kind := 0, coord := co, ref := ref ((x.map (·.ref)).getD miss) ((y.map (·.ref)).getD miss) } x y r
  let took := fun (x y : Bool) => { g with
    lastA := if x then some a.coord else g.lastA, lastB := if y then some b.coord else g.lastB, fibre := true }
  let room := fun n => s.backRoom [n] = true
  let sent := fun (n : Nat) (co : BitVec 32) (bk : SMap (List Token)) => SMap.set bk n [{ kind := 8, coord := co }]
  let wants := fun (on : BitVec 1) (n : Nat) (mark co far : BitVec 32) (past : Bool) =>
    on = 1 ∧ room n ∧ if past then mark ≠ far else mark.toNat < far.toNat ∧ 2 ^ thr.toNat ≤ far.toNat - co.toNat
  let dropA := fun (far : BitVec 32) (past : Bool) =>
    (wants ska 0 g.seekA a.coord far past →
      to' isect { k.take 0 a with back := sent 0 far k.back } { took true false with seekA := far })
    ∧ (¬ wants ska 0 g.seekA a.coord far past → to' isect (k.take 0 a) (took true false))
  let dropB := fun (far : BitVec 32) (past : Bool) =>
    (wants skb 1 g.seekB b.coord far past →
      to' isect { k.take 1 b with back := sent 1 far k.back } { took false true with seekB := far })
    ∧ (¬ wants skb 1 g.seekB b.coord far past → to' isect (k.take 1 b) (took false true))
  let back0 := if ska = 1 then sent 0 0 k.back else k.back
  let back1 := if skb = 1 then sent 1 0 back0 else back0
  let held := s.backRoom ((if ska = 1 then [0] else []) ++ if skb = 1 then [1] else []) = false
  let fails := both fun i => Gives i s (Freezes s · c)
  (∀ n m p vc, (n = 0 ∧ m = 1 ∨ n = 1 ∧ m = 0) → s.backDest n = some (.port p vc) → s.backDest m ≠ s.backDest n →
    (s.backRoom [n] = true ↔ SMap.get [] k.back n = []
      ∧ (SMap.get [] (s.cell c).router.inb (rIdx p vc)).length < inbDepth c p vc))
  ∧ ((k.head 0 = none ∨ k.head 1 = none) → both fun i => exec i s = .next s)
  ∧ (k.head 0 = some a → k.head 1 = some b → a.kind ≠ 6 →
    (k.span = none → (a.kind.toNat ≤ 1 ∨ b.kind.toNat ≤ 1) → fails)
    ∧ ((a.kind.toNat ≤ 1 ∨ b.kind.toNat ≤ 1 → k.span ≠ none) →
      (¬ (ordered g.lastA a ∧ ordered g.lastB b) → fails)
      ∧ (ordered g.lastA a → ordered g.lastB b →
        (a.kind = 0 → b.kind = 0 → a.coord = b.coord → k.out = [] →
          ∃ r, emitted a.coord (some a) (some b) r ∧ both (to' · (((k.take 0 a).take 1 b).emit r) (took true true)))
        ∧ (k.out = [] → a.kind = 0 → ((b.kind = 0 ∧ a.coord.toNat < b.coord.toNat) ∨ b.kind = 1) →
          ∃ r, emitted a.coord (some a) none r ∧ to' uni ((k.take 0 a).emit r) (took true false))
        ∧ (k.out = [] → b.kind = 0 → ((a.kind = 0 ∧ b.coord.toNat < a.coord.toNat) ∨ a.kind = 1) →
          ∃ r, emitted b.coord none (some b) r ∧ to' uni ((k.take 1 b).emit r) (took false true))
        ∧ (a.kind = 0 → b.kind = 0 → a.coord.toNat < b.coord.toNat → dropA b.coord false)
        ∧ (a.kind = 0 → b.kind = 1 → dropA 0xFFFFFFFF true)
        ∧ (a.kind = 0 → b.kind = 0 → b.coord.toNat < a.coord.toNat → dropB a.coord false)
        ∧ (a.kind = 1 → b.kind = 0 → dropB 0xFFFFFFFF true)
        ∧ (a.kind = 1 → b.kind = 1 → a.level = b.level → k.out = [] →
          let q := ((k.take 0 a).take 1 b).emit (tkStop a.level)
          to' uni q g.fresh ∧ (¬ held → to' isect { q with back := back1 } g.fresh))
        ∧ (a.kind = 1 → b.kind = 1 → a.level = b.level → held → exec isect s = .next s)
        ∧ (a.kind = 1 → b.kind = 1 → a.level ≠ b.level → fails)
        ∧ (b.kind = a.kind → k.out = [] → (a.kind = 2 ∨ ((a.kind = 3 ∨ a.kind = 4) ∧ a.ref = b.ref)) →
          both (to' · (((k.take 0 a).take 1 b).emit a) g.fresh))
        ∧ (a.kind = 5 → b.kind = 5 → k.out = [] → both (to' · (((k.take 0 a).take 1 b).emit a) g))
        ∧ (b.kind = a.kind → (a.kind = 3 ∨ a.kind = 4) → a.ref ≠ b.ref → fails)
        ∧ (a.kind.toNat ≤ 5 → b.kind.toNat ≤ 5 → a.kind ≠ b.kind → 2 ≤ max a.kind.toNat b.kind.toNat → fails))))

/-- R249, R250: the repeater. A driver DATA loads the stored fibre once, replaying what is stored as it loads, and
replays it afterwards; a driver STOP closes the replay one level up and, from NEWAT on without SPAN, ends the use of
the store; SOT, EOT and DONE pair with their like at rpt.i. At EOT and DONE a pending STOP(0) leaves first, then what
stands before their like at rpt.i is discarded, a CFG (log 45) and tokens that have no business there (log 76) too.
Another token at rpt.i while SOT stands at rpt.r freezes the graph (log 100). R237, R251-R254: reducers. Each
contributing DATA is folded in; STOP, EOT and DONE close the fibre, run or ranking into what the reducer owes; SOT
starts again at ordinal 0; EOR passes. A DATA that contributes nothing has arrived all the same (log 111). R237, R255,
R256: the level writer. Each DATA, STOP and EOT of a span writes the bytes of R256 to the named tiles and advances the
writer's counters; a write past its tile's end is not performed and freezes the graph, after the writes before it (R5,
R237); a coordinate at or past N, or one that does not ascend in a bitmap level, freezes the graph. DONE ends an open
fibre (R29). A .C writer with an offset off its multiple freezes the graph at the SOT already (log 104). Once the task
is aborted the writer writes nothing and waits for no tile (R295, log 83). -/
def Obligations.FoldUnits : Prop :=
  (∀ (s : State) (newat : BitVec 3) (span : BitVec 1) (d t : Token),
  let i : Instr := .rept newat span
  let c := s.focus.cell
  let b := s.blk
  let r := s.rp
  let own := fun (r' : Rept) (y : Cell) => { y with s := { y.s with rep := r' } }
  let to' := fun (b' : Block) (r' : Rept) => Gives i s fun z => StepsBlock s z b' (own r') ∧ SameBytes s z
  let fails := Gives i s (Freezes s · c)
  let stop0 := if r.pend then [tkStop 0] else []
  let ends := span = 0 ∧ newat.toNat ≤ d.level.toNat
  let empty : Rept := { r with loaded := false, loading := false, store := [], pend := false }
  let emits := fun (e : RepEntry) (rest : List RepEntry) => ∃ o, to' (b.emit o) { r with replay := rest }
    ∧ o = { kind := 0, coord := e.coord, ref := e.ref, pl := e.pl, lmask := o.lmask, payload := o.payload }
    ∧ o.payload.toNat = (if e.pl then e.lane.toNat else 0) ∧ o.lmask.toNat = e.mask0.toNat
  (∀ rest, r.owed = t :: rest → b.out = [] → to' (b.emit t) { r with owed := rest })
  ∧ (r.owed = [] → r.playing = true →
    (∀ e rest, r.replay = e :: rest → b.out = [] → emits e rest)
    ∧ (r.replay = [] → to' b { r with playing := false, pend := true }))
  ∧ (r.owed = [] → r.playing = false →
    (b.head 1 = none → exec i s = .next s)
    ∧ (b.head 1 = some d → (d.kind = 0 ∨ d.kind = 1) → b.span = none → fails)
    ∧ (b.head 1 = some d → b.span ≠ none →
      (d.kind = 0 → r.loaded = true → to' (b.pop 1) { r with owed := stop0, pend := false, playing := true, replay := r.store })
      ∧ (d.kind = 0 → r.loaded = false → b.out = [] → ∀ e rest, r.replay = e :: rest → emits e rest)
      ∧ (d.kind = 0 → r.loaded = false → (r.replay = [] ∨ b.out ≠ []) → b.head 0 = some t →
        (t.kind = 0 → r.store.length < 1024 → ∃ e : RepEntry, to' (b.pop 0) { r with
            store := r.store ++ [e], replay := r.replay ++ [e], loading := true, owed := stop0, pend := false }
          ∧ e.coord = t.coord ∧ e.ref = t.ref ∧ e.pl = t.pl
          ∧ e.mask0 = t.lmask.getLsbD 0 ∧ (t.pl = true → e.lane.toNat = t.payload.toNat % 2 ^ 32))
        ∧ (t.kind = 0 → 1024 ≤ r.store.length → fails)
        ∧ (t.kind = 1 → r.loading = true → to' ((b.pop 0).pop 1) { r with loaded := true, loading := false, playing := true })
        ∧ (t.kind = 1 → r.loading = false → to' (b.pop 0) { r with loaded := true })
        ∧ ((t.kind = 2 ∨ t.kind = 4) → r.loading = false → to' b { r with loaded := true })
        ∧ (t.kind = 6 → r.loading = false → exec i s = .next s)
        ∧ (2 ≤ t.kind.toNat → r.loading = true → fails)
        ∧ ((t.kind = 3 ∨ t.kind = 5 ∨ 7 ≤ t.kind.toNat) → fails))
      ∧ (d.kind = 1 → d.level ≠ 7 → (ends → to' (b.pop 1) { r with
          owed := [tkStop (d.level + 1)], pend := false, loaded := false, store := [] })
        ∧ (¬ ends → to' (b.pop 1) { r with owed := [tkStop (d.level + 1)], pend := false }))
      ∧ (d.kind = 1 → d.level = 7 → fails))
    ∧ (b.head 1 = some d →
      (d.kind = 5 → to' (b.pop 1) { r with owed := stop0 ++ [d], pend := false })
      ∧ (d.kind = 3 → b.head 0 = some t → (t.kind = 3 → t.ref = d.ref → to' ((b.pop 0).take 1 d) { empty with owed := [d], pend := r.pend })
        ∧ (t.kind ≠ 6 → ¬ (t.kind = 3 ∧ t.ref = d.ref) → fails))
      ∧ ((d.kind = 2 ∨ d.kind = 4) → r.pend = true → to' b { r with owed := [tkStop 0], pend := false })
      ∧ ((d.kind = 2 ∨ d.kind = 4) → r.pend = false → b.head 0 = some t →
        (t.kind = d.kind → (d.kind = 4 → t.ref = d.ref) → to' ((b.pop 0).take 1 d) { empty with owed := [d] })
        ∧ (t.kind = d.kind → d.kind = 4 → t.ref ≠ d.ref → fails)
        ∧ (t.kind ≠ d.kind → to' (b.pop 0) r))
      ∧ (6 ≤ d.kind.toNat → fails))))
  ∧ (∀ (s : State) (f32 sat vec vsrc wsrc grain zeros : BitVec 1) (topk : BitVec 9) (t u : Token),
  let b := s.blk
  let r := s.red
  let c := s.focus.cell
  let own := fun (r' : Reduce) (y : Cell) =>
    { y with s := if s.focus.unit = 21 then { y.s with red0 := r' } else { y.s with red1 := r' } }
  let to' := fun (i : Instr) (b' : Block) (r' : Reduce) => Gives i s fun z => StepsBlock s z b' (own r') ∧ SameBytes s z
  let lane := fun (x : BitVec 512) (n : Nat) => (x.extractLsb' (32 * n) 32 : BitVec 32)
  let int := fun (v : Int) => BitVec.ofInt 32 (if sat = 1 then max (-(2 ^ 31)) (min (2 ^ 31 - 1) v) else v)
  let pick := fun (better : BitVec 32 → BitVec 32 → Bool) (f : FVal → FVal → FVal) (acc : Option (BitVec 32)) (v _w : BitVec 32) =>
    match acc with
    | none => v
    | some a => if f32 = 1 then BitVec.ofNat 32 (fF32.round (f (fF32.dec a.toNat) (fF32.dec v.toNat)) 0 false)
      else if better v a then v else a
  let sum : Instr := .reduceSum f32 sat vec vsrc grain zeros
  let wsum : Instr := .reduceWsum f32 sat vec vsrc wsrc grain zeros
  let mn : Instr := .reduceMin f32 vec vsrc grain zeros
  let mx : Instr := .reduceMax f32 vec vsrc grain zeros
  let or' : Instr := .reduceOr vec vsrc grain zeros
  let tk : Instr := .reduceTopk f32 vsrc topk
  let five := fun (P : Instr → (Option (BitVec 32) → BitVec 32 → BitVec 32 → BitVec 32) → Prop) =>
    P sum (fun a v _ => if f32 = 1 then f32add (a.getD 0) v else int ((a.getD 0).toInt + v.toInt))
    ∧ P wsum (fun a v w => if f32 = 1 then f32fma w v (a.getD 0) else int ((a.getD 0).toInt + w.toInt * v.toInt))
    ∧ P mn (pick (fun v a => v.slt a) FVal.min) ∧ P mx (pick (fun v a => a.slt v) FVal.max)
    ∧ P or' (fun a v _ => a.getD 0 ||| v)
  let all := fun (P : Instr → Prop) => P sum ∧ P wsum ∧ P mn ∧ P mx ∧ P or' ∧ P tk
  let uses := fun (i : Instr) => i = wsum ∧ wsrc = 0
  let ready := fun (i : Instr) => uses i → b.head 1 = some u ∧ (if t.kind = 0 then u.kind = 0 else ctlPair t u = true)
  let took := fun (i : Instr) (b' : Block) => (¬ uses i → b' = b.take 0 t) ∧ (uses i → b' = (b.take 0 t).pop 1)
  let step := fun (i : Instr) (r' : Reduce) => ready i → ∃ b', took i b' ∧ to' i b' r'
  let value := if vsrc = 1 then lane t.payload 0 else t.ref.setWidth 32
  let adds := fun (i : Instr) => t.masked = false ∧ t.absent = false ∧ (vsrc = 1 → t.pl = true ∧ t.lmask.getLsbD 0 = true)
    ∧ (i = wsum → wsrc = 1 → t.pl = true ∧ t.lmask.getLsbD 1 = true)
  let weight := if wsrc = 1 then lane t.payload 1 else u.ref.setWidth 32
  let result := fun (co : BitVec 32) => if vec = 1 then ({ coord := co, pl := true, payload := r.acc, lmask := r.mask } : Token)
    else { coord := co, ref := (lane r.acc 0).zeroExtend 64 }
  let zero : Token := if vec = 1 then { zero := true, pl := true, lmask := 0xFFFF } else { zero := true }
  let folded := fun (i : Instr) (f : Option (BitVec 32) → BitVec 32 → BitVec 32 → BitVec 32) (r0 : Reduce) =>
    (vec = 0 → step i { r0 with
      any := true, fibre := true, filled := true
      acc := (f (if r0.filled then some (lane r0.acc 0) else none) value weight).zeroExtend 512 })
    ∧ (vec = 1 → ∃ acc, step i { r0 with any := true, fibre := true, filled := true, acc := acc, mask := r0.mask ||| (if t.pl then t.lmask else 0) }
      ∧ ∀ n < 16, lane acc n = if (t.pl && t.lmask.getLsbD n) = true then
          f (if r0.mask.getLsbD n then some (lane r0.acc n) else none) (lane t.payload n) weight else lane r0.acc n)
  let closed : Reduce := { r with acc := 0, mask := 0, filled := false, any := false, fibre := false, rank := [] }
  let runs := if r.filled then [result r.run] else []
  let ends := (if r.filled then [result r.ordinal] else if zeros = 1 then [{ zero with coord := r.ordinal }] else [])
  let ranks := r.rank.map fun e => ({ coord := e.1, ref := e.2.zeroExtend 64 } : Token)
  (∀ rest, r.owed = t :: rest → b.out = [] → all fun i => to' i (b.emit t) { r with owed := rest })
  ∧ (r.owed = [] → b.head 0 = some t → t.kind.toNat ≤ 5 →
    (b.span = none → t.kind.toNat ≤ 1 → all fun i => Gives i s (Freezes s · c))
    ∧ ((t.kind.toNat ≤ 1 → b.span ≠ none) →
      (t.kind = 0 → all fun i => ¬ adds i → step i { r with any := true, fibre := true })
      ∧ (t.kind = 0 → five fun i f => adds i →
        (grain = 0 → folded i f r)
        ∧ (grain = 1 → (r.filled = false ∨ r.run = t.coord) → folded i f { r with run := t.coord })
        ∧ (grain = 1 → r.filled = true → r.run ≠ t.coord → folded i f { closed with run := t.coord, owed := [result r.run] }))
      ∧ (t.kind = 0 → adds tk → ∃ l₁ l₂, r.rank = l₁ ++ l₂ ∧ step tk { r with
            any := true, fibre := true, rank := (l₁ ++ (t.coord, value) :: l₂).take topk.toNat }
          ∧ (let before := fun (e : BitVec 32 × BitVec 32) => rankKey (f32 == 1) e.2 < rankKey (f32 == 1) value
              ∨ (rankKey (f32 == 1) value = rankKey (f32 == 1) e.2 ∧ t.coord.toNat < e.1.toNat)
             (∀ e ∈ l₁, ¬ before e) ∧ ∀ e, l₂.head? = some e → before e))
      ∧ (t.kind = 1 →
        (grain = 0 → five fun i _ => (t.level = 0 → step i { closed with ordinal := r.ordinal + 1, owed := ends })
          ∧ (t.level ≠ 0 → step i { closed with ordinal := 0, owed := ends ++ [tkStop (t.level - 1)] }))
        ∧ (grain = 1 → five fun i _ => step i { closed with owed := runs ++ [t] })
        ∧ step tk { closed with owed := ranks ++ [t] })
      ∧ (t.kind = 3 → all fun i => step i { closed with ordinal := 0, owed := [t] })
      ∧ (t.kind = 5 → all fun i => step i { r with owed := [t] })
      ∧ ((t.kind = 2 ∨ t.kind = 4) →
        (grain = 0 → five fun i _ => (r.any = true → step i { closed with ordinal := r.ordinal + 1, owed := ends ++ [t] })
          ∧ (r.any = false → step i { r with owed := [t] }))
        ∧ (grain = 1 → five fun i _ => step i { closed with owed := runs ++ [t] })
        ∧ step tk { closed with owed := ranks ++ [t] })
      ∧ (wsrc = 0 → b.head 1 = some u → ¬ (if t.kind = 0 then u.kind = 0 else ctlPair t u = true) →
        Gives wsum s (Freezes s · c)))))
  ∧ (∀ (s : State) (ta tb tv : BitVec 6) (vw : BitVec 2) (t v : Token),
  let c := s.focus.cell
  let x := s.cell c
  let b := s.blk
  let l := s.lwr
  let kc := fun n => (SMap.get 0 b.k n).toNat
  let N := kc 0
  let nw := bmWords N
  let co := t.coord.toNat
  let p := l.p.toNat
  let size := if vw = 1 then 4 else if vw = 2 then 2 else 64
  let bytes := if vw = 3 then natLe v.payload.toNat 64 else natLe v.ref.toNat size
  let at' := fun r => if vw = 0 then [] else [(tv.toNat, kc 3 + r * size, bytes)]
  let ok := b.head 0 = some t ∧ (t.kind.toNat ≤ 1 → b.span ≠ none)
    ∧ (vw ≠ 0 → (x.tileReady tv.toNat = true ∨ s.suppressed s.blkWho = true) ∧ b.head 1 = some v ∧ (if t.kind = 0 then v.kind = 0 else ctlPair t v = true))
  let dead := s.suppressed s.blkWho = true
  let tiles := (x.tileReady ta.toNat = true ∧ x.tileReady tb.toNat = true) ∨ dead
  let fits := fun (q : Nat × Nat × List Byte) => q.2.1 + q.2.2.length ≤ (x.tile q.1).bytes
  let put := fun (ps : List (Nat × Nat × List Byte)) => ps.foldl (fun s q => s.tileWrite c q.1 q.2.1 q.2.2) s
  let writes := fun (i : Instr) (ps : List (Nat × Nat × List Byte)) (l' : LWriter) =>
    (((∀ q ∈ ps, fits q) ∨ dead) → Gives i s fun z => z = (((if dead then s else put ps).setLwr l').modBlk fun k =>
      if vw = 0 then k.take 0 t else (k.take 0 t).pop 1).sinkToken c 18 t)
    ∧ (¬ dead → ∀ pre q post, ps = pre ++ q :: post → (∀ r ∈ pre, fits r) → ¬ fits q → Gives i s (Freezes (put pre) · c))
  let fails := fun i => Gives i s (Freezes s · c)
  let dn : Instr := .lwriteD tv vw
  let cm : Instr := .lwriteC ta tb tv vw
  let bm : Instr := .lwriteB ta tb tv vw
  let words := fun n => (List.range (n - l.word.toNat)).flatMap fun j =>
    let q := p * nw + (l.word.toNat + j)
    let pre := l.count.toNat + (if j = 0 then 0 else onesBelow l.buf.toNat 512)
    [(ta.toNat, kc 2 + 64 * q, natLe (if j = 0 then l.buf.toNat else 0) 64), (tb.toNat, kc 1 + 4 * q, natLe pre 4)]
  let moved := fun n => if n ≤ l.word.toNat then l else
    { l with buf := 0, word := BitVec.ofNat 32 n, count := l.count + BitVec.ofNat 32 (onesBelow l.buf.toNat 512) }
  let next := fun (k : LWriter) => { k with n := l.n + 1, open_ := true }
  let fin := fun (k : LWriter) => { k with p := l.p + 1, open_ := false }
  let okC := kc 1 % 4 = 0 ∧ kc 2 % 4 = 0
  let okB := N ≠ 0 ∧ kc 1 % 4 = 0 ∧ kc 2 % 64 = 0
  ok →
  (vw ≠ 0 →
    (t.kind = 3 → writes dn [] {})
    ∧ (t.kind = 0 → N ≠ 0 → (co < N → writes dn (at' (p * N + co)) (next l)) ∧ (N ≤ co → fails dn))
    ∧ (t.kind = 1 → N ≠ 0 → writes dn [] (fin l))
    ∧ (t.kind = 4 → N ≠ 0 → writes dn [] (if l.open_ then fin l else l))
    ∧ (t.kind = 2 → writes dn [] { l with open_ := false }) ∧ (t.kind = 5 → writes dn [] l))
  ∧ (tiles → (¬ okC → t.kind = 3 → fails cm)
    ∧ (okC →
      (t.kind = 3 → writes cm [(tb.toNat, kc 1, natLe 0 4)] {})
      ∧ (t.kind = 0 → writes cm ((ta.toNat, kc 2 + 4 * l.n.toNat, natLe co 4) :: at' l.n.toNat) (next l))
      ∧ ((t.kind = 1 ∨ (t.kind = 4 ∧ l.open_ = true)) →
        writes cm [(tb.toNat, kc 1 + 4 * (p + 1), natLe l.n.toNat 4)] (fin l)))
    ∧ (t.kind = 4 → l.open_ = false → writes cm [] l ∧ writes bm [] l)
    ∧ (t.kind = 2 → writes cm [] { l with open_ := false } ∧ writes bm [] { l with open_ := false })
    ∧ (t.kind = 5 → writes cm [] l ∧ writes bm [] l)
    ∧ (t.kind = 3 → writes bm [] {})
    ∧ (okB →
      (t.kind = 0 → l.open_ = true → co ≤ l.prev.toNat → fails bm)
      ∧ (t.kind = 0 → (l.open_ = false ∨ l.prev.toNat < co) →
        (N ≤ co → fails bm)
        ∧ (co < N → writes bm (words (co / 512) ++ at' l.n.toNat)
          (next { moved (co / 512) with buf := (moved (co / 512)).buf ||| (1#512 <<< (co % 512)), prev := t.coord })))
      ∧ ((t.kind = 1 ∨ (t.kind = 4 ∧ l.open_ = true)) →
        writes bm (words nw) (fin { moved nw with buf := 0, word := 0 })))))

/-- R141-R145: the matrix engines. MLOAD opens a load of a block that lies in its source and then writes one weight
row a step, the 32nd making the plane FULL; MSWAP and MSTREAM set the pending swap; a DATA at mx.x waits for its
plane, swaps where a swap is due, and brings each row that is not masked into the array, as exact sums rounded once; a
void row brings its mark alone, which travels with the rows (log 46). That rows enter while fewer than 34 stand in the
array, whatever the FIFOs hold, is log 26. Only the rows written change a plane's contents. A load of an aborted task
reads free bytes and waits for no tile (R295, log 23). R146-R149: the accumulator nodes. A node adds the oldest sum of
its column and marks its position; an EOR counts once all columns have come to it; at COUNT, or at an EOT or DONE with
any position marked, 64 scaled tokens leave and the nodes start again; DONE is forwarded once it stands at mx.w and
mx.q too. A row leaves the array into every column FIFO, unless one of them holds eight sums (when rows move on is log
26; the marks of void rows in the FIFOs are log 46). -/
def Obligations.MatrixCells : Prop :=
  (∀ (s : State) (src : BitVec 1) (dir : BitVec 2) (tile : BitVec 6) (fmt : BitVec 4)
    (mxm : BitVec 1) (trig : BitVec 2) (t : Token) (w : WSrc) (k r sc : Nat) (at' : Nat × Nat),
  let c := s.focus.cell
  let b := s.blk
  let m := s.mx c
  let ld : Instr := .mload src dir tile fmt mxm
  let sw : Instr := .mswap trig
  let st : Instr := .mstream fmt mxm
  let own := fun (m' : Matrix) (y : Cell) => { y with mx := m' }
  let to' := fun (i : Instr) (b' : Block) (m' : Matrix) => Gives i s fun z => StepsBlock s z b' (own m') ∧ SameBytes s z
  let p := m.shadow
  let f := m.loadFmt.toNat
  let put := fun n r sc => { p with
    rows := SMap.set p.rows n (BitVec.ofNat 512 r)
    scale := if scaleBytes f = 0 then p.scale else SMap.set p.scale n (BitVec.ofNat 16 sc), fmt := m.loadFmt, mxm := m.loadMxm }
  let live := s.suppressed s.blkWho = false ∧ s.suppressed (s.mlWho c) = false
  let reads := fun n => s.wRead c w (at'.1 + n * rowBytes f) (rowBytes f) = some (.ok r)
    ∧ (scaleBytes f = 0 → sc = 0) ∧ (scaleBytes f ≠ 0 → s.wRead c w (at'.2 + n * scaleBytes f) (scaleBytes f) = some (.ok sc))
  (s.portBusy c 0x85 = false → s.wSrc c src dir tile = some w →
    (m.load = none → b.head 0 = some t →
      (t.kind = 0 → p.state = 0 →
        let lo := t.ref.toNat % 2 ^ 48
        let fits := fun g size => t.ref.toNat / 2 ^ 48 = 0 ∧ fmtMatrix g = true ∧ lo + 32 * rowBytes g ≤ size
          ∧ (scaleBytes g ≠ 0 → t.coord.toNat + 32 * scaleBytes g ≤ size)
        let opened := fun g (skip : Bool) => to' ld (b.take 0 t) { m.setShadow { p with state := 1 } with
          load := some (lo, t.coord.toNat), loadRow := 0, loadFmt := BitVec.ofNat 4 g, loadMxm := skip }
        (∀ n q, w = .tile n q → live → (s.cell n).tileReady q = true →
          let e := (s.cell n).tile q
          (fits e.fmt.toNat e.bytes → opened e.fmt.toNat e.mxm) ∧ (¬ fits e.fmt.toNat e.bytes → Gives ld s (Freezes s · c)))
        ∧ (∀ n q, w = .tile n q → ¬ live → t.ref.toNat / 2 ^ 48 = 0 → fmtMatrix ((s.cell n).tile q).fmt.toNat = true →
          s.suppressed s.blkWho = true → opened ((s.cell n).tile q).fmt.toNat ((s.cell n).tile q).mxm)
        ∧ (∀ n q, w = .tile n q → live → (s.cell n).tileReady q = false → exec ld s = .next s)
        ∧ (w = .store → ∀ q, s.partOf c = some q → (s.part q).cfg.banks = 0xFFFF → fits fmt.toNat (2 ^ 28) → opened fmt.toNat (mxm == 1)))
      ∧ (t.kind = 0 → p.state ≠ 0 → exec ld s = .next s)
      ∧ (t.kind ≠ 0 → t.kind ≠ 6 → to' ld (b.take 0 t) { m with doneW := m.doneW || t.kind == 2 }))
    ∧ (live → m.load = some at' → m.loadRow = k → k < 31 → reads k → to' ld b { m.setShadow (put k r sc) with loadRow := k + 1 })
    ∧ (s.suppressed (s.mlWho c) = true → m.load = some at' → m.loadRow = k → k < 31 → Gives ld s fun z => ∃ r sc,
      StepsBlock { s with freeCtr := z.freeCtr } z b (own { m.setShadow (put k r sc) with loadRow := k + 1 }))
    ∧ (live → m.load = some at' → m.loadRow = 31 → reads 31 → s.cellLive c = true →
      decodeOp ((s.cell c).block 23).word = some (.instr ld) → Gives (.planeFull c) s fun z => OnlyCell s z c ∧
        z.cell c = { s.cell c with mx := { m.setShadow { put 31 r sc with state := 2 } with load := none, loadRow := 0 } }))
  ∧ (b.head 0 = some t → to' sw (b.take 0 t)
      { m with pend := m.pend || (t.kind == 0 && trig == 3), doneQ := m.doneQ || t.kind == 2 })
  ∧ (m.swap.active = p ∧ m.swap.shadow = { m.active with state := 0 } ∧ m.swap.pend = false)
  ∧ (s.focus.unit = 25 → b.head 0 = some t →
    let tr := (s.cell c).swapTrig
    let n := 64 / rowBytes fmt.toNat
    let pos := t.coord.toNat
    let due := m.pend = true ∨ m.active.state = 0
    let m1 := if due then m.swap else m
    let es := (List.range n).flatMap fun q => match actRow fmt.toNat (mxm == 1) t q with
      | none => []
      | some none => [ArrayEntry.void (pos + q)]
      | some (some as) => [ArrayEntry.row (pos + q) ((List.range 32).map fun j => columnSum as m1.active.vals j)]
    let cols := fun (es : List ArrayEntry) (z : State) => m.stages = [] →
      (∀ j < 32, m.colRows j + (es.filter (·.isRow)).length ≤ 8) → (z.mx c).stages = []
      ∧ ∀ j < 32, SMap.get [] (z.mx c).fifos j = SMap.get [] m.fifos j ++ es.map fun e => match e with
        | .row p v => .sum p (v.getD j 0)
        | .void p => .void p
        | .eor => .eor
    (t.kind = 0 → fmtMatrix fmt.toNat = true → pos < 32 → pos % n = 0 → (due → m.shadow.state = 2) →
      ((∀ e ∈ es, e.isRow = false) ∨ (m.stages.filter fun es => es.any (·.isRow)).length < 34) →
      Gives st s fun z => OnlyCell s z c ∧ z.blk = b.take 0 t ∧ z.mx c = m1.enter es
        ∧ { z.mx c with fifos := m1.fifos, stages := m1.stages } = m1 ∧ cols es z)
    ∧ (t.kind = 0 → fmtMatrix fmt.toNat = true → pos < 32 → pos % n = 0 → due → m.shadow.state ≠ 2 → exec st s = .next s)
    ∧ (t.kind = 0 → (32 ≤ pos ∨ pos % n ≠ 0) → Gives st s (Freezes s · c))
    ∧ (t.kind = 5 → Gives st s fun z => OnlyCell s z c ∧ z.blk = b.take 0 t ∧ cols [.eor] z
        ∧ z.mx c = { m.enter [.eor] with pend := m.pend || tr == some 1 || tr == some 2 })
    ∧ (t.kind = 3 → m.marked = false → ((s.cell c).block 27).out = [] → Gives st s fun z => OnlyCell s z c ∧ z.blk = b.take 0 t
        ∧ (z.cell c).block 27 = ((s.cell c).block 27).emit t
        ∧ z.mx c = { m with pend := m.pend || tr == some 0 || tr == some 2 })
    ∧ (t.kind = 1 → Gives st s (Freezes s · c))))
  ∧ (∀ (s : State) (c node p n : Nat) (v : BitVec 32) (rest : List ColEntry) (t : Token)
    (mk bk : BitVec 3) (be : BitVec 1),
  let m := s.mx c
  let o := (s.cell c).block 27
  let k := fun (q : BitVec 3) => SMap.get 0 o.k q.toNat
  let scaled := fun x => f32fma x (k mk) (if be = 1 then k bk else 0)
  let released := fun (z : State) (ec : BitVec 8) (tail : List Token) => ∃ ts : List Token,
    (z.cell c).block 27 = { o with out := o.out ++ ts ++ tail } ∧ ts.length = 64 ∧
    (∀ q < 32, ∀ h < 2, ∃ r, ts[2 * q + h]? = some r ∧ r.kind = 0 ∧ r.pl = true
      ∧ r.coord.toNat = (q + 32 * h + 64 * m.rc.toNat) % 2 ^ 32
      ∧ (m.added.getLsbD q = true → r.masked = false ∧ r.lmask = 0xFFFF ∧ ∀ i < 16,
          r.payload.extractLsb' (32 * i) 32 = scaled (SMap.get 0 m.nodes (32 * (16 * h + i) + q)))
      ∧ (m.added.getLsbD q = false → r.masked = true ∧ r.lmask = 0 ∧ r.payload = 0))
    ∧ (z.mx c).nodes = [] ∧ (z.mx c).added = 0 ∧ (z.mx c).ec = ec ∧ (z.mx c).rc = m.rc + 1
  let ms := decodeOp o.word = some (.mscale mk be bk)
  let atEor := ∀ j < 32, (SMap.get [] m.fifos j).head? = some .eor
  let ends := (t.kind = 4 ∨ t.kind = 2) ∧ ((s.cell c).block 25).head 0 = some t ∧ m.drained = true ∧ o.out = []
  let goes := t.kind = 2 → (m.doneW = true ∨ (s.cell c).inBound 0x51 = false) ∧ (m.doneQ = true ∨ (s.cell c).inBound 0x52 = false)
  let summed : Matrix := { m with
    fifos := SMap.set m.fifos node rest
    nodes := SMap.set m.nodes (32 * node + p) (f32add (SMap.get 0 m.nodes (32 * node + p)) v)
    added := m.added ||| (1#32 <<< p) }
  s.cellLive c = true →
  (node < 32 → s.releasing c = false → SMap.get [] m.fifos node = .sum p v :: rest → p < 32 →
    Gives (.nodeIntake c node) s fun z => OnlyCell s z c ∧ z.cell c = { s.cell c with mx := summed.advance }
      ∧ (m.stages = [] → z.mx c = summed))
  ∧ (node < 32 → s.releasing c = false → SMap.get [] m.fifos node = .void p :: rest → p < 32 →
    Gives (.nodeIntake c node) s fun z => OnlyCell s z c ∧ z.cell c = { s.cell c with
      mx := { m with fifos := SMap.set m.fifos node rest, added := m.added ||| (1#32 <<< p) } })
  ∧ (∀ (m : Matrix) (q : Nat) (vs : List (BitVec 32)) (es : List ArrayEntry) (more : List (List ArrayEntry)),
    m.stages = (.row q vs :: es) :: more →
    ((∃ j < 32, 8 ≤ m.colRows j) → m.advance = m)
    ∧ (es = [] → more = [] → (∀ j < 32, m.colRows j < 8) → m.advance.stages = []
      ∧ ∀ j < 32, SMap.get [] m.advance.fifos j = SMap.get [] m.fifos j ++ [.sum q (vs.getD j 0)]))
  ∧ (atEor → (s.cell c).accCount = some n →
    ((m.ec + 1).toNat < n → Gives (.eorCounted c) s fun z => OnlyCell s z c ∧ (z.cell c).blocks = (s.cell c).blocks
      ∧ (∀ j < 32, SMap.get [] (z.mx c).fifos j = (SMap.get [] m.fifos j).drop 1)
      ∧ { z.mx c with fifos := m.fifos } = { m with ec := m.ec + 1 })
    ∧ (n ≤ (m.ec + 1).toNat → ms → Gives (.eorCounted c) s fun z => OnlyCell s z c ∧ released z 0 []
      ∧ ∀ j < 32, SMap.get [] (z.mx c).fifos j = (SMap.get [] m.fifos j).drop 1))
  ∧ (ends → m.doneX = false → goes →
    (m.added = 0 → Gives (.matrixEot c) s fun z => OnlyCell s z c ∧ (z.cell c).block 25 = ((s.cell c).block 25).take 0 t
      ∧ (z.cell c).block 27 = o.emit t ∧ z.mx c = { m with ec := 0, pend := false })
    ∧ (m.added ≠ 0 → ms → Gives (.matrixEot c) s fun z => OnlyCell s z c ∧ (z.cell c).block 25 = ((s.cell c).block 25).take 0 t
      ∧ released z 0 [t] ∧ (z.mx c).pend = false))
  ∧ (ends → m.doneX = false → ¬ goes →
    (m.added = 0 → Gives (.matrixEot c) s fun z => OnlyCell s z c ∧ (z.cell c).blocks = (s.cell c).blocks
      ∧ z.mx c = { m with ec := 0, pend := false, doneX := true })
    ∧ (m.added ≠ 0 → ms → Gives (.matrixEot c) s fun z => OnlyCell s z c ∧ (z.cell c).block 25 = (s.cell c).block 25
      ∧ released z 0 [] ∧ (z.mx c).pend = false ∧ (z.mx c).doneX = true))
  ∧ (ends → m.doneX = true → goes → Gives (.matrixEot c) s fun z => OnlyCell s z c
    ∧ (z.cell c).block 25 = ((s.cell c).block 25).take 0 t ∧ (z.cell c).block 27 = o.emit t ∧ z.mx c = { m with doneX := false }))

/-- R39-R42, R118, R150, R236: firings on control and configuration tokens. Control tokens that pair leave as one; a CFG with
PASS 0 writes the item it names, one with PASS left goes to DSTA, and at a sink either is progress (R323); a mismatch or a CFG that cannot rest freezes the graph. -/
def Obligations.ControlAndConfiguration : Prop := ∀ (s : State) (c e : Nat) (i : Instr) (t : Token) (ts : List Token) (v : BitVec 32),
  let x := (s.cell c).elem e
  let slots := instrSlots i
  let cleared := fun (y : Elem) => { y with
    in0 := if 0 ∈ slots then none else y.in0, in1 := if 1 ∈ slots then none else y.in1, in2 := if 2 ∈ slots then none else y.in2 }
  let cfg := fun (item pass : Nat) => ({ kind := 6, coord := BitVec.ofNat 32 (item + 2 ^ 16 * pass), ref := v.setWidth 64 } : Token)
  let elemTo := fun (y : Elem) (z : State) => (z.cell c).elem e = y ∧ OnlyCell s z c
    ∧ (∀ f, f ≠ e → (z.cell c).elem f = (s.cell c).elem f)
    ∧ z.cell c = { s.cell c with elems := (z.cell c).elems, cnt := (z.cell c).cnt, now := (z.cell c).now }
  let takes := Gives (.cfgFiring c e) s
  let sinks := fun (k : Token) (P : State → Prop) => takes fun z => ∃ s', z = s'.sinkToken c e k ∧ P s'
  let b := (s.cell c).block e
  let blockTo := fun (y : Block) (z : State) => (z.cell c).block e = y ∧ OnlyCell s z c
    ∧ (∀ f, f ≠ e → (z.cell c).block f = (s.cell c).block f)
    ∧ z.cell c = { s.cell c with blocks := (z.cell c).blocks, cnt := (z.cell c).cnt, now := (z.cell c).now }
  s.cellLive c = true →
  (elemInstr x.word = some i → x.in0 = some t → tkIsCtl t = true → slots.mapM x.slot = some ts →
    ((∀ u ∈ ts, ctlPair t u = true) → x.out.length < instrStage i → Gives (.elementControlFiring c e) s fun z => ∃ s',
      z = s'.sinkToken c e t ∧ elemTo { cleared x with
        out := x.out ++ (if destList i = [] then [] else [(t, destList i)])
        span := if t.kind = 3 then some t.ref else if t.kind = 4 ∨ t.kind = 2 then none else x.span } s')
    ∧ ((∃ u ∈ ts, ctlPair t u = false) → Gives (.elementControlFiring c e) s (Freezes s · c))
    ∧ (∀ u, ctlPair t u = true ↔ t.kind = u.kind ∧ (t.kind = 1 → t.level = u.level) ∧ (t.kind = 3 ∨ t.kind = 4 → t.ref = u.ref)))
  ∧ (e < 16 →
    (∀ n, n < 8 → x.in0 = some (cfg (n + 1) 0) → sinks (cfg (n + 1) 0) (elemTo { x with in0 := none, k := SMap.set x.k n v }))
    ∧ (x.in0 = some (cfg 0 0) → elemInstr v = some i → elemWordOk c i = true → sinks (cfg 0 0) (elemTo { x with in0 := none, word := v }))
    ∧ (x.in0 = some (cfg 0 0) → elemInstr v = none → takes (Freezes s · c))
    ∧ (∀ n, 8 < n → n < 16 → x.in0 = some (cfg n 0) → takes (Freezes s · c))
    ∧ (∀ n p, n < 16 → 0 < p → p < 256 → x.in0 = some (cfg n p) → elemInstr x.word = some i →
      let d := (instrDests i).1
      (d ≠ 0x3F → x.out.length < instrStage i →
        sinks (cfg n p) (elemTo { x with in0 := none, out := x.out ++ [(cfg n (p - 1), [d])] }))
      ∧ (d = 0x3F → takes (Freezes s · c))))
  ∧ (16 ≤ e → e ≤ 22 → s.cfgWhen c e = .now → (e = 20 → s.repEnds c = false) →
    let goes := fun (k : Token) (P : State → Prop) => if e = 18 then sinks k P else takes P
    (∀ n, n < 8 → b.head 0 = some (cfg (n + 1) 0) → goes (cfg (n + 1) 0) (blockTo { b.pop 0 with k := SMap.set b.k n v }))
    ∧ (b.head 0 = some (cfg 0 0) → unitWordOk e v = true → goes (cfg 0 0) (blockTo { b.pop 0 with word := v }))
    ∧ (b.head 0 = some (cfg 0 0) → unitWordOk e v = false → takes (Freezes s · c))
    ∧ (∀ n p, n < 16 → 0 < p → p < 256 → b.head 0 = some (cfg n p) →
      (e ≠ 18 → b.out = [] → takes (blockTo ((b.pop 0).emit (cfg n (p - 1)))))
      ∧ (e = 18 → takes (Freezes s · c))))
  ∧ (s.cfgWhen c e = .fault → e = 18 ∨ e = 19 ∨ e = 21 ∨ e = 22 → b.head 0 = some (cfg 0 0) → takes (Freezes s · c))
  ∧ (e = 25 →
    (b.head 0 = some (cfg 0 0) → unitWordOk 25 v = true → takes (blockTo { b.pop 0 with word := v }))
    ∧ (∀ n, n < 8 → b.head 0 = some (cfg (n + 1) 0) → takes (Freezes s · c))
    ∧ (∀ q, decodeOp v = some (.accn q) → (s.cell c).mx.ec.toNat < q.toNat → b.head 0 = some (cfg 0 1) →
      (s.cell c).mx.drained = true → takes fun z => (z.cell c).block 25 = b.pop 0 ∧ OnlyCell s z c
        ∧ (z.cell c).block 26 = { (s.cell c).block 26 with word := v })
    ∧ (∀ n p, n < 16 → 3 ≤ p → p < 256 → b.head 0 = some (cfg n p) → (s.cell c).mx.drained = true →
      ((s.cell c).block 27).out = [] → takes fun z => (z.cell c).block 25 = b.pop 0 ∧ OnlyCell s z c
        ∧ (z.cell c).block 27 = ((s.cell c).block 27).emit (cfg n (p - 3)))
    ∧ (∀ n, n < 8 → b.head 0 = some (cfg (n + 1) 2) → (s.cell c).mx.marked = false → s.releasing c = false →
      takes fun z => (z.cell c).block 25 = b.pop 0 ∧ OnlyCell s z c
        ∧ (z.cell c).block 27 = { (s.cell c).block 27 with k := SMap.set ((s.cell c).block 27).k n v }))
  ∧ (e = 23 → (s.cell c).mx.load = none →
    (b.head 0 = some (cfg 0 0) → unitWordOk 23 v = true → takes (blockTo { b.pop 0 with word := v }))
    ∧ (b.head 0 = some (cfg 0 1) → unitWordOk 24 v = true → takes fun z => (z.cell c).block 23 = b.pop 0 ∧ OnlyCell s z c
      ∧ (z.cell c).block 24 = { (s.cell c).block 24 with word := v })
    ∧ (∀ n p, n < 16 → 1 < p → p < 256 → b.head 0 = some (cfg n p) → takes (Freezes s · c)))

/-- R74, R204, R211, R221-R224, R227, R230: IDLE, ROUTE, FORK, STEER and ABUT, and the store's soft error. A word
moves the head of its input when every destination it needs has a free place, and waits while one has not; FORK serves
its branches one by one. The DONEs that stand at the inputs of a STEER are noted (R230). A defective cell's router
holds no words (R20). R225, R226: MERGE and CARRY. MERGE emits the chosen arm's value with its control value, and like
control tokens of both arms as one, and notes the DONEs at its inputs (R230); CARRY starts an iteration from init,
feeds the loop while the control value is true, and absorbs one DONE each. -/
def Obligations.SwitchWords : Prop :=
  (∀ (s : State) (src dat ctl outT outF out scope cls : BitVec 3) (mask : BitVec 8) (vc : BitVec 1)
    (t k : Token) (w : BitVec 16) (pos : Nat),
  let c := s.focus.cell
  let head := fun (p : BitVec 3) => s.swHead c p.toNat 0
  let free := fun (p v : Nat) => SMap.get [] (s.cell c).router.outb (3 * p + v) = []
    ∧ (p < 4 → ∀ n, s.linkPeer c p = some n → SMap.get 0 (s.cell c).router.used (3 * p + v) < inbDepth n ((p + 2) % 4) v)
    ∧ (4 ≤ p → ∀ d, s.localDest c p v = some d → s.destRoom c d = true)
  let room := fun (p : BitVec 3) => free p.toNat 0
  let ix := fun (p : BitVec 3) => 3 * p.toNat
  let ports := (List.range 8).filter fun p => mask.getLsbD p
  let mv := fun (i : Instr) (ins outs : List Nat) => Gives i s fun z => MovesToken s z ins outs t id
  let drops := fun (i : Instr) (p : BitVec 3) => Gives i s fun z => MovesToken s z [ix p] [] t id
  let stays := fun (i : Instr) => Gives i s fun z => MovesToken s z [] [] t id
  let route := fun (i : Instr) (v : Nat) => s.swHead c src.toNat v = some t →
    ((∀ p ∈ ports, free p v) → mv i [3 * src.toNat + v] (ports.map fun p => 3 * p + v))
    ∧ ((∃ p ∈ ports, ¬ free p v) → exec i s = .next s)
  let st : Instr := .steer dat ctl outT outF
  let frame := fun (x : Token) => x.kind = 1 ∨ x.kind = 3 ∨ x.kind = 4 ∨ x.kind = 5
  let value := fun (x : Token) => x.kind = 0 ∨ x.kind = 7
  let to' := if tkCtlVal k then outT else outF
  let fk : Instr := .fork src mask
  let r := SMap.get 0 (s.cell c).router.ready s.focus.unit
  let owed := if r = 0 then mask else r
  exec .idle s = .next s
  ∧ route (.route src mask vc) vc.toNat ∧ route (.routeB src mask) 2
  ∧ (head ctl = some k → frame k → drops st ctl)
  ∧ (head ctl = some k → k.kind = 6 → Gives st s fun z => z.mem = s.mem ∧ (∀ d, d ≠ c → z.cell d = s.cell d)
      ∧ ∀ p g, s.graphAt c = some (p, g) → ∃ g', z.graph p g.lid = some g' ∧ g'.freeze ≠ none)
  ∧ Gives st s (fun z => ∀ a : BitVec 3, a = SMap.get 0 (z.cell c).router.arrived s.focus.unit →
      (a.getLsbD 0 = true ↔ (z.swHead c dat.toNat 0).map (·.kind) = some 2)
      ∧ (a.getLsbD 1 = true ↔ (z.swHead c ctl.toNat 0).map (·.kind) = some 2))
  ∧ (head ctl = some k → value k → head dat = some t → value t →
      (room to' → mv st [ix dat, ix ctl] [ix to']) ∧ (¬ room to' → stays st))
  ∧ (head dat = some t → (frame t ∨ t.kind = 6) → (head ctl = none ∨ (head ctl = some k ∧ (value k ∨ k.kind = 2))) →
      room outT → room outF → mv st [ix dat] [ix outT, ix outF])
  ∧ (head dat = some t → head ctl = some k → t.kind = 2 → k.kind = 2 → room outT → room outF →
      mv st [ix dat, ix ctl] [ix outT, ix outF])
  ∧ (head dat = some t → t.kind = 2 → (head ctl = none ∨ (head ctl = some k ∧ value k)) → stays st)
  ∧ (head src = some t →
    ∃ (left : BitVec 8) (served : List Nat), (∀ p, p ∈ served ↔ p < 8 ∧ owed.getLsbD p = true ∧ free p 0)
      ∧ served.Nodup ∧ (∀ p < 8, left.getLsbD p = true ↔ owed.getLsbD p = true ∧ ¬ free p 0)
      ∧ Gives fk s fun z => MovesToken s z (if left = 0 then [ix src] else []) (served.map (3 * ·)) t
        fun q => { q with ready := SMap.set q.ready s.focus.unit left })
  ∧ (head src = some t → room out → Gives (.abut src out scope cls) s fun z =>
      MovesToken (s.widen c scope cls 0 (s.upstream c s.focus.unit src.toNat)) z [ix src] [ix out] t id)
  ∧ (head src = some t → ¬ room out → exec (.abut src out scope cls) s = .next s)
  ∧ (s.defective c = true → exec (.switchStoreSoftError c pos w) s = .next s)
  ∧ (decodeSwitch w = none → pos < 32 → s.defective c = false → Gives (.switchStoreSoftError c pos w) s fun z =>
      (z.cell c).router.words[pos]? = some w ∧ z.mem = s.mem ∧ (∀ d, d ≠ c → z.cell d = s.cell d)
      ∧ ∀ p g, s.graphAt c = some (p, g) → ∃ g', z.graph p g.lid = some g' ∧ g'.freeze ≠ none))
  ∧ (∀ (s : State) (ctl inT inF out init lp : BitVec 3) (k x y t : Token),
  let c := s.focus.cell
  let q := (s.cell c).router
  let pos := s.focus.unit
  let head := fun (p : BitVec 3) => s.swHead c p.toNat 0
  let room := SMap.get [] q.outb (3 * out.toNat) = []
    ∧ (out.toNat < 4 → ∀ n, s.linkPeer c out.toNat = some n →
      SMap.get 0 q.used (3 * out.toNat) < inbDepth n ((out.toNat + 2) % 4) 0)
    ∧ (4 ≤ out.toNat → ∀ d, s.localDest c out.toNat 0 = some d → s.destRoom c d = true)
  let ix := fun (p : BitVec 3) => 3 * p.toNat
  let mv := fun (i : Instr) (ins : List Nat) (o : Token) => Gives i s fun z => MovesToken s z ins [ix out] o id
  let drops := fun (i : Instr) (p : BitVec 3) => Gives i s fun z => MovesToken s z [ix p] [] t id
  let stays := fun (i : Instr) => Gives i s fun z => MovesToken s z [] [] t id
  let fails := fun (i : Instr) => Gives i s fun z => z.mem = s.mem ∧ (∀ d, d ≠ c → z.cell d = s.cell d)
    ∧ ∀ p g, s.graphAt c = some (p, g) → ∃ g', z.graph p g.lid = some g' ∧ g'.freeze ≠ none
  let frame := fun (x : Token) => x.kind = 1 ∨ x.kind = 3 ∨ x.kind = 4 ∨ x.kind = 5
  let value := fun (x : Token) => x.kind = 0 ∨ x.kind = 7
  let same := fun (a b : Token) => a.kind = b.kind ∧ (a.kind = 1 → a.level = b.level)
    ∧ (a.kind = 3 ∨ a.kind = 4 → a.ref = b.ref) ∧ (a.kind = 6 → a = b)
  let mg : Instr := .merge ctl inT inF out
  let chosen := if tkCtlVal k then (inT, head inT, head inF) else (inF, head inF, head inT)
  let cy : Instr := .carry init lp ctl out
  let ab := SMap.get 0 q.absorb pos
  let loop := SMap.get false q.phase pos
  let clear := fun p => head p = none ∨ ∃ u, head p = some u ∧ (value u ∨ (u.kind = 2 ∧ ab.getLsbD (if p = lp then 0 else 1) = false))
  let quiet := clear lp ∧ clear ctl ∧ (ab.getLsbD 2 = false ∨ head lp = none) ∧ lp ≠ ctl
  let phase := fun (b : Bool) (r : Router) => { r with phase := SMap.set r.phase pos b }
  (head ctl = some k → frame k → drops mg ctl)
  ∧ (head ctl = some k → k.kind = 6 → fails mg)
  ∧ ((head ctl = none ∨ (head ctl = some k ∧ (value k ∨ k.kind = 2))) → head inT = some x → head inF = some y → same x y →
      ¬ value x → x.kind ≠ 2 → room → mv mg [ix inT, ix inF] x)
  ∧ (head ctl = some k → k.kind = 2 → head inT = some x → head inF = some y → x.kind = 2 → y.kind = 2 → room →
      mv mg [ix ctl, ix inT, ix inF] x)
  ∧ (head ctl = some k → value k → chosen.2.1 = some t → value t →
      (room → mv mg [ix chosen.1, ix ctl] t) ∧ (¬ room → stays mg))
  ∧ (head ctl = some k → value k → chosen.2.1 = some x → chosen.2.2 = some y → ¬ value x → ¬ same x y → fails mg)
  ∧ (head ctl = some k → value k → chosen.2.1 = none → stays mg)
  ∧ Gives mg s (fun z => ∀ a : BitVec 3, a = SMap.get 0 (z.cell c).router.arrived pos →
      (a.getLsbD 0 = true ↔ (z.swHead c inT.toNat 0).map (·.kind) = some 2)
      ∧ (a.getLsbD 1 = true ↔ (z.swHead c ctl.toNat 0).map (·.kind) = some 2)
      ∧ (a.getLsbD 2 = true ↔ (z.swHead c inF.toNat 0).map (·.kind) = some 2))
  ∧ (head lp = some t → frame t → drops cy lp)
  ∧ (head lp = some t → t.kind = 6 → fails cy)
  ∧ (head lp = some t → value t → ab.getLsbD 2 = true → fails cy)
  ∧ (head lp = some t → t.kind = 2 → ab.getLsbD 0 = true → Gives cy s fun z => MovesToken s z [ix lp] [] t fun r =>
      { r with absorb := SMap.set r.absorb pos ((ab &&& ~~~1#4) ||| 4#4) })
  ∧ (clear lp → (ab.getLsbD 2 = false ∨ head lp = none) →
    (head ctl = some t → frame t → drops cy ctl) ∧ (head ctl = some t → t.kind = 6 → fails cy)
    ∧ (head ctl = some t → lp ≠ ctl → t.kind = 2 → ab.getLsbD 1 = true → Gives cy s fun z => MovesToken s z [ix ctl] [] t fun r =>
      { r with absorb := SMap.set r.absorb pos ((ab &&& ~~~2#4) ||| 8#4) }))
  ∧ (quiet →
    (loop = false → head init = some t → room →
      (value t → Gives cy s fun z => MovesToken s z [ix init] [ix out] t (phase true))
      ∧ ((frame t ∨ t.kind = 6) → mv cy [ix init] t)
      ∧ (t.kind = 2 → Gives cy s fun z => MovesToken s z [ix init] [ix out] t fun r => { r with absorb := SMap.set r.absorb pos 3 }))
    ∧ (loop = true → head ctl = some k → value k →
      (tkCtlVal k = false → Gives cy s fun z => MovesToken s z [ix ctl] [] t (phase false))
      ∧ (tkCtlVal k = true → head lp = some t → value t → (room → mv cy [ix lp, ix ctl] t) ∧ (¬ room → exec cy s = .next s))
      ∧ (tkCtlVal k = true → head lp = none → exec cy s = .next s))))

/-- R118, R211, R214, R228, R229: tokens between units. A token that has taken its credit crosses its link, the two
data channels in turn, and a freed place gives its credit back; a tap records the tick and the head; endpoints, local
ports and the output stage of an element deliver when there is room, of elements that offer to one slot the lowest
first (R216), and one destination after the other: of two equal codes the second waits where one place is left. R159,
R183, R212, R213: channel queues. A token enters behind the last while the queue has room; the head leaves for its
destination when that has room, freeing its tile with the tile's last token; a poisoned head faults its consumer's
read, and port 0x60 plus the queue's number stops for it (log 49). -/
def Obligations.Deliveries : Prop :=
  (∀ (s : State) (c n port v e src slot ap ep : Nat) (back : Bool) (t : Token) (rest : List Token)
    (ds : List (BitVec 6)) (more : List (Token × List (BitVec 6))) (p : Nat) (i : Instr),
  let q := (s.cell c).router
  let far := (port + 2) % 4
  let ready := fun v => SMap.get [] q.outb (3 * port + v) ≠ []
  let turn := if SMap.get false q.turn port = true then 1 else 0
  let both := back = false ∧ ready 0 ∧ ready 1
  let picks := (back = true ∧ v = 2) ∨ (both ∧ v = turn) ∨ (back = false ∧ ¬ (ready 0 ∧ ready 1) ∧ v < 2 ∧ ready v)
  let m := (s.cell n).router
  let k := 3 * far + v
  let ok := s.linkPeer c port = some n ∧ s.cellLive c = true ∧ s.cellLive n = true
  let x := (s.cell c).elem e
  let go := fun (d : BitVec 6) => match codeDest c d with
    | some o => s.destRoom c o && !(s.cell c).lowerOffers e d
    | none => true
  let elemUses := fun (f j : Nat) => ∃ w, elemInstr ((s.cell c).elem f).word = some w ∧ j ∈ instrSlots w
  (ok → picks → ready v → SMap.get [] q.outb (3 * port + v) = [t] → kindOn v t = true → m.reads far v = true →
    Gives (.linkTokenTransfer c port back) s fun z => z.mem = s.mem ∧ (∀ d, d ≠ c → d ≠ n → z.cell d = s.cell d)
      ∧ (z.cell c).router = { q with
          outb := SMap.set q.outb (3 * port + v) []
          turn := if both then SMap.set q.turn port (v == 0) else q.turn }
      ∧ (z.cell n).router = { m with inb := SMap.set m.inb k (SMap.get [] m.inb k ++ [t]) })
  ∧ (ok → picks → ready v → SMap.get [] q.outb (3 * port + v) = [t] → kindOn v t = true → m.reads far v = false →
    m.clears = true → Gives (.linkTokenTransfer c port back) s fun z => (z.cell n).router.inb = m.inb
      ∧ SMap.get 0 (z.cell n).cnt 0x020 = SMap.get 0 (s.cell n).cnt 0x020 + 1)
  ∧ (ok → (if back then ¬ ready 2 else ¬ ready 0 ∧ ¬ ready 1) → exec (.linkTokenTransfer c port back) s = .next s)
  ∧ (ok → 0 < SMap.get 0 q.owed (3 * port + v) → Gives (.creditReturn c port v) s fun z => z.mem = s.mem
      ∧ (z.cell c).router = { q with owed := SMap.set q.owed (3 * port + v) (SMap.get 0 q.owed (3 * port + v) - 1) }
      ∧ (z.cell n).router = { m with used := SMap.set m.used k (SMap.get 0 m.used k - 1) }
      ∧ ∀ d, d ≠ c → d ≠ n → z.cell d = s.cell d)
  ∧ (s.cellLive c = true → slot < 8 → ap < 4 → src = 4 * slot + ap → s.outDest c src = some (.port port v) →
    SMap.get [] ((s.cell c).slot slot).outq ap = t :: rest → s.localRoom c port v = true → kindOn v t = true →
    q.reads port v = true → Gives (.endpointDelivery c src) s fun z => OnlyCell s z c
      ∧ (z.cell c).slot slot = { (s.cell c).slot slot with outq := SMap.set ((s.cell c).slot slot).outq ap rest }
      ∧ (z.cell c).router = { q with inb := SMap.set q.inb (3 * port + v) (SMap.get [] q.inb (3 * port + v) ++ [t]) })
  ∧ (s.cellLive c = true → n < 4 → v < 2 → SMap.get [] q.outb (3 * (4 + n) + v) = [t] →
    (let w := SMap.get 0 q.epIn (2 * n + v)
     w.toNat = 0x80 + ep → inEndpoint c ep = some (.actor slot ap) → (SMap.get [] ((s.cell c).slot slot).inq ap).length < 8 →
      kindOn 0 t = true → ((s.cell c).slot slot).sinks = [] → Gives (.endpointDelivery c (0x80 + 2 * n + v)) s fun z => z.mem = s.mem
        ∧ (z.cell c).router = { q with outb := SMap.set q.outb (3 * (4 + n) + v) [] }
        ∧ (z.cell c).slot slot = { (s.cell c).slot slot with
            inq := SMap.set ((s.cell c).slot slot).inq ap (SMap.get [] ((s.cell c).slot slot).inq ap ++ [t]) })
    ∧ (let w := SMap.get 0 q.epIn (2 * n + v)
       w.getLsbD 7 = false → q.clears = false → Gives (.endpointDelivery c (0x80 + 2 * n + v)) s fun z =>
        ∀ p g, s.graphAt c = some (p, g) → ∃ g', z.graph p g.lid = some g' ∧ g'.freeze ≠ none))
  ∧ (s.cellLive c = true → x.out = (t, ds) :: more → t.kind = 0 → ds.Nodup →
    (∀ d ∈ ds, go d = true → (∃ f j, codeDest c d = some (.ep (.elem f j)) ∧ j < 3 ∧ elemUses f j)
      ∨ ∃ a b, codeDest c d = some (.port a b) ∧ q.reads a b = true) →
    Gives (.outputStageDelivery c e) s fun z => OnlyCell s z c
      ∧ ((z.cell c).elem e).out = (if ds.all go then more else (t, ds.filter fun d => !go d) :: more)
      ∧ (∀ d ∈ ds, go d = true → ∀ f j, codeDest c d = some (.ep (.elem f j)) → ((z.cell c).elem f).slot j = some t)
      ∧ (∀ d ∈ ds, go d = true → ∀ a b, codeDest c d = some (.port a b) →
          t ∈ SMap.get [] (z.cell c).router.inb (3 * a + b)))
  ∧ (∀ d a b, s.cellLive c = true → x.out = (t, [d, d]) :: more → t.kind = 0 → codeDest c d = some (.port a b) → q.reads a b = true →
    (SMap.get [] q.inb (3 * a + b)).length + 1 = inbDepth c a b → Gives (.outputStageDelivery c e) s fun z => OnlyCell s z c
      ∧ ((z.cell c).elem e).out = (t, [d]) :: more
      ∧ (z.cell c).router.inb = SMap.set q.inb (3 * a + b) (SMap.get [] q.inb (3 * a + b) ++ [t]))
  ∧ (∀ (a : BitVec 3) (b : BitVec 9), (s.part p).trace = true → s.partOf c = some p → q.decoded = [.tap a b] →
    (s.part p).traceBuf.length < (s.part p).cfg.traceRoom →
    ((s.tap c a.toNat t).part p).traceBuf = (s.part p).traceBuf ++ [(b.setWidth 64, s.tick, t.ref ++ tkHead t)])
  ∧ (i = .endpointDelivery c src → s.srcHead c src = none → exec i s = .next s))
  ∧ (∀ (s : State) (c q p src port v : Nat) (g : Graph) (t : Token) (rest : List Token),
  let k := s.chanq c q
  let r := (s.cell c).router
  (s.cellLive c = true → (s.queueSources c q).find? (fun e => (s.srcHead c e).isSome) = some src → (src < 0x60 ∨ 0x80 ≤ src) →
    s.srcHead c src = some t →
    (k.toks.length < 16 * k.depth → kindOn 0 t = true → Gives (.channelQueueArrival c q) s fun z => z.mem = s.mem
      ∧ (z.chanq c q).toks = k.toks ++ [t] ∧ (z.chanq c q).depth = k.depth ∧ ∀ d, d ≠ c → z.cell d = s.cell d)
    ∧ (16 * k.depth ≤ k.toks.length → exec (.channelQueueArrival c q) s = .next s))
  ∧ (s.cellLive c = true → q < 32 → k.toks = t :: rest → s.outDest c (0x60 + q) = some (.port port v) → s.graphAt c = some (p, g) →
    s.localRoom c port v = true → s.portBusy c (0x60 + q) = false →
    (0 ∉ k.poison → kindOn v t = true → r.reads port v = true → Gives (.channelQueueOffer c q) s fun z => OnlyCell s z c
      ∧ (z.chanq c q).toks = rest
      ∧ (z.cell c).router = { r with inb := SMap.set r.inb (3 * port + v) (SMap.get [] r.inb (3 * port + v) ++ [t]) })
    ∧ (0 ∈ k.poison → Gives (.channelQueueOffer c q) s fun z => (z.chanq c q).toks = k.toks
      ∧ (z.cell c).stopped.contains (0x60 + q) = true)))

/-- R274, R277, R279: LAUNCH and RLAUNCH. A record that breaks its rows returns LR_FIELD; a full queue makes the instruction
wait with the record it read; a refused image, stencil or adit returns its code; otherwise the launch is queued last in its
queue under the next free id, which g[d] receives. -/
def Obligations.LaunchInstructions : Prop := ∀ (s s1 : State) (d a b : BitVec 5) (p : Nat) (bs : List Byte) (ragged : Bool),
  let i : Instr := if ragged then .rlaunch d a b else .launch d a
  let c := s.focus.cell
  let rel := s.release c 4
  let after := fun (s0 : State) (r : BitVec 512) =>
    let rg := if ragged then some (s.seq.getG b) else none
    let q := s0.part p
    let e := s0.enqueue p r (64 + s0.focus.cell) rg none
    (launchBad r ragged = true → Gives i s fun t => WritesReg s0 t d 0x8000000000000008)
    ∧ (launchBad r ragged = false → 64 ≤ (q.lq (lrQueue r)).length → Gives i s fun t =>
        Waits s0 t ∧ t.seq.wait.lrec = some r)
    ∧ (launchBad r ragged = false → (q.lq (lrQueue r)).length < 64 → s0.launchCode p r false ≠ 0 → Gives i s fun t =>
        WritesReg s0 t d (BitVec.ofNat 64 (2 ^ 63 + s0.launchCode p r false)))
    ∧ (launchBad r ragged = false → (q.lq (lrQueue r)).length < 64 → s0.launchCode p r false = 0 →
        (Gives i s fun t => WritesReg e.2 t d (BitVec.ofNat 64 e.1))
        ∧ (0 < q.nextLid → q.nextLid < 65536 → q.nextLid ∉ q.liveLids → e.1 = q.nextLid)
        ∧ (lrNpred r = 0 → (∀ x ∈ q.images, x.img.id = lrImage r → x.state ≠ 2) →
          (∀ x ∈ q.lqs.flatMap (·.2) ++ q.graphs.map (·.entry), x.predLost = false) →
          ∃ x : LqEntry, (e.2.part p).lq (lrQueue r) = q.lq (lrQueue r) ++ [x] ∧ x.lrec = r ∧ x.lid = e.1
            ∧ x.age = s0.tbase.toNat ∧ x.byp = 0 ∧ x.ragged = rg))
  s.partOf c = some p →
  (∀ r, s.seq.wait.lrec = some r → after s r)
  ∧ (s.seq.wait.lrec = none → (rel.seq.getG a).toNat % 8 = 0 →
      rel.readVa (rel.seqWho rel.focus.cell) (rel.seq.getG a) 64 = .ok (bs, s1) → after s1 (bytes512 bs))

/-- R275, R347: the 128 bytes written to an adit's slot become a token (its head in bytes 0-15, its payload, read only where
PL is 1, in bytes 16-79, the rest ignored), and the opening token of its next stream. A token that finds the queue full is discarded,
counted and breaks the adit up to the stream's next DONE; a DONE that finds it full is discarded likewise and closes the stream itself
(R409). -/
def Obligations.Adits : Prop := ∀ (s : State) (p n : Nat) (w : BitVec 1024),
  let q := s.part p
  let k := tokenOf128 w
  let a := q.adit n
  let full := 512 ≤ a.queue.length ∨ k.kind = 6 ∨ 8 ≤ k.kind.toNat
  k.kind = w.extractLsb' 0 4 ∧ k.coord = w.extractLsb' 32 32 ∧ k.ref = w.extractLsb' 64 64 ∧ (k.pl = false → k.payload = 0)
  ∧ (k.pl = true → k.payload = w.extractLsb' 128 512) ∧ (q.loaded = true → q.fenced = false → n < 64 →
  (a.broken = false → a.discard = false → s.aditFenced p a = false →
    (¬ full → Gives (.aditTokenWrite p n (some w)) s fun t =>
      t = s.modAdit p n (fun a => { a with queue := a.queue ++ [k] })
      ∧ ((t.part p).adit n).queue = a.queue ++ [k])
    ∧ (full → k.kind ≠ 2 → Gives (.aditTokenWrite p n (some w)) s fun t =>
      (t.part p).adit n = { a with broken := true }
      ∧ SMap.get 0 (t.part p).cnt (0x01F * 256 + n) = SMap.get 0 q.cnt (0x01F * 256 + n) + 1)
    ∧ (full → k.kind = 2 → Gives (.aditTokenWrite p n (some w)) s fun t =>
      (t.part p).adit n = { a with streams := ((t.part p).adit n).streams }
      ∧ (a.named.isSome = true → ((t.part p).adit n).streams = a.streams)
      ∧ (a.named = none → ∀ st, a.streams = [st] → st.left = none → (∀ x ∈ a.queue, x.kind ≠ 2) →
        ((t.part p).adit n).streams = [{ st with left := some a.queue.length }])
      ∧ SMap.get 0 (t.part p).cnt (0x01F * 256 + n) = SMap.get 0 q.cnt (0x01F * 256 + n) + 1))
  ∧ (a.broken = true → k.kind ≠ 2 → Gives (.aditTokenWrite p n (some w)) s fun t =>
      t = s.bumpPart p (0x01F * 256 + n) 1 ∧ (t.part p).adit n = a)
  ∧ (a.broken = true → k.kind = 2 → Gives (.aditTokenWrite p n (some w)) s fun t =>
      ((t.part p).adit n).broken = false ∧ ((t.part p).adit n).queue = a.queue)
  ∧ (Gives (.aditTokenWrite p n none) s fun t => t = s.bumpPart p (0x01F * 256 + n) 1)
  ∧ ∀ rest, q.swapped = false → s.swapping p = false → a.named = none → a.streams = [] → a.queue = k :: rest →
    let r := k.payload
    let room := (q.lq (lrQueue r)).length < 64
    (opens k = true → ¬ room → Gives (.aditLaunchEnqueue p n) s fun t => t = s)
    ∧ (opens k = true → room → s.launchCode p r true = 0 → n ∉ lrAdits r → lrNpred r = 0 →
      (∀ x ∈ q.images, x.img.id = lrImage r → x.state ≠ 2) →
      (∀ x ∈ q.lqs.flatMap (·.2) ++ q.graphs.map (·.entry), x.predLost = false) →
      Gives (.aditLaunchEnqueue p n) s fun t => ∃ x : LqEntry,
        (t.part p).lq (lrQueue r) = q.lq (lrQueue r) ++ [x] ∧ x.lrec = r ∧ x.adit = some n ∧ x.age = s.tbase.toNat
        ∧ ((t.part p).adit n).queue = rest ∧ ((t.part p).adit n).streams = [{ lid := some x.lid }])
    ∧ (opens k = false → Gives (.aditLaunchEnqueue p n) s fun t =>
        ((t.part p).adit n).queue = (a.cutStream 0 0).1.queue
        ∧ SMap.get 0 (t.part p).cnt (0x01F * 256 + n)
          = SMap.get 0 q.cnt (0x01F * 256 + n) + BitVec.ofNat 32 (a.cutStream 0 0).2))

/-- R85, R280: the loader's checks of an image run once; what they find is kept, launches of a good image may be
admitted and those of a refused one are refused with its code. R281, R282, R283: one admission pass. The highest head
is placed at the first origin and variant that fit; one that no origin fits while nothing is placed is refused with
code 5; a head passed over counts a bypass; a blocking head keeps every lower one out. One whose templates or records
wait for a path is not admitted (R355). -/
def Obligations.Admission : Prop :=
  (∀ (s : State) (p : Nat) (id : BitVec 64) (e : ImageEnt),
  let q := s.part p
  let code := s.imageCode p e.img
  let mine := (q.lqs.flatMap (·.2)).filter fun x => lrImage x.lrec = id
  let told := s.modPart p fun q => { q with
    images := q.images.map (fun x => if x.img.id = id then { x with state := if code = 0 then 2 else 3, code := code } else x)
    lqs := q.lqs.map (fun l => (l.1, l.2.map fun x => if lrImage x.lrec = id then { x with istate := 2 } else x)) }
  q.images.find? (fun e => e.img.id == id) = some e → q.fenced = false → q.swapped = false →
  (e.state = 1 → code = 0 → (∀ x ∈ mine, lrLacks x.lrec e.img = false) →
    Gives (.imageCheck p id) s fun t => t = told)
  ∧ (e.state = 1 → code ≠ 0 → mine = [] → Gives (.imageCheck p id) s fun t => t = told)
  ∧ (∀ x, e.state = 1 → code ≠ 0 → mine = [x] → Gives (.imageCheck p id) s fun t =>
      t = told.refuse p { x with istate := 2 } code)
  ∧ (e.state ≠ 1 → Gives (.imageCheck p id) s fun t => t = s))
  ∧ (∀ (s : State) (p : Nat) (h h2 : LqEntry) (rest : List LqEntry) (ox oy v : Nat),
  let q := s.part p
  let heads := sortBy rankAbove ((q.lqs.filterMap fun l => l.2.head?).filter fun e => e.istate = 2)
  let s1 := s.timeShare p h []
  let placed := fun (t : State) (x : LqEntry) => ∃ g : Graph, t.graph p x.lid = some g ∧ g.entry.lrec = x.lrec
    ∧ g.ox = ox ∧ g.oy = oy ∧ g.variant = v ∧ g.loading = true
    ∧ (∀ y ∈ (t.part p).lq (lrQueue x.lrec), y.lid ≠ x.lid) ∧ (t.part p).graphs.length = q.graphs.length + 1
  q.loaded = true → q.fenced = false → q.swapped = false → s.swapping p = false → q.graphs.length < 64 → q.yields = [] →
  (s.admitWaits p h = true → heads = [h] → h.byp.toNat < q.bypassMax.toNat → Gives (.admissionPass p) s fun t => t = s)
  ∧ (s.admitWaits p h = false → s1.admitWaits p h2 = false → (heads = [] → Gives (.admissionPass p) s fun t => t = s)
  ∧ ((∀ x ∈ heads, x.byp.toNat < q.bypassMax.toNat) → heads = h :: rest → s.graph p h.lid = none → h.ragged = none →
      s.place p h [] = some (ox, oy, v) → Gives (.admissionPass p) s (placed · h))
  ∧ (h.byp.toNat < q.bypassMax.toNat → heads = [h] → s.place p h [] = none → q.graphs = [] →
      Gives (.admissionPass p) s fun t => t = s.refuse p h 5)
  ∧ ((∀ x ∈ heads, x.byp.toNat < q.bypassMax.toNat) → heads = h :: h2 :: rest → s.place p h [] = none → q.graphs ≠ [] →
      s1.place p h2 [] = some (ox, oy, v) → s.graph p h2.lid = none → h2.ragged = none → h.lid ≠ h2.lid →
      q.lq (lrQueue h.lrec) = [h] → Gives (.admissionPass p) s fun t => placed t h2
        ∧ (t.part p).lq (lrQueue h.lrec) = [{ h with byp := BitVec.ofNat 4 (min (h.byp.toNat + 1) 15) }])
  ∧ (∀ x xs, q.bypassMax.toNat ≤ h.byp.toNat → heads = h :: rest → s.graph p h.lid = none → h.ragged = none →
      s.place p h [] = some (ox, oy, v) → q.lq (lrQueue h.lrec) = h :: x :: xs → (∀ y ∈ x :: xs, y.lid ≠ h.lid) →
      Gives (.admissionPass p) s fun t => placed t h ∧ (t.part p).lq (lrQueue h.lrec) = { x with byp := 0 } :: xs)
  ∧ (q.bypassMax.toNat ≤ h.byp.toNat → heads = [h, h2] → rankAbove h h2 = true → s.place p h [] = none → q.graphs ≠ [] →
      Gives (.admissionPass p) s fun t => (t.part p).lqs = q.lqs ∧ (t.part p).graphs.length = q.graphs.length)))

/-- R284, R285, R286, R330, R331: a placement's load, a quantum's expiry, a yield at a span boundary and a compaction
move. They wait while a clock change brings the cells to their points (R361). The model's choices: the yield area
counts cells (log 54), a yielded launch re-enters its queue where 64 stand too (log 106), and what the caches hold at
a yield or move is written back, those of the cells emptied (log 81). R284, R329, R330: a cell at image load, with the
items that R4 leaves alone (log 89), and a yielded cell's context over it, of which translations, counters and engines
are no part. -/
def Obligations.PlacedGraphs : Prop :=
  (∀ (s : State) (p lid : Nat) (g : Graph),
  let q := s.part p
  let var := ((s.graphImage p g).variants[g.variant]?).getD {}
  let recs := var.cells
  let quantum := lrField g.entry.lrec 6 0 32
  let base := fun c => if c ∈ g.cells then loadCell (s.cell c) {} else s.cell c
  let unused := fun (r : CellRec) =>
    (var.masks.getD (r.y / 8 * g.w + r.x / 8) 0).getLsbD (maskBit (cellAt r.x r.y)) = true
  s.graph p lid = some g → s.swapping p = false → s.hf.toPoint = none →
  (g.loading = true → Gives (.placementLoadComplete p lid) s fun t =>
    t.graph p lid = some { g with loading := false }
    ∧ (q.yields = [] → recs.Pairwise (fun a b => g.cellOf a.x a.y ≠ g.cellOf b.x b.y) →
      (∀ r ∈ recs, ¬ unused r → t.cell (g.cellOf r.x r.y) = loadCell (base (g.cellOf r.x r.y)) r)
      ∧ ∀ c ∈ g.cells, (∀ r ∈ recs, ¬ unused r → g.cellOf r.x r.y ≠ c) → t.cell c = loadCell (s.cell c) {}))
  ∧ (Gives (.quantumExpiry p lid) s fun t =>
      t.graph p lid = some { g with expired := g.expired || (quantum != 0xFFFFFFFF
        && decide ((if quantum = 0 then q.qdef.toNat else quantum) * 1000 ≤ g.quantum)) })
  ∧ (s.streamDone p g = true → Gives (.yieldGraph p lid) s fun t => t = s)
  ∧ (g.yreq = true → g.live = true → s.streamDone p g = false → s.atBoundary p g = true → s.quiet g = true →
      q.yields = [] → recs.length ≤ q.cfg.yieldRoom → Gives (.yieldGraph p lid) s fun t =>
        t.graph p lid = none
        ∧ (t.part p).lq (lrQueue g.entry.lrec) = { g.entry with saved := true } :: q.lq (lrQueue g.entry.lrec)
        ∧ (SMap.get {} (t.part p).yields lid).graph.tasks = g.tasks
        ∧ (SMap.get {} (t.part p).yields lid).cells
          = recs.map (fun r => (g.cellOf r.x r.y, yieldCell (s.cell (g.cellOf r.x r.y))))
        ∧ (∀ c, bayOf c ∈ g.bays → (t.cell c).dc = [] ∧ (t.cell c).tlb = [])
        ∧ ∀ b ∈ g.bays, (t.bay b).desc = [])
  ∧ (g.yreq = true → g.live = true → s.streamDone p g = false → s.atBoundary p g = true → s.quiet g = true →
      q.yields = [] → q.cfg.yieldRoom < recs.length → q.queued g.yfor = none → Gives (.yieldGraph p lid) s fun t =>
        t = s.modGraph p lid fun g => { g with yreq := false })
  ∧ ∀ ox oy,
    let f := fun c => cellAt (cellX c - 8 * g.ox + 8 * ox) (cellY c - 8 * g.oy + 8 * oy)
    g.target = some (ox, oy) → g.live = true → s.streamDone p g = false → s.atBoundary p g = true →
    (∀ b ∈ g.bays, ∀ k ∈ (s.bay b).walks, g.holds k.cell = false) →
    s.originOk p (s.graphImage p g) ox oy [lid] = true → ox + g.w ≤ 12 → g.ox + g.w ≤ 12 →
    s.cells.Pairwise (fun a b => a.1 < b.1) → Gives (.compactionMove p lid) s fun t =>
      t.graph p lid = some { g with ox := ox, oy := oy, target := none }
      ∧ ∀ e ∈ s.cells, g.holds e.1 = true → t.cell (f e.1) = moveEngines f { e.2 with dc := [] })
  ∧ (∀ (x w : Cell) (r : CellRec),
  let y := loadCell x r
  let z := restoreCell y w
  let kept := fun (u v : Plane) => u = { v with state := 0 }
  ((∀ a, (∀ e ∈ r.priv, e.1 ≠ a) → memRead y.priv a = memRead x.priv a) ∧ (∀ a, (∀ e ∈ r.code, e.1 ≠ a) → memRead y.code a = memRead x.code a)
    ∧ (r.priv.Pairwise (fun a b => a.1 ≠ b.1) → ∀ e ∈ r.priv, memRead y.priv e.1 = e.2)
    ∧ (r.code.Pairwise (fun a b => a.1 ≠ b.1) → ∀ e ∈ r.code, memRead y.code e.1 = e.2))
  ∧ (y.seq = {
      g := x.seq.g, p := x.seq.p, lk := x.seq.lk, mon := x.seq.mon, loopst := x.seq.loopst, actor := x.seq.actor
      pending := x.seq.pending
      tr := { cause := x.seq.tr.cause, pc := x.seq.tr.pc, value := x.seq.tr.value, ls := x.seq.tr.ls } })
  ∧ (y.slots.map (·.1) = r.actors.map (·.1) ∧ ∀ e ∈ y.slots, ∃ a ∈ r.actors, a.1 = e.1
    ∧ e.2 = { valid := true, entry := a.2.entry, prio := a.2.prio, take := a.2.take, emit := a.2.emit, sinks := a.2.sinks })
  ∧ (∀ n < 16, (y.elem n).in0 = (x.elem n).in0 ∧ (y.elem n).in1 = (x.elem n).in1 ∧ (y.elem n).in2 = (x.elem n).in2
    ∧ (y.elem n).out = (x.elem n).out ∧ (y.elem n).span = none)
  ∧ (y.router = { words := r.words, epIn := r.epIn, epBin := r.epBin, epOut := r.epOut, turn := x.router.turn })
  ∧ (y.m.scratch = x.m.scratch ∧ y.m.poison = x.m.poison ∧ y.m.tiles = [] ∧ y.m.queues = r.depths.map (fun e => (e.1, { depth := e.2 }))
    ∧ y.m.copy = { x.m.copy with seq := 1 } ∧ y.m.fill = { x.m.fill with seq := 1 } ∧ y.m.ms.table = r.stab ∧ y.m.ms.cur = 0)
  ∧ (kept y.mx.planeA x.mx.planeA ∧ kept y.mx.planeB x.mx.planeB ∧ y.mx.fifos = x.mx.fifos ∧ y.mx.nodes = [] ∧ y.mx.added = 0)
  ∧ (y.dc = [] ∧ y.cnt = [] ∧ y.stopped = [] ∧ y.tlb = x.tlb)
  ∧ (z.tlb = x.tlb ∧ z.cnt = [] ∧ z.m.copy = y.m.copy ∧ z.m.fill = y.m.fill
    ∧ { z with tlb := w.tlb, cnt := w.cnt, now := w.now, seq := w.seq, m := { z.m with copy := w.m.copy, fill := w.m.fill } } = w
    ∧ z.seq.tr.vec = w.seq.tr.vec ∧ z.seq.tr.be = w.seq.tr.be ∧ z.seq.tr.ss = w.seq.tr.ss ∧ z.seq.sched = w.seq.sched
    ∧ z.seq.g = x.seq.g ∧ z.seq.pc = 0)
  ∧ (let v := yieldCell w
    v.seq = { tr := { vec := w.seq.tr.vec, be := w.seq.tr.be, ss := w.seq.tr.ss }, sched := w.seq.sched } ∧ v.dc = [] ∧ v.tlb = []
    ∧ v.cnt = [] ∧ v.m = { w.m with copy := {}, fill := {} }
    ∧ { v with seq := w.seq, dc := w.dc, tlb := w.tlb, cnt := w.cnt, now := w.now, m := w.m } = w))

/-- R268, R292, R294, R296, R389: a WAITING task whose conditions hold is RELEASED with its regions and leases; one whose
template is faulty ends ABORTED; one whose lease a chunk refuses waits, with its record, until port 0x86 leases again (of tasks that
come while the port is stopped only ring mode has a record each, R271, R272). Of a
device launch the first task in order is tried, and its SOT and EOT follow at the span source; the upper bits of its SPANID
are free, one value for the task (log 36). -/
def Obligations.TaskRelease : Prop := ∀ (s : State) (p lid x y : Nat) (g : Graph) (span : Word),
  let o := s.cell (cellAt (8 * g.ox) (8 * g.oy))
  let held := (lid, x, y) ∈ o.leaseHeld
  s.graph p lid = some g → lid ≠ 0 →
  (∀ rs ls s2, g.mayRelease = true → ¬ held → s.instRegions p g x y = some rs → s.releasable p g x y rs = true →
    s.takeLeases p (g.leaseList rs) = .ok (ls, s2) → ∃ t u k, s.tryRelease p g x y span = some t ∧ t.graph p lid = some u
      ∧ u.task x y = some k ∧ k.st = 1 ∧ k.span = span ∧ k.regions = rs ∧ k.leases = ls ∧ k.eots = [])
  ∧ (∀ rs f va, g.mayRelease = true → ¬ held → s.instRegions p g x y = some rs → s.releasable p g x y rs = true →
    s.takeLeases p (g.leaseList rs) = .error (some f, va) → ∃ t, s.tryRelease p g x y span = some t
      ∧ t.graph p lid = some g ∧ (lid, x, y) ∈ (t.cell (cellAt (8 * g.ox) (8 * g.oy))).leaseHeld
      ∧ 0x86 ∈ (t.cell (cellAt (8 * g.ox) (8 * g.oy))).stopped ∧ t.mem = s.mem
      ∧ (0x86 ∈ o.stopped → (s.part p).fq.ring = false → (t.part p).fq = (s.part p).fq)
      ∧ ((s.part p).fq.ring = true → ((s.part p).fq.tail - (s.part p).fq.head).toNat < 2 ^ (s.part p).fq.ringSize →
          (t.part p).fq.ringOut.length = (s.part p).fq.ringOut.length + 1)
      ∧ (0x86 ∉ o.stopped → (s.part p).fq.ring = false → (s.part p).fq.queue.length < 1024 →
          (t.part p).fq.queue.length = (s.part p).fq.queue.length + 1))
  ∧ (g.mayRelease = true → ¬ held → g.mayInst x y = true → g.entry.ragged = none → s.instRegions p g x y = none →
      ∃ t u, s.tryRelease p g x y span = some t ∧ t.graph p lid = some u ∧ u.stAt x y = 4)
  ∧ (g.mayRelease = false ∨ held → s.tryRelease p g x y span = none)
  ∧ ∀ rest, g.entry.adit = none → s.swapping p = false → g.waiting = (x, y) :: rest → x < 4096 → y < 4096 →
    let sp : Word := (Config.freeSpan g.seed x y).extractLsb' 0 40 ++ BitVec.ofNat 12 y ++ BitVec.ofNat 12 x
    (∀ t, s.tryRelease p g x y sp = some t → Gives (.taskRelease p lid x y) s fun u =>
      u = ((t.emitSpan p lid x y).sourceDone p lid).pump p lid 8
      ∧ ∀ h k, t.graph p lid = some h → h.task x y = some k → k.st = 1 → k.span = sp → k.xid = none →
        ∃ h', (t.emitSpan p lid x y).graph p lid = some h' ∧ h'.srcq = h.srcq ++
          [{ kind := 3, coord := BitVec.ofNat 32 (x + y * 65536), ref := sp },
           { kind := 4, coord := BitVec.ofNat 32 (x + y * 65536), ref := sp }])
    ∧ (s.tryRelease p g x y sp = none → Gives (.taskRelease p lid x y) s fun u => u = s)
    ∧ (∀ x' y', g.entry.ragged.isSome = true ∨ s.ready p g (x, y) = true → (x', y') ≠ (x, y) →
        Gives (.taskRelease p lid x' y') s fun u => u = s)

/-- R409: the SOT at the head of a host launch's own stream releases its task and enters; the span of a task that has become
DEP_ABORTED is discarded without count, that of a task outside the grid is counted and recorded. The stream's DONE enters, and
every task that no SOT named ends ABORTED or DEP_ABORTED. -/
def Obligations.HostStreams : Prop := ∀ (s s1 s2 : State) (p lid a : Nat) (g : Graph) (st : Stream) (sts : List Stream)
    (k : Token) (rest : List Token),
  let x := (k.coord.extractLsb' 0 12).toNat
  let y := (k.coord.extractLsb' 16 12).toNat
  let queue := fun (t : State) => ((t.part p).adit a).queue
  let inside := x < lrGw g.entry.lrec ∧ y < lrGh g.entry.lrec ∧ (x, y) ∉ g.named
  s.graph p lid = some g → g.live = true → s.swapping p = false → g.entry.adit = some a → g.dropping = 0 →
  ((s.part p).adit a).streams = st :: sts → st.lid = some lid → st.left = none →
  queue s = k :: rest →
  (k.kind = 3 → inside → g.stAt x y = 0 → s.tryRelease p g x y k.ref = some s1 →
    (s1.graph p lid).map (·.stAt x y) = some 1 → s1.enterAt p g 0 k = some s2 → Gives (.hostSpanEntry p lid) s fun t =>
      t = ((s2.modAdit p a Adit.popOwn).modGraph p lid fun g => { g with named := g.named ++ [(x, y)] }).modGraph p lid
        fun g => g.modTask x y fun k => { k with begun := true })
  ∧ (k.kind = 3 → inside → g.stAt x y = 0 → s.tryRelease p g x y k.ref = none →
      Gives (.hostSpanEntry p lid) s fun t => t = s)
  ∧ (∀ mid e after, k.kind = 3 → inside → g.stAt x y = 5 → rest = mid ++ e :: after → mid.length < 512 →
      (∀ m ∈ mid, m.kind ≠ 2 ∧ m.kind ≠ 4) → e.kind = 4 → Gives (.hostSpanEntry p lid) s fun t =>
        queue t = after ∧ (t.part p).cnt = (s.part p).cnt ∧ (t.graph p lid).map (·.named) = some (g.named ++ [(x, y)]))
  ∧ (∀ mid e after, k.kind = 3 → ¬ inside → rest = mid ++ e :: after → mid.length < 512 →
      (∀ m ∈ mid, m.kind ≠ 2 ∧ m.kind ≠ 4) → e.kind = 4 → Gives (.hostSpanEntry p lid) s fun t =>
        queue t = after ∧ SMap.get 0 (t.part p).cnt (0x01F * 256 + a)
          = SMap.get 0 (s.part p).cnt (0x01F * 256 + a) + BitVec.ofNat 32 (mid.length + 2)
        ∧ (t.part p).fq = ((s.record p (evRec s lid 9 1 0 (0, 0) a 0 0 0 (lrImage g.entry.lrec) 0)).part p).fq)
  ∧ (k.kind = 2 → g.entry.ragged = none → s.enterAt p g 0 tkDone = some s1 → Gives (.hostStreamDone p lid) s fun t =>
      queue t = rest ∧ ((t.part p).adit a).streams = sts
      ∧ ∃ u, t.graph p lid = some u ∧ u.doneSent = true ∧ ∀ x' y', x' < lrGw g.entry.lrec → y' < lrGh g.entry.lrec →
        (x', y') ∉ g.named → (g.stAt x' y' = 0 ∨ g.stAt x' y' = 4 ∨ g.stAt x' y' = 5) → u.stAt x' y' = 4 ∨ u.stAt x' y' = 5)
  ∧ (k.kind ≠ 2 → Gives (.hostStreamDone p lid) s fun t => t = s)

/-- R276, R348, R361, R389: tokens at the edge of the mesh. An ingress binding takes the next token of its source while its
router has room, the SOT of a span source only while the graph is neither asked to yield nor to move; no token passes while a
clock change holds the cells; a token at an egress binding goes to its adit's place in host memory, or is discarded and counted. -/
def Obligations.EdgeOfMesh : Prop := ∀ (s s1 : State) (p lid n a : Nat) (g : Graph) (k : Token) (rest : List Token)
    (b : Binding),
  let c := g.cellOf b.x b.y
  let x := (s.part p).adit a
  s.graph p lid = some g → g.live = true → s.swapping p = false →
  ((s.graphImage p g).ingress[n]? = some b → s.enterAt p g n k = some s1 → kindOn b.vc k = true →
    (s.cell c).router.reads b.port b.vc = true →
    SMap.get [] (s1.cell c).router.inb (rIdx b.port b.vc) = SMap.get [] (s.cell c).router.inb (rIdx b.port b.vc) ++ [k])
  ∧ (s.hf.toPoint ≠ none → s.enterAt p g n k = none ∧ Gives (.aditEgressWrite p lid n) s fun t => t = s)
  ∧ (g.entry.adit = none → g.doneSent = true → g.srcq = k :: rest → s.enterAt p g 0 k = some s1 →
    (k.kind ≠ 3 → Gives (.aditIngressEntry p lid 0) s fun t => t = s1.modGraph p lid fun g => { g with srcq := rest })
    ∧ (k.kind = 3 → g.mayRelease = true → Gives (.aditIngressEntry p lid 0) s fun t =>
        t = s1.modGraph p lid fun g => { g.begin k with srcq := rest })
    ∧ (k.kind = 3 → g.mayRelease = false → Gives (.aditIngressEntry p lid 0) s fun t => t = s))
  ∧ (1 ≤ n → n ≤ 3 → lrAdit g.entry.lrec (n - 1) = some a → x.named = some lid → x.streams = [] → x.queue = k :: rest →
    (k.kind = 3 → g.mayRelease = true) → s.enterAt p g n k = some s1 →
    Gives (.aditIngressEntry p lid n) s fun t => t = s1.modAdit p a fun y => { y with queue := y.queue.drop 1 })
  ∧ (∀ st sts, g.entry.adit = some a → x.streams = st :: sts → st.lid = some lid → st.left = none → x.queue = k :: rest →
    k.kind ≠ 2 → k.kind ≠ 3 → g.dropping = 0 → s.enterAt p g 0 k = some s1 →
    Gives (.aditIngressEntry p lid 0) s fun t => t = s1.modAdit p a Adit.popOwn)
  ∧ (s.hf.toPoint = none → (s.graphImage p g).egress[n]? = some b → SMap.get [] (s.cell c).router.outb (rIdx b.port b.vc) = [k] →
    let left := fun (t : State) => SMap.get [] (t.cell c).router.outb (rIdx b.port b.vc) = []
    let place := x.egbase.toNat + 128 * x.egcount
    let room := 128 * (x.egcount + 1) ≤ x.eglen.toNat
    (lrAdit g.entry.lrec (3 + n) = some a → room → k.kind ≠ 2 → Gives (.aditEgressWrite p lid n) s fun t =>
      left t ∧ t.mem.host = memStore s.mem.host place (tokenBytes k) ∧ ((t.part p).adit a).egcount = x.egcount + 1)
    ∧ (lrAdit g.entry.lrec (3 + n) = some a → room → k.kind = 2 → Gives (.aditEgressWrite p lid n) s fun t =>
      left t ∧ t.mem.host = memStore (memStore s.mem.host place (tokenBytes k)) x.egdone.toNat (natLe (x.egcount + 1) 8))
    ∧ (lrAdit g.entry.lrec (3 + n) = some a → ¬ room → Gives (.aditEgressWrite p lid n) s fun t => t = s)
    ∧ (lrAdit g.entry.lrec (3 + n) = none → Gives (.aditEgressWrite p lid n) s fun t =>
      left t ∧ SMap.get 0 (t.cell c).cnt 0x020 = SMap.get 0 (s.cell c).cnt 0x020 + 1 ∧ t.mem = s.mem))

/-- R31, R295, R298, R299, R301: the course of a running task. It is FINISHED when its EOT has reached every sink; each class
acknowledges its drain; a flush unit moves CUR on; with all done it is RETIRED. An abort ends a running task ABORTED. A task of an
expert that retires leaves its launch's table, and one aborted counts for the launch. The edge
action on a line that the producer wrote on die d and the dependent reads from die e: what e and then d holds dirty stands in
HBM and e's copy leaves; at FWD d's line is copied into e's cache and d keeps its own as it is (that e's own dirty bytes are
written back before the copy, and that the copy is HBM's where d holds no line, is log 94). -/
def Obligations.TaskCourse : Prop := ∀ (s : State) (p lid x y cls ri : Nat) (g : Graph) (k : Task) (r : BitVec 256)
    (va : BitVec 64),
  let after := fun (t : State) (Q : Task → Prop) => ∃ u k', t.graph p lid = some u ∧ u.task x y = some k' ∧ Q k'
  let os := s.overlaps p g k r
  s.graph p lid = some g → g.task x y = some k → g.live = true → s.swapping p = false → s.hf.toPoint = none →
  (k.st = 1 → s.sinkCount p g ≤ k.eots.length → Gives (.taskFinish p lid x y) s (after · fun k' => k' = { k with st := 2 }))
  ∧ (k.st = 1 → k.eots.length < s.sinkCount p g → Gives (.taskFinish p lid x y) s fun t => t = s)
  ∧ (k.st = 2 → cls ≤ 5 → s.drained g k cls = true → Gives (.taskDrainAck p lid x y cls) s fun t =>
      (k.acks ||| (1#6 <<< cls) ≠ 63 → after t fun k' => k' = { k with acks := k.acks ||| (1#6 <<< cls) })
      ∧ (k.acks ||| (1#6 <<< cls) = 63 → cls ≠ 0 → after t fun k' => k' =
          { k with acks := 63, regions := k.regions.map fun w =>
              if rgKind w = 0 ∨ nextUnit (s.overlaps p g k w) (rgCur w) = none then rgSetCur w (rgEnd w) else w })
      ∧ (cls ≠ 0 → t.mem = s.mem ∧ t.cells = s.cells))
  ∧ (k.st = 2 → s.drained g k cls = false → Gives (.taskDrainAck p lid x y cls) s fun t => t = s)
  ∧ (k.st = 2 → k.acks = 63 → k.regions[ri]? = some r → rgKind r ≠ 0 →
      (nextUnit os (rgCur r) = none → Gives (.flushUnit p lid x y ri) s fun t =>
        after t fun k' => k' = { k with regions := k.regions.set ri (rgSetCur r (rgEnd r)) })
      ∧ ∀ u, nextUnit os (rgCur r) = some u → Gives (.flushUnit p lid x y ri) s fun t => after t fun k' => k' =
        { k with regions := k.regions.set ri (rgSetCur r (if (nextUnit os (u + 1)).isNone then rgEnd r else u + 1)) })
  ∧ (k.st = 2 → k.acks = 63 → (s.part p).xp.blocked = [] →
      (∀ w ∈ writeSet k.regions, nextUnit (s.overlaps p g k w) (rgCur w) = none) →
      (g.entry.ragged = none →
        Gives (.taskRetire p lid x y) s (after · fun k' => k' = { k with st := 3, leases := [], shards := [], oldShards := [] }))
      ∧ (g.entry.ragged.isSome = true → g.entry.predFailed = false → Gives (.taskRetire p lid x y) s fun t =>
        ∃ u, t.graph p lid = some u ∧ u.aborted = g.aborted ∧ u.tasks = g.tasks.filter fun w => !(w.x == x && w.y == y)))
  ∧ ((k.st = 1 ∨ k.st = 2) →
      Gives (.taskAbort p lid x y va) s fun t =>
        (after t fun k' => k' = { k with st := 4, leases := [], shards := [], oldShards := [] })
        ∧ (g.entry.ragged.isSome = true → g.entry.predFailed = false → (t.graph p lid).map (·.aborted) = some (g.aborted + 1)))
  ∧ ((∀ e ∈ s.cells, e.2.dc = []) → Memory.wf s.mem.hbm = true → (∀ d, Rises (s.dieCache d)) → ∀ d e ln, d < 4 → e < 4 →
      let near := s.edgeLine g [d] [d] [d] ln
      let flushed := s.edgeLine g [d] [d] [e] ln false
      let sent := s.edgeLine g [d] [d] [e] ln true
      let l := s.dieLine d ln
      let m := s.dieLine e ln
      near true = s ∧ near false = s
      ∧ (d ≠ e → smHas (flushed.dieCache e) ln = false ∧ flushed.dieLine d ln = l.keep (BitVec.allOnes 64)
        ∧ ∀ i < 64, memRead flushed.mem.hbm (64 * ln + i) = if l.dirty.getLsbD i then byteOf l.data i
            else if m.dirty.getLsbD i then byteOf m.data i else memRead s.mem.hbm (64 * ln + i))
      ∧ (d ≠ e → (s.dieCache e).length < dieLines → sent.dieCache d = s.dieCache d ∧ (sent.dieLine e ln).dirty = 0
        ∧ ∀ i < 64, memRead sent.mem.hbm (64 * ln + i) = (if m.dirty.getLsbD i then byteOf m.data i else memRead s.mem.hbm (64 * ln + i))
          ∧ byteOf (sent.dieLine e ln).data i = if l.dirty.getLsbD i then byteOf l.data i else if m.dirty.getLsbD i then byteOf m.data i
            else if smHas (s.dieCache d) ln then byteOf l.data i else memRead s.mem.hbm (64 * ln + i)))

/-- R280: a launch all of whose tasks have ended and whose stream is complete writes its completion word, then raises its
vector, and leaves: its id is live no more; that its cells then cache nothing is the model's choice (log 115). The word holds LID,
STATUS and INFO; one whose home no path reaches is owed until there is one (R355). -/
def Obligations.LaunchCompletion : Prop := ∀ (s s1 : State) (p lid status info : Nat) (g : Graph) (r : BitVec 512)
    (only : Bool),
  let bad := if g.entry.ragged.isSome then g.aborted else (g.tasks.filter fun t => t.st == 4 || t.st == 5).length
  let done := (s.endFlush p g).complete p g.entry.lrec lid (if bad = 0 then 0 else 1) bad false
  (lid < 65536 → status < 4 → info < 2 ^ 24 →
    (doneWord lid status info).toNat = lid * 2 ^ 48 + status * 2 ^ 28 + info)
  ∧ (lrDoneva r ≠ 0 → (lrDoneva r).toNat % 8 = 0 → s.partWaits p .wr (lrDoneva r) 8 = true →
      s.complete p r lid status info only = { s with hf := { s.hf with owed := s.hf.owed ++
        [{ part := p, lrec := r, lid := lid, status := status, info := info, only := only }] } })
  ∧ (lrDoneva r ≠ 0 → (lrDoneva r).toNat % 8 = 0 → s.partWaits p .wr (lrDoneva r) 8 = false →
      s.partWrite p (lrDoneva r) (natLe (doneWord lid status info).toNat 8) = some s1 →
      s.complete p r lid status info only
        = if lrIrq r = true ∧ 4 ≤ lrVector r then s1.raiseVec p (lrVector r) else s1)
  ∧ (s.graph p lid = some g → g.live = true → g.fenced = false → s.swapping p = false → s.hf.toPoint = none → s.launchOver p g = true →
      Gives (.launchCompletion p lid) s fun t =>
        t.graph p lid = none ∧ lid ∉ (t.part p).liveLids ∧ (∀ c, bayOf c ∈ g.bays → (t.cell c).dc = [])
        ∧ ((s.part p).inval = [] → (s.part p).xp.blocked = [] → (t.part p).msix = (done.part p).msix)
        ∧ ((∀ e ∈ s.cells, e.2.dc = []) → (s.part p).xp.parked = [] → (s.part p).xp.blocked = [] → (∀ k ∈ g.tasks, k.xid = none) →
          (∀ h ∈ (s.part p).graphs, h.entry.ragged = none) → t.mem = done.mem))
  ∧ (s.graph p lid = some g → s.launchOver p g = false → Gives (.launchCompletion p lid) s fun t => t = s)

/-- R309, R310, R311, R316: the residency instructions on an expert that exists. Each returns its value or failure code and
changes the 32 bytes of that expert's entry and the line of fetches only; one that does not exist returns code 1. -/
def Obligations.ResidencyInstructions : Prop := ∀ (s : State) (d a : BitVec 5) (p x : Nat) (w : BitVec 2),
  let q := s.part p
  let e := s.ert p x
  let does := fun i (v : Word) (e' : Ert) (xp : Experts) => Gives i s fun t =>
    (∀ r, t.seq.getG r = if r = 0 then 0 else if r = d then v else s.seq.getG r) ∧ GoesOn s t
    ∧ t.ert p x = e' ∧ (t.part p).xp = xp ∧ { t.mem with hbm := s.mem.hbm } = s.mem
    ∧ (∀ b, (b < s.ertAt p x ∨ s.ertAt p x + 32 ≤ b) → memRead t.mem.hbm b = memRead s.mem.hbm b)
    ∧ ∀ c, c ≠ s.focus.cell → t.cell c = s.cell c
  let keeps := fun i v => does i v e q.xp
  let fetch := fun (e : Ert) => { e with state := 1, fail := false, req := false }
  let asked : Experts :=
    { q.xp with
      reqs := q.xp.reqs ++ [x]
      prog := SMap.set q.xp.prog x { errs := if e.fail then 0 else (q.xp.at x).errs } }
  s.partOf s.focus.cell = some p → q.swapped = false → (s.seq.getG a).toNat = x → x < 65536 →
  (s.expert p x = false → keeps (.xpref d a) 0x8000000000000001 ∧ keeps (.xpinPin d a) 0x8000000000000001
    ∧ keeps (.xpinUnpin d a) 0x8000000000000001 ∧ keeps (.xevict d a) 0x8000000000000001
    ∧ keeps (.xlook d a w) 0x8000000000000001)
  ∧ (s.expert p x = true →
    (e.state = 0 → does (.xpref d a) 0 (fetch e) asked)
    ∧ (e.state = 1 → keeps (.xpref d a) 1) ∧ (e.state = 2 → keeps (.xpref d a) 2)
    ∧ (e.state = 3 → does (.xpref d a) 3 { e with req := true } q.xp)
    ∧ (e.pin ≠ 255 → e.state ≠ 0 →
      does (.xpinPin d a) (BitVec.ofNat 64 (e.pin.toNat + 1)) { e with pin := e.pin + 1 } q.xp)
    ∧ (e.pin ≠ 255 → e.state = 0 →
      does (.xpinPin d a) (BitVec.ofNat 64 (e.pin.toNat + 1)) (fetch { e with pin := e.pin + 1 }) asked)
    ∧ (e.pin = 255 → keeps (.xpinPin d a) 0x8000000000000003)
    ∧ (e.pin ≠ 0 → does (.xpinUnpin d a) (BitVec.ofNat 64 (e.pin.toNat - 1)) { e with pin := e.pin - 1 } q.xp)
    ∧ (e.pin = 0 → keeps (.xpinUnpin d a) 0x8000000000000002)
    ∧ (e.state = 2 → e.pin = 0 → e.lease = 0 → e.wait = 0 → does (.xevict d a) 0 { e with state := 3 } q.xp)
    ∧ (e.state ≠ 2 → keeps (.xevict d a) 0x8000000000000002)
    ∧ (e.state = 2 → (e.pin ≠ 0 ∨ e.lease ≠ 0 ∨ e.wait ≠ 0) → keeps (.xevict d a) 0x8000000000000004)
    ∧ keeps (.xlook d a 0) (BitVec.ofNat 64 (e.state.toNat + 4 * e.dirty.toNat + 8 * e.v.toNat + 16 * e.fail.toNat
        + 32 * e.req.toNat + 2 ^ 8 * e.pin.toNat + 2 ^ 16 * e.lease.toNat + 2 ^ 32 * e.wait.toNat))
    ∧ keeps (.xlook d a 1) (BitVec.ofNat 64 (e.slot.toNat + 2 ^ 12 * e.frame.toNat + 2 ^ 48 * e.size.toNat))
    ∧ keeps (.xlook d a 2) e.lode ∧ keeps (.xlook d a 3) e.last)

/-- R309, R310, R311, R314, R315, R352: the course of a fetch and of an eviction. A fetch writes 64 KiB frames one by one; with
the last the expert is RESIDENT and its parked tokens form tasks; a frame that cannot be read is a read error. The oldest request
takes the lowest free slot, which the model reads from R394's example (log 35); with none free each waiting request has one
expert evicted for it. SLOT and FRAME of an entry without a slot are free values (log 32). -/
def Obligations.ExpertFetches : Prop := ∀ (s : State) (p x v : Nat) (rest : List Nat) (t0 : BitVec 64),
  let q := s.part p
  let e := s.ert p x
  let n := (q.xp.at x).frames
  let lo := (q.slab e).1
  let used := (s.slotted p).map fun k => k.2.slot.toNat
  let full := ∀ n, n < q.cfg.nslot → n ∈ used
  let frame := e.lode + BitVec.ofNat 64 (65536 * n)
  let free := fun (e : Ert) => e.state = 2 ∧ e.pin = 0 ∧ e.lease = 0 ∧ e.wait = 0
  let resident := q.loaded = true ∧ q.swapped = false ∧ s.swapping p = false
  let apart := x < q.cfg.ertN ∧ Memory.wf s.mem.lode = true ∧ Memory.wf s.mem.hbm = true
    ∧ (q.cfg.ertBase.toNat + 32 * q.cfg.ertN ≤ lo ∨ lo + 65536 * (q.slab e).2 ≤ q.cfg.ertBase.toNat)
  let has := fun (t : State) (e' : Ert) => ∃ sl fr, t.ert p x = { e' with slot := sl, frame := fr }
  let errs := (q.xp.at x).errs + 1
  let failed := fun (t : State) =>
    has t { e with state := 0, fail := decide (8 ≤ errs) }
    ∧ (t.part p).xp.at x = { errs := errs, refetch := if errs < 8 ∧ e.wait ≠ 0 then some s.tbase else none }
    ∧ (t.part p).xp.runs = q.xp.runs.filter (· ≠ x)
    ∧ SMap.get 0 (t.part p).cnt 0x01C = SMap.get 0 q.cnt 0x01C + 1
    ∧ (q.fq.queue.length < 1024 → (t.part p).fq.queue.length = q.fq.queue.length + 1)
  let asked := fun (t : State) => (t.part p).xp.reqs = q.xp.reqs ++ [x] ∧ (t.part p).xp.at x = { errs := (q.xp.at x).errs }
  (resident → q.xp.reqs = x :: rest →
    (¬ full → q.cfg.nslot ≤ 4096 → Gives (.expertFetchStart p) s fun t =>
      (t.part p).xp = { q.xp with reqs := rest, asked := q.xp.asked.filter (· ≠ x), runs := q.xp.runs ++ [x] }
      ∧ ∃ n, n < q.cfg.nslot ∧ n ∉ used ∧ (∀ m < n, m ∈ used)
        ∧ t.ert p x = { e with slot := BitVec.ofNat 12 n, frame := BitVec.ofNat 23 (q.cfg.slotF + n * q.cfg.slotSz) })
    ∧ (∀ done r more, full → q.xp.reqs = done ++ r :: more → (∀ r' ∈ done, r' ∈ q.xp.asked) → r ∉ q.xp.asked →
      s.victim p = some v → Gives (.expertFetchStart p) s fun t =>
        t = (s.modErt p v fun e => { e with state := 3 }).modXp p fun e => { e with asked := e.asked ++ [r] })
    ∧ (full → (s.victim p = none ∨ ∀ r ∈ q.xp.reqs, r ∈ q.xp.asked) → Gives (.expertFetchStart p) s fun t => t = s))
  ∧ (s.victim p = some v → v < q.cfg.ertN ∧ free (s.ert p v) ∧ ∀ y < q.cfg.ertN, free (s.ert p y) →
      (s.ert p v).last.toNat < (s.ert p y).last.toNat ∨ ((s.ert p v).last = (s.ert p y).last ∧ v ≤ y))
  ∧ (s.lodeReads frame = true ↔ frame.extractLsb' 50 14 = 0 ∧ frame.extractLsb' 0 16 = 0
      ∧ s.hf.lodeUp.getLsbD (frame.extractLsb' 48 2).toNat = true ∧ frame.toNat / 65536 ∉ s.mem.lodePoison
      ∧ ∃ r ∈ s.hf.lodeRanges, r.1 = (frame.extractLsb' 48 2).toNat ∧ r.2.1 ≤ (frame.extractLsb' 0 48).toNat
        ∧ (frame.extractLsb' 0 48).toNat + 65536 ≤ r.2.1 + r.2.2)
  ∧ (s.fetching p x = true → s.lodeReads frame = false → Gives (.expertFetchComplete p x) s failed)
  ∧ (s.fetching p x = true → s.lodeReads frame = true → apart →
      (n < (q.slab e).2 → (n + 1 < (q.slab e).2 ∨ (q.xp.blocked = [] ∧ ∀ k ∈ q.xp.parked, k.xid ≠ x)) →
        Gives (.expertFetchComplete p x) s fun t =>
          ∀ i < 65536, memRead t.mem.hbm (lo + 65536 * n + i) = memRead s.mem.lode (e.lode.toNat + 65536 * n + i))
      ∧ (n + 1 < (q.slab e).2 → Gives (.expertFetchComplete p x) s fun t =>
          (t.part p).xp.at x = { q.xp.at x with frames := n + 1 } ∧ t.ert p x = e ∧ (t.part p).xp.parked = q.xp.parked)
      ∧ (n + 1 = (q.slab e).2 → q.xp.blocked = [] →
        let mine := q.xp.parked.filter fun k => k.xid = x
        (Gives (.expertFetchComplete p x) s fun t => (t.part p).xp.parked = q.xp.parked.filter (fun k => k.xid ≠ x)
          ∧ (t.part p).xp.at x = {} ∧ (t.part p).xp.runs = q.xp.runs.filter (· ≠ x))
        ∧ (mine = [] → Gives (.expertFetchComplete p x) s fun t => t.ert p x = { e with state := 2 })
        ∧ ∀ k ks g, mine = k :: ks → ks.length < 32 → (∀ j ∈ ks, j.lid = k.lid) → s.graph p k.lid = some g →
          g.entry.ragged ≠ none → g.entry.predFailed = false → (∀ n ∈ g.named, n.2 = k.ri → n.1 < 2048) →
          Gives (.expertFetchComplete p x) s fun t =>
            t.ert p x = { e with state := 2, lease := e.lease + 1, last := s.tbase, wait := e.wait - BitVec.ofNat 32 mine.length }
            ∧ (t.graph p k.lid).map (·.tasks)
              = some (g.tasks ++ [{ x := 2048, y := k.ri, xid := some x, toks := mine.map (·.tok) }])))
  ∧ (s.fetching p x = true → Gives (.expertFetchError p x) s failed ∧ Gives (.lodeReadTimeout p x) s failed)
  ∧ ((q.xp.at x).refetch = some t0 → resident →
      ((s.tbase - t0).toNat < 1000000 → Gives (.expertRefetchTimer p x) s fun t => t = s)
      ∧ (1000000 ≤ (s.tbase - t0).toNat → e.state = 0 → e.wait ≠ 0 → e.fail = false →
        Gives (.expertRefetchTimer p x) s fun t => t.ert p x = { e with state := 1, req := false } ∧ asked t))
  ∧ (e.state = 3 → resident → apart →
      let clean := fun (t : State) => if e.dirty
        then ∀ i < 65536 * (q.slab e).2, memRead t.mem.lode (e.lode.toNat + i) = memRead t.mem.hbm (lo + i)
        else t.mem.lode = s.mem.lode
      (e.wait = 0 → e.pin = 0 → e.req = false → Gives (.expertEvictionDone p x) s fun t =>
        clean t ∧ has t { e with state := 0, dirty := false } ∧ (t.part p).xp = q.xp)
      ∧ ((e.wait ≠ 0 ∨ e.pin ≠ 0 ∨ e.req = true) → Gives (.expertEvictionDone p x) s fun t =>
        clean t ∧ has t { e with state := 1, dirty := false, req := false } ∧ asked t))

/-- R318, R319: a step whose slots are stamped becomes an update task. Unless a conflict keeps it waiting it runs: the slots
are taken in ascending source order, their records in order, one at a time, each to the pieces of its row (one piece where SDIM is
outermost); with the last the task retires, APPLIED is the step
and NEXT the one after. While a path to what an action needs is missing it waits (R355). A record names a row that the package owns
by the shard table, or any row of a tensor that is not sharded (the reading of log 56); others are dropped. -/
def Obligations.EmbeddingUpdates : Prop := ∀ (s s1 s2 : State) (p idx src i n k : Nat) (e : Emb) (bs row : List Byte),
  let q := s.part p
  let ready := e.nsrc ≤ ((List.range 1024).filter fun k => s.embStamp p e k ≠ 0).length
  let made := { e with busy := true, age := s.tbase.toNat }
  let s0 := s.modEmb p idx fun _ => made
  let goes := fun (Q : State → Prop) => Gives (.embeddingStepComplete p idx) s Q ∧ Gives (.taskRelease p 0 idx 0) s Q
  let entry := fun (t : State) => SMap.get {} (t.part p).emb idx
  let d := s1.desc p ((s1.part p).cfg.bays.headD 0) e.tensor
  let r := leNat (bs.take 4)
  let ps := cutPieces (d.rowPieces r) e.rowb
  let w := if e.fmt = 7 then 2 else 4
  let raw := s1.walkDesc p ((s1.part p).cfg.bays.headD 0) e.tensor false
  let owned := if d.sharded then ∃ l, s1.shards e.tensor raw none = some l
      ∧ ∃ h ∈ l, h.owner = s1.hf.pkg.toNat ∧ h.first ≤ r ∧ r < h.last
    else r < d.extent d.sdim
  let inside := owned ∧ r < d.ext.getD d.sdim 1
  (q.emb.find? (fun k => k.1 == idx) = some (idx, e) → q.swapped = false → q.fenced = false → s.swapping p = false →
    (e.busy = false → ¬ ready → Gives (.embeddingStepComplete p idx) s fun t => t = s)
    ∧ (e.busy = false → e.cur = none → ready → s0.embBlocked p idx made = true → Gives (.embeddingStepComplete p idx) s fun t =>
        entry t = made ∧ t.mem = s.mem)
    ∧ (e.busy = false → e.cur = none → ready → s0.embBlocked p idx made = false → Gives (.embeddingStepComplete p idx) s fun t =>
        entry t = { made with cur := some (0, none) } ∧ t.mem = s.mem)
    ∧ (e.busy = true → e.cur = none → s.embBlocked p idx e = true → goes fun t => t = s)
    ∧ (e.busy = true → e.cur.isSome = true → s.embWaits p e = true → goes fun t => t = s)
    ∧ (e.busy = true → e.cur = none → s.embBlocked p idx e = false → goes fun t =>
        entry t = { e with cur := some (0, none) } ∧ t.mem = s.mem)
    ∧ (e.busy = true → s.embWaits p e = false → e.cur = some (src, none) → s.embNext p e src = some k → s.embHead p e k = some n → goes fun t =>
        entry t = { e with cur := some (k, some (0, n)) } ∧ t.mem = s.mem)
    ∧ (e.busy = true → s.embWaits p e = false → e.cur = some (src, none) → s.embNext p e src = some k → s.embHead p e k = none → goes fun t =>
        entry t = { e with cur := some (k + 1, none) }
        ∧ (q.fq.queue.length < 1024 → (t.part p).fq.queue.length = q.fq.queue.length + 1))
    ∧ (e.busy = true → s.embWaits p e = false → e.cur = some (src, some (i, n)) → i + 1 < n → goes fun t =>
        t = (s.embRec p idx e src i).modEmb p idx fun e => { e with cur := some (src, some (i + 1, n)) })
    ∧ (e.busy = true → s.embWaits p e = false → e.cur = some (src, some (i, n)) → i + 1 = n → goes fun t =>
        t = (s.embRec p idx e src i).embClear p idx e src)
    ∧ (e.busy = true → s.embWaits p e = false → e.cur = some (src, none) → s.embNext p e src = none → goes fun t =>
        (entry t).applied = e.next.setWidth 64 ∧ (entry t).next = e.next + 1 ∧ (entry t).slotBytes = e.slotBytes
        ∧ (entry t).busy = false ∧ (entry t).cur = none))
  ∧ (s.embNext p e src = some k →
      src ≤ k ∧ k < 1024 ∧ s.embStamp p e k ≠ 0 ∧ ∀ j, src ≤ j → j < k → s.embStamp p e j = 0)
  ∧ (s.partRead p (e.slotVa src 0) 32 = some (bs, s1) →
      let status := ((s.embStamp p e src).extractLsb' 28 4).toNat
      s.embHead p e src = if (status = 0 ∨ status = 3) ∧ r = e.next.toNat ∧ leNat ((bs.drop 4).take 2) % 1024 = src
        then some (leNat ((bs.drop 8).take 4)) else none)
  ∧ (s.partRead p (e.slotVa src (32 + i * (8 + e.rowb))) (8 + e.rowb) = some (bs, s1) →
    (0 < d.bytes → d.bytes = d.rowBytes * d.extent d.sdim → e.rowb ≤ d.rowBytes → ps = [(r * d.rowBytes, e.rowb)])
    ∧ (inside → e.set = true → s1.rowWrite p e.tensor ps (bs.drop 8) = some s2 → s.embRec p idx e src i = s2)
    ∧ (inside → e.set = false → s1.rowRead p e.tensor ps = some (row, s2) → s.embRec p idx e src i =
        (s2.rowWrite p e.tensor ps (embAdd e.fmt w row (bs.drop 8) (row.length / w))).getD s2)
    ∧ (¬ inside → s.embRec p idx e src i = s1.modEmb p idx fun e => { e with dropped := e.dropped + 1 }))
  ∧ ∀ wr, s.partWrite p (e.slotVa src (e.slotBytes - 8)) (natLe 0 8) = some wr →
    s.embClear p idx e src = wr.modEmb p idx fun e => { e with cur := some (src + 1, none) }

/-- R264, R267, R268, R270, R271, R272, R343: the end of a walk of one of a bay's four walkers, the ways a stopped port walks
again, and the invalidation service. A walk does not end while a clock change brings the cells to their points (R361). The numbers of
the answers are log 37's; that an invalidation of a swapped-out partition cuts its saved context is log 82. -/
def Obligations.TranslationEvents : Prop := ∀ (s s1 : State) (p b n c port f : Nat) (k : Walk) (h : Hold) (i : Inval),
  let s0 := s.modBay b fun x => { x with walks := x.walks.eraseIdx n }
  let q := s.part p
  let walk := s0.doWalk p k (kindNeed k.kind)
  let own := s.focus.fn = 0 ∨ s.focus.fn = p + 1
  let gone := fun (t : State) => port ∉ (t.cell c).stopped ∧ port ∉ (t.cell c).ringed
    ∧ (t.seqAt c) = (if port = 0x80 then { s.seqAt c with wait := {} } else s.seqAt c)
    ∧ (t.cell c).leaseHeld = if port = 0x86 then [] else (s.cell c).leaseHeld
  let stale := fun (e : TlbEntry) => e.stale = true ∧ e.leases ≠ 0 ∧ i.names e.tensor e.chunk = true
  let heldOn := (∃ b ∈ q.cfg.bays, ∃ e ∈ (s.bay b).tlb, stale e) ∨ ∃ t ∈ q.tasks, i.tensor ∈ t.oldShards
  let asked : Instr := .invalidationRequest p i.tensor i.first i.count
  let may := port ∈ (s.cell c).stopped ∧ port ∉ (s.cell c).ringed ∧ s.cellLive c = true ∧ s.recWaits c port = false
  (s.hf.toPoint ≠ none → Gives (.translationWalkComplete (b, n)) s fun t => t = s)
  ∧ (s.hf.toPoint = none → n < 4 → (s.bay b).walks[n]? = some k → s.partOf k.cell = some p →
    (walk = .ok s1 → Gives (.translationWalkComplete (b, n)) s fun t => t = s1)
    ∧ (walk = .error f → k.port ≠ 0x80 → Gives (.translationWalkComplete (b, n)) s fun t =>
        (t.bay b).walks = (s.bay b).walks.eraseIdx n ∧ k.port ∈ (t.cell k.cell).stopped ∧ t.mem = s.mem
        ∧ (q.fq.ring = true → k.port ∈ (t.cell k.cell).ringed)
        ∧ (q.fq.ring = false → q.fq.queue.length < 1024 → (t.part p).fq.queue.length = q.fq.queue.length + 1))
    ∧ (walk = .error 3 → k.port = 0x80 → (s.seqAt k.cell).heldBy k = some h →
        Gives (.translationWalkComplete (b, n)) s fun t => (t.bay b).walks = (s.bay b).walks.eraseIdx n ∧ t.mem = s.mem
          ∧ (t.seqAt k.cell).wait.hold = some { h with trap := some (0x05, k.va) })
    ∧ (walk = .error f → f ≠ 3 → k.port = 0x80 → (s.seqAt k.cell).heldBy k = some h →
        Gives (.translationWalkComplete (b, n)) s fun t =>
          (t.bay b).walks = (s.bay b).walks.eraseIdx n ∧ 0x80 ∈ (t.cell k.cell).stopped
          ∧ (t.seqAt k.cell).wait.hold = some { h with stopped := true }))
  ∧ ((4 ≤ n ∨ (s.bay b).walks.length ≤ n) → Gives (.translationWalkComplete (b, n)) s fun t => t = s)
  ∧ (port ∈ (s.cell c).ringed → s.cellLive c = true → s.recWaits c port = false → Gives (.ringRetry c port) s gone)
  ∧ (port ∉ (s.cell c).ringed ∨ s.recWaits c port = true → Gives (.ringRetry c port) s fun t => t = s)
  ∧ (s.partOf c = some p →
      (own → may → Gives (.portResume c port) s fun t => gone t ∧ t = (s.unstop c port).answer 16 0)
      ∧ (own → ¬ may → Gives (.portResume c port) s fun t => t = s.answer 16 2)
      ∧ (¬ own → Gives (.portResume c port) s fun t => t = s.answer 16 1))
  ∧ (q.loaded = true → q.swapped = false → i.told = false → own → Gives asked s fun t =>
        (t.part p).inval = q.inval ++ [i] ∧ t.mem = s.mem ∧ (t.part p).graphs = q.graphs.map i.cutGraph
        ∧ (∀ b ∈ q.cfg.bays,
          (∀ e ∈ (t.bay b).tlb, i.names e.tensor e.chunk = true → stale e)
          ∧ (∀ e ∈ (s.bay b).tlb, i.names e.tensor e.chunk = false → e ∈ (t.bay b).tlb)
          ∧ (i.count = 0 → ∀ d ∈ (t.bay b).desc, d.1 ≠ i.tensor))
        ∧ (∀ x, bayOf x ∈ q.cfg.bays →
          (t.cell x).tlb = (s.cell x).tlb.filter fun e => !i.names e.tensor e.chunk)
        ∧ ∀ x, bayOf x ∉ q.cfg.bays → t.cell x = s.cell x)
  ∧ (∀ kept, q.loaded = true → q.swapped = true → i.told = false → own → SMap.get none s.caisson p = some kept →
      Gives asked s fun t => { t with caisson := s.caisson } = s
        ∧ SMap.get none t.caisson p = some { kept with
            part := i.cutPart kept.part, bays := kept.bays.map fun e => (e.1, i.cutBay e.2) })
  ∧ (¬ own → Gives asked s fun t => t = s.answer 17 1)
  ∧ (q.inval = [i] → i.told = false →
      (¬ heldOn → Gives (.invalidationComplete p) s fun t =>
        (t.part p).inval = [] ∧ (t.part p).mail.length = q.mail.length + 2)
      ∧ (heldOn → Gives (.invalidationComplete p) s fun t =>
        (t.part p).inval = [{ i with told := true }] ∧ (t.part p).mail.length = q.mail.length + 1))

/-- R159, R269, R333, R398: an access of another package to a frame exported to it is performed at home, but while its
partition is halted for a swap; a payload block also adds to its chain's running assay and is acknowledged with it,
the last with the chain's result. An access to a row that this package owns is translated here; that it is not checked
for export is the model's reading (log 109). An uncorrectable error poisons its block of 256 bytes, is counted, and in
a partition's table range fences the partition. R161: a bank group's window opens when REFWIN reaches 2,000 times its
number and closes 256 ns later; no other group changes, and no byte. As time passes the groups in their window are
those that the rule names. -/
def Obligations.HomeMemory : Prop :=
  (∀ (s s1 : State) (pkg frame off pa p tensor row : Nat) (data bs : List Byte)
    (e : Nat × Part) (b : RemoteBlock) (ps : List (Nat × Nat)),
  let a0 := frame * 65536 + off
  let before := s.settle a0 data.length
  let stored := fun (t : State) =>
    (∀ a, memRead t.mem.hbm a = if a0 ≤ a ∧ a < a0 + data.length then data.getD (a - a0) 0 else memRead before.mem.hbm a)
    ∧ t.cells = s.cells ∧ t.parts = s.parts
  let table := s.parts.find? fun e => e.2.loaded && inTable e.2.cfg (pa / 65536)
  let poisoned := fun (t : State) =>
    t.mem.poison = (if pa / 256 ∈ s.mem.poison then s.mem.poison else s.mem.poison ++ [pa / 256]) ∧ t.mem.hbm = s.mem.hbm
    ∧ SMap.get 0 t.cnt (0x029 * 256 + pa / 2 ^ 36 % 8)
      = SMap.get 0 s.cnt (0x029 * 256 + pa / 2 ^ 36 % 8) + if pa / 256 ∈ s.mem.poison then 0 else 1
  let held := ∃ e ∈ s.parts, e.2.loaded = true ∧ e.2.ownsFrame frame = true ∧ s.swapping e.1 = true
  let at_ := fun k => Instr.remoteAccessHome pkg (.frame frame) off k data
  let own := fun k => Instr.remoteAccessHome pkg (.row p tensor row) off k data
  let run := fun v => assayBytes b.assay v data (data.length / 4)
  let key := (pkg, b.chain)
  ((frame, pkg) ∈ s.mem.exported → off + data.length ≤ 65536 → ¬ held →
    Gives (at_ (.acc .write)) s stored ∧ Gives (at_ (.acc .atomic)) s stored ∧ Gives (at_ (.block b)) s stored
    ∧ Gives (at_ (.acc .read)) s (fun t => t = before) ∧ Gives (at_ (.acc .gather)) s (fun t => t = before)
    ∧ (b.first = true → b.resume = none → b.last = none → Gives (at_ (.block b)) s fun t =>
        t.mem.acks = s.mem.acks ++ [(pkg, b.chain, run (assayInit b.assay), none)]
        ∧ (key, run (assayInit b.assay)) ∈ t.mem.homeRuns)
    ∧ (∀ v, b.first = false → b.resume = none → b.last = none → s.mem.homeRuns.find? (fun e => e.1 == key) = some (key, v) →
        Gives (at_ (.block b)) s fun t =>
          t.mem.acks = s.mem.acks ++ [(pkg, b.chain, run v, none)] ∧ (key, run v) ∈ t.mem.homeRuns)
    ∧ ∀ v x, b.resume = some v → b.last = some x → Gives (at_ (.block b)) s fun t =>
        t.mem.acks = s.mem.acks ++ [(pkg, b.chain, assayFinal b.assay (run v), some (assayFinal b.assay (run v) == x))]
        ∧ ∀ y ∈ t.mem.homeRuns, y.1 ≠ key)
  ∧ (∀ kind, (frame, pkg) ∉ s.mem.exported ∨ held → Gives (at_ kind) s fun t => t = s)
  ∧ ((s.part p).loaded = true → s.swapping p = false → s.rowAt p tensor row off data.length = some ps →
    (s.rowWrite p tensor ps data = some s1 → Gives (own (.acc .write)) s (fun t => t = s1)
      ∧ Gives (own (.acc .atomic)) s fun t => t = s1)
    ∧ (s.rowRead p tensor ps = some (bs, s1) → Gives (own (.acc .read)) s fun t => t = s1))
  ∧ (∀ kind, s.rowAt p tensor row off data.length = none ∨ s.swapping p = true → Gives (own kind) s fun t => t = s)
  ∧ (pa < 2 ^ 39 → table = none → Gives (.hbmUncorrectableError pa none) s fun t => poisoned t ∧ t.parts = s.parts)
  ∧ (pa < 2 ^ 39 → table = some e → Gives (.hbmUncorrectableError pa none) s fun t =>
      ∃ u, poisoned u ∧ u.parts = s.parts ∧ t = u.fencePart e.1))
  ∧ (∀ (s : State) (grp : Nat),
  grp < 16 →
  (2000 * grp ≤ s.tbase.toNat % 32000 → s.tbase.toNat % 32000 < 2000 * grp + 256 →
    Gives (.refreshWindowOpen grp) s fun t => t.mem.refresh.getLsbD grp = true
      ∧ (∀ j, j ≠ grp → t.mem.refresh.getLsbD j = s.mem.refresh.getLsbD j) ∧ { t with mem := s.mem } = s)
  ∧ ((s.tbase.toNat % 32000 < 2000 * grp ∨ 2000 * grp + 256 ≤ s.tbase.toNat % 32000) → Gives (.refreshWindowClose grp) s fun t => t.mem.refresh.getLsbD grp = false
      ∧ (∀ j, j ≠ grp → t.mem.refresh.getLsbD j = s.mem.refresh.getLsbD j) ∧ { t with mem := s.mem } = s)
  ∧ (∀ ns ticks, ns + ticks ≠ 0 → let u := s.elapse ns ticks
      u.mem.refresh.getLsbD grp = true ↔
        2000 * grp ≤ u.tbase.toNat % 32000 ∧ u.tbase.toNat % 32000 < 2000 * grp + 256))

/-- R21, R323, R336, R337, R338, R341, R342: a freeze that has taken effect stops the graph's units, writes its one record and
fences the graph; a fence that comes before that loses no record, and refuses the launches that name it and dumps the graph. A failed cell fences the graph over it, and
system software may fence one; a watchdog at its limit raises WDOG as the tick ends; release ends a fenced graph, in a fenced partition
too. A dump asked for halts the graph until its drain is complete. The model's choices: the numbers of the answers (log 37), the
dump's course as the request comes again (log 43), and that the cells of a released graph cache nothing (log 115). -/
def Obligations.FreezesAndFences : Prop := ∀ (s : State) (p lid cell ns : Nat) (g : Graph) (r : FaultRec) (v : BitVec 64),
  let q := s.part p
  let own := s.focus.fn = 0 ∨ s.focus.fn = p + 1
  let calm := s.calm g.holds = true ∧ (g.freeze = none ∨ g.frozen = true) ∧ g.wdDue = none
  let dumped := fun (tb : Word) (t : State) => ∃ u : State, t = u.answer 11 0 ∧ u.graph p lid = some { g with halt := false }
    ∧ u.mem = s.mem ∧ u.cells = s.cells ∧ u.hf.dumpOf = none
    ∧ ∃ d trunc, u.dumps = s.dumps ++ [(p, d)] ∧ d.head = dumpHead 2 trunc lid tb d.secs.length {}
  let entries := fun (q : Part) => q.lqs.flatMap (·.2) ++ (q.graphs.filter fun h => !h.fenced && h.freeze.isNone).map (·.entry)
  let apart := (∀ x ∈ q.lqs.flatMap (·.2), x.lid ≠ lid) ∧ (q.graphs.map (·.lid)).Nodup
    ∧ (∀ h ∈ q.graphs, h.entry.lid = h.lid) ∧ (entries q).length ≤ 8192
  let fenced := fun (t : State) =>
    (∃ u, t.graph p lid = some u ∧ u.frozen = true ∧ u.fenced = true ∧ u.tasks = g.tasks)
    ∧ (∀ x ∈ entries (t.part p), x.predLost = false ∧ (lid, none) ∉ x.preds)
    ∧ t.dumps.length = s.dumps.length + 1
    ∧ ∀ c, g.holds c = true → (t.cell c).m.copy.queue = [] ∧ (t.cell c).m.copy.runs = [] ∧ (t.cell c).m.fill.queue = []
  (s.graph p lid = some g →
    (apart → g.freeze = some r → g.frozen = false → g.fenced = false → q.fq.queue.length < 1024 →
      Gives (.graphFreeze p lid) s fun t => fenced t ∧ r ∈ (t.part p).fq.queue)
    ∧ (g.freeze = none → Gives (.graphFreeze p lid) s fun t => t = s)
    ∧ (g.live = true → s.swapping p = false → q.wdlim.toNat * 1000 ≤ g.wdog → g.wdDue = none →
        Gives (.watchdogExpiry p lid) s fun t =>
          t.graph p lid = some { g with wdDue := some (evRec s lid 6 0 0x08 (0, 0) q.wdlim.toNat 0 0 0 0 0) })
    ∧ (g.wdDue = some r → g.freeze = none → ns ≠ 0 →
        ((s.elapse ns 0).graph p lid).map (fun u => (u.freeze, u.wdDue)) = some (some r, none))
    ∧ (g.wdog < q.wdlim.toNat * 1000 → Gives (.watchdogExpiry p lid) s fun t => t = s)
    ∧ (apart → q.loaded = true → q.fenced = false → own → s.swapping p = false → g.freeze = none → g.fenced = false →
        Gives (.registerWrite p (.fenceGraph lid) v) s fenced)
    ∧ (g.fenced = true → s.swapping p = false →
        (own → Gives (.graphRelease p lid) s fun t => (∃ u : State, t = u.answer 10 0)
          ∧ t.graph p lid = none ∧ lid ∉ (t.part p).liveLids ∧ ∀ c, bayOf c ∈ g.bays → (t.cell c).dc = [])
        ∧ (¬ own → Gives (.graphRelease p lid) s fun t => t = s.answer 10 1))
    ∧ (own → (g.fenced = false ∨ s.swapping p = true) → Gives (.graphRelease p lid) s fun t => t = s.answer 10 2)
    ∧ (q.loaded = true → q.swapped = false → s.hf.swap = none → s.hf.swaps = [] → own →
      (s.hf.dumpOf = none → calm → Gives (.dumpRequest p (some lid)) s (dumped s.tbase))
      ∧ (s.hf.dumpOf = none → ¬ calm → Gives (.dumpRequest p (some lid)) s fun t =>
          t.graph p lid = some { g with halt := true } ∧ t.hf.dumpOf = some (p, some lid) ∧ t.hf.dumpAt = s.tbase
          ∧ t.dumps = s.dumps ∧ t.mem = s.mem ∧ t.cells = s.cells)
      ∧ (s.hf.dumpOf = some (p, some lid) → calm → Gives (.dumpRequest p (some lid)) s (dumped s.hf.dumpAt))
      ∧ (s.hf.dumpOf = some (p, some lid) → ¬ calm → Gives (.dumpRequest p (some lid)) s fun t => t = s)))
  ∧ (own → (s.graph p lid = none → Gives (.graphRelease p lid) s fun t => t = s.answer 10 2)
    ∧ ((q.loaded = false ∨ q.swapped = true ∨ s.graph p lid = none) → Gives (.dumpRequest p (some lid)) s fun t => t = s.answer 11 2))
  ∧ (¬ own → (Gives (.graphRelease p lid) s fun t => t = s.answer 10 1) ∧ ∀ l, Gives (.dumpRequest p l) s fun t => t = s.answer 11 1)
  ∧ (∀ scope trunc tb n, let h := dumpHead scope trunc lid tb n r
      h.length = 256 ∧ h.take 24 = natLe 0x504D5544 4 ++ natLe 1 4 ++ natLe (scope + (if trunc then 4 else 0) + lid % 65536 * 16) 8
          ++ natLe tb.toNat 8
      ∧ (h.drop 24).take 8 = natLe n 8 ∧ (h.drop 64).take 64 = recBytes r)
  ∧ (cell < 9216 → cell ∉ s.failed →
    (s.graphAt cell = none → Gives (.cellFailure cell) s fun t =>
      t.failed = s.failed ++ [cell] ∧ bayOf cell ∈ t.hf.badBays ∧ t.parts = s.parts ∧ t.mem = s.mem)
    ∧ (s.graphAt cell = some (p, g) → s.graph p lid = some g → apart → g.fenced = false →
      Gives (.cellFailure cell) s fun t => t.failed = s.failed ++ [cell] ∧ bayOf cell ∈ t.hf.badBays ∧ fenced t
        ∧ (g.freeze = some r → g.frozen = false → q.fq.queue.length < 1024 → r ∈ (t.part p).fq.queue)))

/-- R339, R343: a fence of a partition freezes and fences each of its graphs, tells the host with vector 1 and dumps
it; a reset of its function fences and unloads it; a reset of PF 0 fences every one. PF 0 loads a partition that may
be loaded and unloads it. The model's choices: the numbers of the answers (log 37), resets and unloads that a
halt-swap holds up (log 61), and what becomes of the caches at an unload (log 103). R328, R332, R333, R334, R335: a
halt-swap. The command is taken while none runs; once the accesses issued are performed the partition's context goes
to the caisson and its bays are empty; the restore puts the other partition's cells, tables and leased entries back,
unless one of its cells has failed or its context fails its check. The model's choices: the answers (log 37), and that
a discard of the saved context removes its partition (log 61). -/
def Obligations.PartitionsAndSwap : Prop :=
  (∀ (s : State) (p : Nat) (cfg : PartCfg),
  let q := s.part p
  let emptied := fun (t : State) (bs : List Nat) => (∀ b ∈ bs, t.bay b = {})
    ∧ (∀ c, bayOf c ∈ bs → (t.cell c).dc = [] ∧ (t.cell c).tlb = []) ∧ ∀ n, n ≠ p → t.part n = s.part n
  (q.loaded = true → q.fenced = false → Gives (.partitionFence p) s fun t =>
    (t.part p).fenced = true ∧ (t.part p).yields = [] ∧ (∀ g ∈ (t.part p).graphs, g.frozen = true ∧ g.fenced = true)
    ∧ (t.part p).graphs.map (·.lid) = q.graphs.map (·.lid) ∧ 1 ∈ (t.part p).msix ∧ t.dumps.length = s.dumps.length + 1)
  ∧ (q.fenced = true → Gives (.partitionFence p) s fun t => t = s)
  ∧ (s.swapping p = false → (∀ w, s.hf.swap = some w → w.q ≠ some p) → q.loaded = true →
      Gives (.functionLevelReset p) s fun t => t.part p = {})
  ∧ (s.swapping p = true ∨ (∃ w, s.hf.swap = some w ∧ w.q = some p) → Gives (.functionLevelReset p) s fun t => t = s)
  ∧ (Gives .pf0Reset s fun t => ∀ n, (s.part n).loaded = true → (t.part n).fenced = true)
  ∧ (s.loadOk p cfg = true → s.focus.fn = 0 → Gives (.partitionLoad p cfg) s fun t =>
      (t.part p).loaded = true ∧ (t.part p).fenced = false ∧ (t.part p).cfg = cfg ∧ (t.part p).images = []
      ∧ (t.part p).bypassMax = 4 ∧ (t.part p).nextLid = 1
      ∧ (t.part p).wdlim = (if cfg.wdlim = 0 then 10000000 else cfg.wdlim) ∧ t.cells = s.cells ∧ t.bays = s.bays ∧ t.mem = s.mem
      ∧ (∀ n, n ≠ p → t.part n = s.part n) ∧ t.hf.mail.length = s.hf.mail.length + 1)
  ∧ (s.loadOk p cfg = false → s.focus.fn = 0 → Gives (.partitionLoad p cfg) s fun t => t = s.answerPf 1 2)
  ∧ (s.focus.fn ≠ 0 → (Gives (.partitionLoad p cfg) s fun t => t = s.answer 1 1)
      ∧ Gives (.partitionUnload p) s fun t => t = s.answer 2 1)
  ∧ (s.swapping p = false → q.loaded = true → q.swapped = false → (∀ w, s.hf.swap = some w → w.q ≠ some p) → s.focus.fn = 0 →
      Gives (.partitionUnload p) s fun t => t.part p = {} ∧ emptied t q.cfg.bays))
  ∧ (∀ (s : State) (p n c : Nat) (q : Option Nat) (w : Swap) (k : Caisson),
  let P := s.part p
  let mine := fun c => bayOf c ∈ P.cfg.bays
  let alone := s.hf.swaps = []
  (s.focus.fn = 0 → s.hf.swap = none → s.hf.dumpOf = none → alone →
    (s.swapOk p q = true → Gives (.haltSwapCommand p q) s fun t =>
      t.hf.swap = some { p := p, q := q } ∧ t.swapping p = true ∧ { t with hf := s.hf } = s)
    ∧ (s.swapOk p q = false → Gives (.haltSwapCommand p q) s fun t => t = s.answerPf 3 2))
  ∧ (s.focus.fn = 0 → (s.hf.swap ≠ none ∨ s.hf.dumpOf ≠ none) → Gives (.haltSwapCommand p q) s fun t =>
      t.hf.swaps = s.hf.swaps ++ [(p, q)] ∧ t.hf.swap = s.hf.swap ∧ { t with hf := s.hf } = s)
  ∧ (s.focus.fn ≠ 0 → (Gives (.haltSwapCommand p q) s fun t => t = s.answer 3 1)
      ∧ Gives (.caissonDiscard p) s fun t => t = s.answer 12 1)
  ∧ (s.hf.swap = some { p := p, q := q } → s.swapDrained P = true → (s.cells.map (·.1)).Nodup →
      Gives .haltSwapDrainComplete s fun t =>
        t.hf.swap = some { p := p, q := q, drained := true } ∧ (t.part p).swapped = true ∧ (t.part p).graphs = []
        ∧ (t.part p).fenced = P.fenced ∧ (mine c → t.cell c = {}) ∧ (¬ mine c → t.cell c = s.cell c) ∧ t.mem = s.mem
        ∧ ∃ k, SMap.get none t.caisson p = some k ∧ k.part = P ∧ k.failed = s.failed
          ∧ (∀ e ∈ s.cells, mine e.1 → (e.1, cellSaved e.2) ∈ k.cells)
          ∧ ∀ e ∈ s.bays, e.1 ∈ P.cfg.bays → (e.1, baySaved e.2) ∈ k.bays)
  ∧ (s.hf.swap = some w → w.drained = false → (s.swapDrained (s.part w.p) = false) →
      Gives .haltSwapDrainComplete s fun t => t = s)
  ∧ (s.hf.swap = some w → w.drained = true → w.q = none → alone → ∀ ok, Gives (.haltSwapRestore ok) s fun t =>
      t.hf.swap = none ∧ 2 ∈ (t.part w.p).msix ∧ t.cells = s.cells ∧ t.caisson = s.caisson)
  ∧ (s.hf.swap = some w → w.drained = true → w.q = some n → SMap.get none s.caisson n = some k → w.p ≠ n → alone →
      let spare := ∀ c ∈ s.failed, bayOf c ∈ k.part.cfg.bays → c ∈ k.failed
      (spare → (s.part n).fenced = true → Gives (.haltSwapRestore true) s fun t =>
        (t.part n).fenced = true ∧ ∀ g ∈ (t.part n).graphs, g.frozen = true ∧ g.fenced = true)
      ∧ (spare → (s.part n).fenced = false → (k.cells.map (·.1)).Nodup → Gives (.haltSwapRestore true) s fun t =>
        t.hf.swap = none ∧ 2 ∈ (t.part w.p).msix ∧ 2 ∈ (t.part n).msix ∧ SMap.get none t.caisson n = none ∧ (t.part n).swapped = false
        ∧ (t.part n).graphs = k.part.graphs ∧ (t.part n).lqs = k.part.lqs ∧ ∀ e ∈ k.cells, t.cell e.1 = e.2)
      ∧ (spare → (s.part n).loaded = true → k.part.loaded = true → (s.part n).fenced = false →
        Gives (.haltSwapRestore false) s fun t => t.hf.swap = none ∧ (t.part n).fenced = true)
      ∧ (¬ spare → ∀ ok, Gives (.haltSwapRestore ok) s fun t =>
        t.hf.swap = none ∧ SMap.get none t.caisson n = some k ∧ t.cells = s.cells
        ∧ 2 ∈ (t.part n).msix ∧ { t.part n with msix := (s.part n).msix } = s.part n))
  ∧ (∀ p2 q2, s.hf.swap = some w → w.drained = true → w.q = none → s.hf.swaps = [(p2, q2)] →
      ({ (s.raiseVec w.p 2) with hf := { s.hf with swap := none, mail := s.hf.mail ++ [3 * 256] } }).swapOk p2 q2 = true →
      Gives (.haltSwapRestore true) s fun t => t.hf.swap = some { p := p2, q := q2 } ∧ t.hf.swaps = [])
  ∧ (s.hf.swap = none → s.hf.booted = true → s.focus.fn = 0 → Gives (.caissonDiscard p) s fun t =>
      SMap.get none t.caisson p = none ∧ ((s.part p).swapped = true → t.part p = {})
      ∧ ((s.part p).swapped = false → t.parts = s.parts)))

/-- R3, R210, R282, R309, R311, R322, R343, R344, R346, R359: registers that system software and the host write, the
two fault stores, the image list and the lists of exported frames. A write of 0 to BYPASS_MAX or WDLIM and one to
STATUS are ignored, and before start-up every write is. A function that may not give a command is answered with PERM.
The model's choices: the answer's word and which writes are mailbox commands (log 37), what an expert's entry holds
after a write that R309 does not allow (log 18), the lists of frames and packages that PF 0 writes (log 15), the low
bits of EGBASE (log 64) and the list of ring records (log 40). A path that comes back lets the completion words that
wait for it go out (R355). R343, R345, R346, R348, R349, R352, R360: the aperture, an adit's egress base, the
lode-copy service (that one frame that cannot be copied refuses the whole service is the model's choice, log 101), and
attestation. R351, R353, R354, R355, R356, R357, R361: the link ports, start-up, recovery, and the clock. What becomes
of a failing flit that is not the one expected, how failures are counted up to the sixteenth, and the report's word,
are the model's choice (logs 102, 63, 37). A port that comes up lets the completion words go out that wait for a path
(R355). -/
def Obligations.HostInterface : Prop :=
  (∀ (s : State) (p k x w off len : Nat) (v : BitVec 64) (b : BitVec 4) (img : Image)
    (id : BitVec 64),
  let q := s.part p
  let pf := s.focus.fn = 0
  let own := pf ∨ s.focus.fn = p + 1
  let e := s.ert p x
  let idle := e.state = 0 ∧ (e.wait = 0 ∨ e.fail = true)
  let done := fun (r : HostReg) (Q : State → Prop) => Gives (.registerWrite p r v) s fun t => ∃ u : State, Q u ∧ t = u.answer 13 0
  let ert := fun w (e' : Ert) => Gives (.registerWrite p (.ertWord x w) v) s fun t => t.ert p x = e' ∧ (t.part p).xp = q.xp
  let wr := fun r (f : Part → Part) => done r (· = s.modPart p f)
  let bar := fun r (f : Part → Part) => Gives (.registerWrite p r v) s fun t => t = s.modPart p f
  let cnt := fun r n => done r fun t =>
    { t with cnt := s.cnt } = s ∧ ∀ m, SMap.get 0 t.cnt m = if m = n then v.setWidth 32 else SMap.get 0 s.cnt m
  let im := imageOf (s.apertureGet (s.aperture p off len)) img
  let named := (∃ e ∈ (s.tablesOf p).lqs.flatMap (·.2), lrImage e.lrec = id)
    ∨ ∃ g ∈ (s.tablesOf p).graphs, g.imageId = id
  let told := fun status => if pf then (s.answer 4 status).raiseVec p 3 else s.answer 4 status
  let lists := fun {α : Type} (l m : List α) (a : α) (on : Bool) => (a ∈ m ↔ on = true) ∧ ∀ e, e ≠ a → (e ∈ m ↔ e ∈ l)
  (s.hf.booted = false → ∀ r, Gives (.registerWrite p r v) s fun t => t = s)
  ∧ (s.hf.booted = true →
  (pf → k < 8 → cnt (.hbmCe k) (0x028 * 256 + k) ∧ cnt (.hbmPb k) (0x029 * 256 + k))
  ∧ (pf → k < 18 → cnt (.linkRt k) (0x02A * 256 + k))
  ∧ (¬ pf → (Gives (.registerWrite p (.hbmCe k) v) s fun t => t = s.answer 13 1)
      ∧ (Gives (.registerWrite p .wdlim v) s fun t => t = s.answer 13 1)
      ∧ Gives (.bypassMaxWrite p b) s fun t => t = s.answer 14 1)
  ∧ (¬ own → (Gives (.registerWrite p .fmode v) s fun t => t = s.answer 13 1)
      ∧ (Gives (.registerWrite p (.ertWord x w) v) s fun t => t = s.answer 13 1)
      ∧ (Gives (.imageAdd p off len img) s fun t => t = s.answer 4 1)
      ∧ Gives (.imageRemove p id) s fun t => t = s.answer 5 1)
  ∧ (∀ on, pf ∨ (own ∧ q.ownsFrame k = true) → done (.exportFrame k x on) fun t =>
      lists s.mem.exported t.mem.exported (k, x) on)
  ∧ (∀ on, ¬ pf → own → q.ownsFrame k = false → Gives (.registerWrite p (.exportFrame k x on) v) s fun t => t = s.answer 13 1)
  ∧ (∀ on, pf → (done (.remoteExport k x on) fun t => ∃ u : State, t = u.payOwed ∧ lists s.mem.remExp u.mem.remExp (x, k) on
        ∧ { u with mem := { u.mem with remExp := s.mem.remExp } } = s)
      ∧ done (.planeMember k on) fun t => ∃ u : State, t = u.payOwed ∧ lists s.mem.domain u.mem.domain k on
        ∧ { u with mem := { u.mem with domain := s.mem.domain } } = s)
  ∧ (q.loaded = false → own → Gives (.registerWrite p .fmode v) s fun t => t = s.answer 13 2)
  ∧ (q.loaded = true → pf →
    (b ≠ 0 → Gives (.bypassMaxWrite p b) s fun t => t = s.modPart p fun q => { q with bypassMax := b })
    ∧ (b = 0 → Gives (.bypassMaxWrite p b) s fun t => t = s)
    ∧ wr .qdef (fun q => { q with qdef := v.setWidth 32 })
    ∧ (v.setWidth 32 ≠ 0#32 → wr .wdlim fun q => { q with wdlim := v.setWidth 32 })
    ∧ (v.setWidth 32 = 0#32 → wr .wdlim fun q => q))
  ∧ (q.loaded = true → own →
    wr .fmode (fun q => { q with fq := { q.fq with ring := v.getLsbD 0 } })
    ∧ bar (.aditStatus k) (fun q => q)
    ∧ (k < 64 → bar (.egLen k) fun q => { q with adits := SMap.set q.adits k { q.adit k with eglen := v } })
    ∧ (k < 64 → bar (.bar0 (0x1000 * k + 0x808)) fun q =>
        { q with adits := SMap.set q.adits k { q.adit k with egbase := v &&& ~~~127, egcount := 0 } })
    ∧ (k < 64 → bar (.bar0 (0x1000 * k + 0x800)) fun q => q)
    ∧ (k < 64 → (s.barRead p (bar0Place (0x1000 * k + 0x800))).toNat = (512 - (q.adit k).queue.length)
        + 2 ^ 16 * (q.adit k).broken.toNat + 2 ^ 17 * q.fenced.toNat + 2 ^ 18 * q.swapped.toNat)
    ∧ (k < 2048 → bar (.bar2 (0x10000 + 16 * k)) fun q =>
        { q with msixTab := SMap.set q.msixTab k ((SMap.get 0 q.msixTab k).extractLsb' 64 64 ++ v) })
    ∧ (x < q.cfg.ertN → idle → e.fail = false →
      ert 0 { e with v := v.getLsbD 3 } ∧ ert 1 { e with size := v.extractLsb' 48 16 } ∧ ert 2 { e with lode := v } ∧ ert 3 e)
    ∧ (x < q.cfg.ertN → idle → e.fail = true → Gives (.registerWrite p (.ertWord x 2) v) s fun t =>
        t.ert p x = { e with lode := v, state := 1, fail := false, req := false }
        ∧ (q.swapped = false → (t.part p).xp.reqs = q.xp.reqs ++ [x] ∧ (t.part p).xp.at x = {})
        ∧ (q.swapped = true → (t.part p).xp = q.xp ∧ ∀ kept, SMap.get none s.caisson p = some kept →
          ∃ xp, SMap.get none t.caisson p = some { kept with part := { kept.part with xp := xp } }
            ∧ xp.reqs = kept.part.xp.reqs ++ [x] ∧ xp.at x = {}))
    ∧ (x < q.cfg.ertN → ¬ idle → Gives (.registerWrite p (.ertWord x w) v) s fun t =>
        (t.ert p x).state = e.state ∧ (t.ert p x).pin = e.pin ∧ (t.ert p x).lease = e.lease ∧ (t.ert p x).wait = e.wait
        ∧ (t.ert p x).slot = e.slot ∧ (t.ert p x).frame = e.frame ∧ (t.ert p x).last = e.last)
    ∧ (q.addStatus off len im = 0 → Gives (.imageAdd p off len img) s fun t =>
        (t.part p).images = q.images ++ [{ img := im }] ∧ t.mem = s.mem ∧ 3 ∈ (t.part p).msix)
    ∧ (q.addStatus off len im ≠ 0 → Gives (.imageAdd p off len img) s fun t => t = told 2)
    ∧ ((∃ e ∈ q.images, e.img.id = id) → ¬ named → Gives (.imageRemove p id) s fun t =>
        (t.part p).images = q.images.filter fun e => e.img.id != id)
    ∧ (named → Gives (.imageRemove p id) s fun t => t = s.answer 5 2)))
  ∧ (¬ own → (Gives (.faultRecordRead p) s fun t => t = s.answer 19 1)
      ∧ Gives (.faultRingHeadAdvance p k) s fun t => t = s.answer 20 1)
  ∧ (∀ r rs, own → q.fq.queue = r :: rs → Gives (.faultRecordRead p) s fun t => (∃ u : State, t = u.answer 19 0) ∧
      (t.part p).fq.queue = rs ++ q.fq.waiting.take 1 ∧ (t.part p).fq.waiting = q.fq.waiting.drop 1)
  ∧ (own → q.fq.ringWait = [] → k ≤ (q.fq.tail - q.fq.head).toNat → Gives (.faultRingHeadAdvance p k) s fun t =>
      (∃ u : State, t = u.answer 20 0) ∧ (t.part p).fq.head = q.fq.head + BitVec.ofNat 32 k ∧ (t.part p).fq.tail = q.fq.tail
      ∧ (t.part p).fq.ringOut = q.fq.ringOut.drop k))
  ∧ (∀ (s : State) (p off n : Nat) (data : List Byte) (base : BitVec 64)
    (lode frame cmd st : Nat) (nonce : BitVec 256),
  let q := s.part p
  let own := s.focus.fn = 0 ∨ s.focus.fn = p + 1
  let f := q.apFrame + off / 65536
  let pa := f * 65536 + off % 65536
  let one := off < 2 ^ 34 ∧ off % 65536 + n ≤ 65536 ∧ 1 ≤ n
  let a := q.adit off
  let owned := ∀ k, k < n → q.ownsFrame (frame + k) = true
  let good := fun dir => ∀ k, k < n → lode + k * 65536 < 2 ^ 64
    ∧ (if dir then s.lodeReads (BitVec.ofNat 64 (lode + k * 65536)) else s.lodeOk (BitVec.ofNat 64 (lode + k * 65536))) = true
  q.loaded = true →
  (one → q.ownsFrame f = true → data.length = n → Gives (.apertureWrite p off data) s fun t => t = s.hostStore pa data
      ∧ (∀ i, i < n → memRead t.mem.hbm (pa + i) = data.getD i 0)
      ∧ ∀ d ln, d < 4 → ln ∈ linesOf pa n → smHas (t.dieCache d) ln = false)
  ∧ (one → q.ownsFrame f = false → data.length = n → Gives (.apertureWrite p off data) s fun t => t = s)
  ∧ (one → q.ownsFrame f = true → poisonAt s.mem.poison pa n = none → Gives (.apertureRead p off n) s fun t =>
      t.hf.reads = s.hf.reads ++ [memBytes s.mem.hbm pa n] ∧ { t with hf := s.hf } = s)
  ∧ (one → q.ownsFrame f = false → Gives (.apertureRead p off n) s fun t =>
      t.hf.reads = s.hf.reads ++ [List.replicate n 0xFF] ∧ { t with hf := s.hf } = s)
  ∧ (off < 64 → base.toNat % 128 = 0 → Gives (.aditEgbaseWrite p off base) s fun t =>
      (t.part p).adit off = { a with egbase := base, egcount := 0 } ∧ t.mem = s.mem)
  ∧ (own →
    (owned → (good true → Gives (.lodeCopyService p lode frame n true) s fun t =>
        t = (s.lodeIn lode (frame * 65536) (n * 65536)).answer 8 0)
      ∧ (good false → Gives (.lodeCopyService p lode frame n false) s fun t =>
        t = (s.lodeOut lode (frame * 65536) (n * 65536)).answer 8 0))
    ∧ (∀ dir, owned → ¬ good dir → Gives (.lodeCopyService p lode frame n dir) s fun t => t = s.answer 8 2)
    ∧ (¬ owned → ∀ dir, Gives (.lodeCopyService p lode frame n dir) s fun t => t = s.answer 8 1))
  ∧ (¬ own → (∀ dir, Gives (.lodeCopyService p lode frame n dir) s fun t => t = s.answer 8 1)
      ∧ Gives (.attestationRequest (some p) nonce) s fun t => t = s.answer 6 1)
  ∧ (s.focus.fn = 0 → { (s.answer cmd st) with hf := s.hf } = s
      ∧ (s.answer cmd st).hf.mail = s.hf.mail ++ [BitVec.ofNat 64 (cmd * 256 + st)])
  ∧ (s.focus.fn = p + 1 → ((s.answer cmd st).part p).mail = q.mail ++ [BitVec.ofNat 64 (cmd * 256 + st)]
      ∧ ((s.answer cmd st).part p).msix = q.msix ++ [3] ∧ (s.answer cmd st).hf = s.hf)
  ∧ (s.hf.booted = true → ∀ who : Option Nat, ((who = none ∧ s.focus.fn = 0) ∨ (who = some p ∧ own)) →
    Gives (.attestationRequest who nonce) s fun t =>
      ∃ r, t.hf.reports = s.hf.reports ++ [r] ∧ t.mem = s.mem ∧ t.cells = s.cells
        ∧ (p < 2 ^ 16 → r.length = 384 ∧ r.take 32 = natLe nonce.toNat 32
          ∧ (r.drop 0x0A0).take 2 = natLe s.hf.pkg.toNat 2
          ∧ (r.drop 0x0A2).take 2 = natLe (who.getD 0xFFFF) 2 ∧ (r.drop 0x0E8).take 8 = natLe s.tbase.toNat 8)))
  ∧ (∀ (s : State) (port watts point : Nat) (fl : Flit) (id : BitVec 10)
    (facts : BootFacts),
  let l := s.link port
  let h := s.hf
  let started := fun (t : State) (status : Nat) => t.hf.boot = status ∧ t.hf.bootUnits = facts.failedStacks
    ∧ t.hf.lodeUp = facts.lodeUp ∧ t.hf.lodeRanges = facts.lodeRanges ∧ t.hf.booted = true
    ∧ t.tbase = 0 ∧ t.caisson = [] ∧ t.masks = facts.masks ∧ t.hf.pkgSet = false
  (port < 18 → l.up = true →
    (flitCrc fl = fl.lcrc → fl.seq = l.expect → Gives (.linkFlitReceive port fl) s fun t =>
      (t.link port).expect = l.expect + 1 ∧ (t.link port).fails = 0 ∧ (t.link port).up = true
      ∧ (t.link port).body = (if 5 ≤ fl.type.toNat then l.body else l.body ++ [fl])
      ∧ SMap.get 0 t.cnt (0x02A * 256 + port) = SMap.get 0 s.cnt (0x02A * 256 + port) + (if fl.seq ∈ l.again then 1 else 0))
    ∧ (flitCrc fl ≠ fl.lcrc → fl.seq = l.expect → Gives (.linkFlitReceive port fl) s fun t =>
      (t.link port).expect = l.expect ∧ (t.link port).body = l.body ∧ l.expect ∈ (t.link port).again
      ∧ (l.expect ∈ l.again → (t.link port).fails = l.fails + 1)
      ∧ (l.expect ∈ l.again → 15 ≤ l.fails → (t.link port).up = false))
    ∧ (fl.seq ≠ l.expect → Gives (.linkFlitReceive port fl) s fun t =>
      (t.link port).expect = l.expect ∧ (t.link port).body = l.body ∧ (t.link port).up = true ∧ t.cnt = s.cnt
      ∧ (t.link port).fails = l.fails ∧ (l.again ≠ [] → fl.seq ∈ (t.link port).again)
      ∧ (l.again = [] → flitCrc fl ≠ fl.lcrc → (t.link port).again = [l.expect])))
  ∧ (port < 18 → l.up = false → Gives (.linkFlitReceive port fl) s fun t => t = s)
  ∧ (port < 18 → h.trained = true → l.up = false → h.pkg.toNat ∉ s.mem.domain → Gives (.linkRetrain port) s fun z =>
      ∃ t : State, z = t.payOwed ∧ (t.link port).up = true ∧ (t.link port).fails = 0 ∧ ∀ n, n ≠ port → t.link n = s.link n)
  ∧ ((h.owed = [] → s.payOwed = s)
    ∧ ∀ o, h.owed = [o] → s.payOwed = ({ s with hf := { h with owed := [] } } : State).complete o.part o.lrec o.lid o.status o.info o.only)
  ∧ (h.booted = true → h.pkgSet = false → s.focus.fn = 0 → Gives (.packageIdWrite id) s fun z =>
      ∃ t : State, z = t.payOwed ∧ t.hf.pkg = id ∧ t.hf.pkgSet = true
      ∧ (∀ n, n < 18 → (t.link n).up = (h.linkFit.getLsbD n && !s.mem.domain.contains id.toNat))
      ∧ ∀ k ∈ s.mem.domain, t.reaches k = false → BitVec.ofNat 64 (0x10000 + k) ∈ t.hf.mail)
  ∧ (s.focus.fn ≠ 0 → (Gives (.packageIdWrite id) s fun t => t = s.answer 15 1)
      ∧ (Gives (.powerLimitSet watts) s fun t => t = s.answer 7 1)
      ∧ ∀ good, Gives (.firmwareUpdateCommand good) s fun t => t = s.answer 9 1)
  ∧ (h.pkgSet = true → s.focus.fn = 0 → Gives (.packageIdWrite id) s fun t => t = s)
  ∧ (h.booted = false → h.boot = 0 →
    (facts.fwOk = false → Gives (.startup facts) s fun t => t.hf.boot = 2 ∧ t.hf.booted = false)
    ∧ (facts.fwOk = true → facts.fuseOk = false → Gives (.startup facts) s fun t => t.hf.boot = 3 ∧ t.hf.booted = false)
    ∧ (facts.fwOk = true → facts.fuseOk = true → facts.failedStacks = [] →
      Gives (.startup facts) s fun t => started t 1 ∧ t.hf.badBays = [])
    ∧ (facts.fwOk = true → facts.fuseOk = true → facts.failedStacks ≠ [] → Gives (.startup facts) s fun t =>
      started t 4 ∧ ∀ b, b < 144 → (b ∈ t.hf.badBays ↔ ∃ k ∈ facts.failedStacks, dieOfBay b = k / 2)))
  ∧ (h.booted = false → (h.boot = 2 ∨ h.boot = 3) → s.focus.fn = 0 → Gives (.firmwareUpdateCommand true) s fun t =>
      t.hf.boot = 0 ∧ t.hf.mail.length = h.mail.length + 1)
  ∧ (h.booted = true → s.focus.fn = 0 → ∀ good, Gives (.firmwareUpdateCommand good) s fun t => t = s.answerPf 9 2)
  ∧ (h.booted = true → watts ≤ 2600 → s.focus.fn = 0 → Gives (.powerLimitSet watts) s fun t => t.hf.watts = watts ∧ t.mem = s.mem)
  ∧ (2600 < watts → Gives (.powerLimitSet watts) s fun t => t.hf.watts = h.watts ∧ t.mem = s.mem)
  ∧ (h.booted = true → h.toPoint = none → point < 3 →
    let changes := fun cause => Gives (.dvfsTrigger point cause) s fun t =>
      t.hf.toPoint = some point ∧ t.hf.point = h.point ∧ t.hf.cause = some cause ∧ ∀ c, t.cellLive c = false
    let stays := fun cause => Gives (.dvfsTrigger point cause) s fun t => t = s
    (h.point < point → (∀ d, changes (.heat d)) ∧ (∀ w, h.watts < w → changes (.power w)) ∧ ∀ w, stays (.fall w))
    ∧ (point < h.point → (∀ w ≤ h.watts, changes (.fall w)) ∧ (∀ d, stays (.heat d)) ∧ ∀ w, stays (.power w))
    ∧ (∀ w ≤ h.watts, stays (.power w)) ∧ (∀ w, h.watts < w → stays (.fall w)))
  ∧ (h.toPoint = some point → Gives .dvfsChangeComplete s fun t =>
      t.hf.point = point ∧ t.hf.toPoint = none ∧ { t with hf := s.hf } = s))
end

