-- ==== Sys2Proof/Laws/State.lean ====
section
/-! SUPPORT. What each update of the state leaves alone, field by field, so that no later proof unfolds a record update;
and the laws of sparse maps, registers and predicates. -/

namespace Sys2Proof

/-- Reading the number that was written gives the value written. -/
@[simp] theorem SMap.get_set_eq {α : Type} (d : α) (m : SMap α) (i : Nat) (x : α) : SMap.get d (SMap.set m i x) i = x := by
  induction m with
  | nil => simp [SMap.set, SMap.get]
  | cons e m ih =>
    obtain ⟨k, v⟩ := e
    simp only [SMap.set]
    split
    · simp [SMap.get]
    · split
      · simp [SMap.get]
      · simp [SMap.get, *]

/-- A write leaves every other number alone. -/
theorem SMap.get_set_ne {α : Type} (d : α) (m : SMap α) {i j : Nat} (x : α) (h : i ≠ j) :
    SMap.get d (SMap.set m i x) j = SMap.get d m j := by
  induction m with
  | nil => simp [SMap.set, SMap.get, h]
  | cons e m ih =>
    obtain ⟨k, v⟩ := e
    simp only [SMap.set]
    split
    · rename_i hk; subst hk; simp [SMap.get, h]
    · split
      · simp [SMap.get, h]
      · simp [SMap.get, ih]

/-- The value at a number after a write. -/
theorem SMap.get_set {α : Type} (d : α) (m : SMap α) (i j : Nat) (x : α) :
    SMap.get d (SMap.set m i x) j = if i = j then x else SMap.get d m j := by
  split
  · rename_i h; subst h; simp
  · rename_i h; exact SMap.get_set_ne d m x h

namespace Machine

@[simp] theorem State.setCell_tbase (s : State) (c : Nat) (x : Cell) : (s.setCell c x).tbase = s.tbase := rfl
@[simp] theorem State.setCell_hf (s : State) (c : Nat) (x : Cell) : (s.setCell c x).hf = s.hf := rfl
@[simp] theorem State.setCell_mem (s : State) (c : Nat) (x : Cell) : (s.setCell c x).mem = s.mem := rfl
@[simp] theorem State.setCell_masks (s : State) (c : Nat) (x : Cell) : (s.setCell c x).masks = s.masks := rfl
@[simp] theorem State.setCell_failed (s : State) (c : Nat) (x : Cell) : (s.setCell c x).failed = s.failed := rfl
@[simp] theorem State.setCell_parts (s : State) (c : Nat) (x : Cell) : (s.setCell c x).parts = s.parts := rfl
@[simp] theorem State.setCell_bays (s : State) (c : Nat) (x : Cell) : (s.setCell c x).bays = s.bays := rfl
@[simp] theorem State.setCell_caisson (s : State) (c : Nat) (x : Cell) : (s.setCell c x).caisson = s.caisson := rfl
@[simp] theorem State.setCell_dumps (s : State) (c : Nat) (x : Cell) : (s.setCell c x).dumps = s.dumps := rfl
@[simp] theorem State.setCell_cnt (s : State) (c : Nat) (x : Cell) : (s.setCell c x).cnt = s.cnt := rfl
@[simp] theorem State.setCell_agenda (s : State) (c : Nat) (x : Cell) : (s.setCell c x).agenda = s.agenda := rfl
@[simp] theorem State.setCell_focus (s : State) (c : Nat) (x : Cell) : (s.setCell c x).focus = s.focus := rfl
@[simp] theorem State.setCell_freeCtr (s : State) (c : Nat) (x : Cell) : (s.setCell c x).freeCtr = s.freeCtr := rfl
@[simp] theorem State.setCell_tick (s : State) (c : Nat) (x : Cell) : (s.setCell c x).tick = s.tick := rfl

@[simp] theorem State.modCell_tbase (s : State) (c : Nat) (f : Cell → Cell) : (s.modCell c f).tbase = s.tbase := rfl
@[simp] theorem State.modCell_hf (s : State) (c : Nat) (f : Cell → Cell) : (s.modCell c f).hf = s.hf := rfl
@[simp] theorem State.modCell_mem (s : State) (c : Nat) (f : Cell → Cell) : (s.modCell c f).mem = s.mem := rfl
@[simp] theorem State.modCell_masks (s : State) (c : Nat) (f : Cell → Cell) : (s.modCell c f).masks = s.masks := rfl
@[simp] theorem State.modCell_failed (s : State) (c : Nat) (f : Cell → Cell) : (s.modCell c f).failed = s.failed := rfl
@[simp] theorem State.modCell_parts (s : State) (c : Nat) (f : Cell → Cell) : (s.modCell c f).parts = s.parts := rfl
@[simp] theorem State.modCell_bays (s : State) (c : Nat) (f : Cell → Cell) : (s.modCell c f).bays = s.bays := rfl
@[simp] theorem State.modCell_caisson (s : State) (c : Nat) (f : Cell → Cell) : (s.modCell c f).caisson = s.caisson := rfl
@[simp] theorem State.modCell_dumps (s : State) (c : Nat) (f : Cell → Cell) : (s.modCell c f).dumps = s.dumps := rfl
@[simp] theorem State.modCell_cnt (s : State) (c : Nat) (f : Cell → Cell) : (s.modCell c f).cnt = s.cnt := rfl
@[simp] theorem State.modCell_agenda (s : State) (c : Nat) (f : Cell → Cell) : (s.modCell c f).agenda = s.agenda := rfl
@[simp] theorem State.modCell_focus (s : State) (c : Nat) (f : Cell → Cell) : (s.modCell c f).focus = s.focus := rfl
@[simp] theorem State.modCell_freeCtr (s : State) (c : Nat) (f : Cell → Cell) : (s.modCell c f).freeCtr = s.freeCtr := rfl
@[simp] theorem State.modCell_tick (s : State) (c : Nat) (f : Cell → Cell) : (s.modCell c f).tick = s.tick := rfl

@[simp] theorem State.setSeqAt_tbase (s : State) (c : Nat) (q : Seq) : (s.setSeqAt c q).tbase = s.tbase := rfl
@[simp] theorem State.setSeqAt_hf (s : State) (c : Nat) (q : Seq) : (s.setSeqAt c q).hf = s.hf := rfl
@[simp] theorem State.setSeqAt_mem (s : State) (c : Nat) (q : Seq) : (s.setSeqAt c q).mem = s.mem := rfl
@[simp] theorem State.setSeqAt_masks (s : State) (c : Nat) (q : Seq) : (s.setSeqAt c q).masks = s.masks := rfl
@[simp] theorem State.setSeqAt_failed (s : State) (c : Nat) (q : Seq) : (s.setSeqAt c q).failed = s.failed := rfl
@[simp] theorem State.setSeqAt_parts (s : State) (c : Nat) (q : Seq) : (s.setSeqAt c q).parts = s.parts := rfl
@[simp] theorem State.setSeqAt_bays (s : State) (c : Nat) (q : Seq) : (s.setSeqAt c q).bays = s.bays := rfl
@[simp] theorem State.setSeqAt_caisson (s : State) (c : Nat) (q : Seq) : (s.setSeqAt c q).caisson = s.caisson := rfl
@[simp] theorem State.setSeqAt_dumps (s : State) (c : Nat) (q : Seq) : (s.setSeqAt c q).dumps = s.dumps := rfl
@[simp] theorem State.setSeqAt_cnt (s : State) (c : Nat) (q : Seq) : (s.setSeqAt c q).cnt = s.cnt := rfl
@[simp] theorem State.setSeqAt_agenda (s : State) (c : Nat) (q : Seq) : (s.setSeqAt c q).agenda = s.agenda := rfl
@[simp] theorem State.setSeqAt_focus (s : State) (c : Nat) (q : Seq) : (s.setSeqAt c q).focus = s.focus := rfl
@[simp] theorem State.setSeqAt_freeCtr (s : State) (c : Nat) (q : Seq) : (s.setSeqAt c q).freeCtr = s.freeCtr := rfl
@[simp] theorem State.setSeqAt_tick (s : State) (c : Nat) (q : Seq) : (s.setSeqAt c q).tick = s.tick := rfl

@[simp] theorem State.setSeq_tbase (s : State) (q : Seq) : (s.setSeq q).tbase = s.tbase := rfl
@[simp] theorem State.setSeq_hf (s : State) (q : Seq) : (s.setSeq q).hf = s.hf := rfl
@[simp] theorem State.setSeq_mem (s : State) (q : Seq) : (s.setSeq q).mem = s.mem := rfl
@[simp] theorem State.setSeq_masks (s : State) (q : Seq) : (s.setSeq q).masks = s.masks := rfl
@[simp] theorem State.setSeq_failed (s : State) (q : Seq) : (s.setSeq q).failed = s.failed := rfl
@[simp] theorem State.setSeq_parts (s : State) (q : Seq) : (s.setSeq q).parts = s.parts := rfl
@[simp] theorem State.setSeq_bays (s : State) (q : Seq) : (s.setSeq q).bays = s.bays := rfl
@[simp] theorem State.setSeq_caisson (s : State) (q : Seq) : (s.setSeq q).caisson = s.caisson := rfl
@[simp] theorem State.setSeq_dumps (s : State) (q : Seq) : (s.setSeq q).dumps = s.dumps := rfl
@[simp] theorem State.setSeq_cnt (s : State) (q : Seq) : (s.setSeq q).cnt = s.cnt := rfl
@[simp] theorem State.setSeq_agenda (s : State) (q : Seq) : (s.setSeq q).agenda = s.agenda := rfl
@[simp] theorem State.setSeq_focus (s : State) (q : Seq) : (s.setSeq q).focus = s.focus := rfl
@[simp] theorem State.setSeq_freeCtr (s : State) (q : Seq) : (s.setSeq q).freeCtr = s.freeCtr := rfl
@[simp] theorem State.setSeq_tick (s : State) (q : Seq) : (s.setSeq q).tick = s.tick := rfl

@[simp] theorem State.modRunSlot_tbase (s : State) (f : Slot → Slot) : (s.modRunSlot f).tbase = s.tbase := rfl
@[simp] theorem State.modRunSlot_hf (s : State) (f : Slot → Slot) : (s.modRunSlot f).hf = s.hf := rfl
@[simp] theorem State.modRunSlot_mem (s : State) (f : Slot → Slot) : (s.modRunSlot f).mem = s.mem := rfl
@[simp] theorem State.modRunSlot_masks (s : State) (f : Slot → Slot) : (s.modRunSlot f).masks = s.masks := rfl
@[simp] theorem State.modRunSlot_failed (s : State) (f : Slot → Slot) : (s.modRunSlot f).failed = s.failed := rfl
@[simp] theorem State.modRunSlot_parts (s : State) (f : Slot → Slot) : (s.modRunSlot f).parts = s.parts := rfl
@[simp] theorem State.modRunSlot_bays (s : State) (f : Slot → Slot) : (s.modRunSlot f).bays = s.bays := rfl
@[simp] theorem State.modRunSlot_caisson (s : State) (f : Slot → Slot) : (s.modRunSlot f).caisson = s.caisson := rfl
@[simp] theorem State.modRunSlot_dumps (s : State) (f : Slot → Slot) : (s.modRunSlot f).dumps = s.dumps := rfl
@[simp] theorem State.modRunSlot_cnt (s : State) (f : Slot → Slot) : (s.modRunSlot f).cnt = s.cnt := rfl
@[simp] theorem State.modRunSlot_agenda (s : State) (f : Slot → Slot) : (s.modRunSlot f).agenda = s.agenda := rfl
@[simp] theorem State.modRunSlot_focus (s : State) (f : Slot → Slot) : (s.modRunSlot f).focus = s.focus := rfl
@[simp] theorem State.modRunSlot_freeCtr (s : State) (f : Slot → Slot) : (s.modRunSlot f).freeCtr = s.freeCtr := rfl
@[simp] theorem State.modRunSlot_tick (s : State) (f : Slot → Slot) : (s.modRunSlot f).tick = s.tick := rfl

@[simp] theorem State.bump_tbase (s : State) (c k n : Nat) : (s.bump c k n).tbase = s.tbase := rfl
@[simp] theorem State.bump_hf (s : State) (c k n : Nat) : (s.bump c k n).hf = s.hf := rfl
@[simp] theorem State.bump_mem (s : State) (c k n : Nat) : (s.bump c k n).mem = s.mem := rfl
@[simp] theorem State.bump_masks (s : State) (c k n : Nat) : (s.bump c k n).masks = s.masks := rfl
@[simp] theorem State.bump_failed (s : State) (c k n : Nat) : (s.bump c k n).failed = s.failed := rfl
@[simp] theorem State.bump_parts (s : State) (c k n : Nat) : (s.bump c k n).parts = s.parts := rfl
@[simp] theorem State.bump_bays (s : State) (c k n : Nat) : (s.bump c k n).bays = s.bays := rfl
@[simp] theorem State.bump_caisson (s : State) (c k n : Nat) : (s.bump c k n).caisson = s.caisson := rfl
@[simp] theorem State.bump_dumps (s : State) (c k n : Nat) : (s.bump c k n).dumps = s.dumps := rfl
@[simp] theorem State.bump_cnt (s : State) (c k n : Nat) : (s.bump c k n).cnt = s.cnt := rfl
@[simp] theorem State.bump_agenda (s : State) (c k n : Nat) : (s.bump c k n).agenda = s.agenda := rfl
@[simp] theorem State.bump_focus (s : State) (c k n : Nat) : (s.bump c k n).focus = s.focus := rfl
@[simp] theorem State.bump_freeCtr (s : State) (c k n : Nat) : (s.bump c k n).freeCtr = s.freeCtr := rfl
@[simp] theorem State.bump_tick (s : State) (c k n : Nat) : (s.bump c k n).tick = s.tick := rfl

@[simp] theorem State.setPart_tbase (s : State) (p : Nat) (x : Part) : (s.setPart p x).tbase = s.tbase := rfl
@[simp] theorem State.setPart_hf (s : State) (p : Nat) (x : Part) : (s.setPart p x).hf = s.hf := rfl
@[simp] theorem State.setPart_mem (s : State) (p : Nat) (x : Part) : (s.setPart p x).mem = s.mem := rfl
@[simp] theorem State.setPart_masks (s : State) (p : Nat) (x : Part) : (s.setPart p x).masks = s.masks := rfl
@[simp] theorem State.setPart_failed (s : State) (p : Nat) (x : Part) : (s.setPart p x).failed = s.failed := rfl
@[simp] theorem State.setPart_bays (s : State) (p : Nat) (x : Part) : (s.setPart p x).bays = s.bays := rfl
@[simp] theorem State.setPart_cells (s : State) (p : Nat) (x : Part) : (s.setPart p x).cells = s.cells := rfl
@[simp] theorem State.setPart_caisson (s : State) (p : Nat) (x : Part) : (s.setPart p x).caisson = s.caisson := rfl
@[simp] theorem State.setPart_dumps (s : State) (p : Nat) (x : Part) : (s.setPart p x).dumps = s.dumps := rfl
@[simp] theorem State.setPart_cnt (s : State) (p : Nat) (x : Part) : (s.setPart p x).cnt = s.cnt := rfl
@[simp] theorem State.setPart_agenda (s : State) (p : Nat) (x : Part) : (s.setPart p x).agenda = s.agenda := rfl
@[simp] theorem State.setPart_focus (s : State) (p : Nat) (x : Part) : (s.setPart p x).focus = s.focus := rfl
@[simp] theorem State.setPart_freeCtr (s : State) (p : Nat) (x : Part) : (s.setPart p x).freeCtr = s.freeCtr := rfl
@[simp] theorem State.setPart_tick (s : State) (p : Nat) (x : Part) : (s.setPart p x).tick = s.tick := rfl

@[simp] theorem State.modPart_tbase (s : State) (p : Nat) (f : Part → Part) : (s.modPart p f).tbase = s.tbase := rfl
@[simp] theorem State.modPart_hf (s : State) (p : Nat) (f : Part → Part) : (s.modPart p f).hf = s.hf := rfl
@[simp] theorem State.modPart_mem (s : State) (p : Nat) (f : Part → Part) : (s.modPart p f).mem = s.mem := rfl
@[simp] theorem State.modPart_masks (s : State) (p : Nat) (f : Part → Part) : (s.modPart p f).masks = s.masks := rfl
@[simp] theorem State.modPart_failed (s : State) (p : Nat) (f : Part → Part) : (s.modPart p f).failed = s.failed := rfl
@[simp] theorem State.modPart_bays (s : State) (p : Nat) (f : Part → Part) : (s.modPart p f).bays = s.bays := rfl
@[simp] theorem State.modPart_cells (s : State) (p : Nat) (f : Part → Part) : (s.modPart p f).cells = s.cells := rfl
@[simp] theorem State.modPart_caisson (s : State) (p : Nat) (f : Part → Part) : (s.modPart p f).caisson = s.caisson := rfl
@[simp] theorem State.modPart_dumps (s : State) (p : Nat) (f : Part → Part) : (s.modPart p f).dumps = s.dumps := rfl
@[simp] theorem State.modPart_cnt (s : State) (p : Nat) (f : Part → Part) : (s.modPart p f).cnt = s.cnt := rfl
@[simp] theorem State.modPart_agenda (s : State) (p : Nat) (f : Part → Part) : (s.modPart p f).agenda = s.agenda := rfl
@[simp] theorem State.modPart_focus (s : State) (p : Nat) (f : Part → Part) : (s.modPart p f).focus = s.focus := rfl
@[simp] theorem State.modPart_freeCtr (s : State) (p : Nat) (f : Part → Part) : (s.modPart p f).freeCtr = s.freeCtr := rfl
@[simp] theorem State.modPart_tick (s : State) (p : Nat) (f : Part → Part) : (s.modPart p f).tick = s.tick := rfl

@[simp] theorem State.modGraph_tbase (s : State) (p lid : Nat) (f : Graph → Graph) : (s.modGraph p lid f).tbase = s.tbase := rfl
@[simp] theorem State.modGraph_hf (s : State) (p lid : Nat) (f : Graph → Graph) : (s.modGraph p lid f).hf = s.hf := rfl
@[simp] theorem State.modGraph_mem (s : State) (p lid : Nat) (f : Graph → Graph) : (s.modGraph p lid f).mem = s.mem := rfl
@[simp] theorem State.modGraph_masks (s : State) (p lid : Nat) (f : Graph → Graph) : (s.modGraph p lid f).masks = s.masks := rfl
@[simp] theorem State.modGraph_failed (s : State) (p lid : Nat) (f : Graph → Graph) : (s.modGraph p lid f).failed = s.failed := rfl
@[simp] theorem State.modGraph_bays (s : State) (p lid : Nat) (f : Graph → Graph) : (s.modGraph p lid f).bays = s.bays := rfl
@[simp] theorem State.modGraph_cells (s : State) (p lid : Nat) (f : Graph → Graph) : (s.modGraph p lid f).cells = s.cells := rfl
@[simp] theorem State.modGraph_caisson (s : State) (p lid : Nat) (f : Graph → Graph) : (s.modGraph p lid f).caisson = s.caisson := rfl
@[simp] theorem State.modGraph_dumps (s : State) (p lid : Nat) (f : Graph → Graph) : (s.modGraph p lid f).dumps = s.dumps := rfl
@[simp] theorem State.modGraph_cnt (s : State) (p lid : Nat) (f : Graph → Graph) : (s.modGraph p lid f).cnt = s.cnt := rfl
@[simp] theorem State.modGraph_agenda (s : State) (p lid : Nat) (f : Graph → Graph) : (s.modGraph p lid f).agenda = s.agenda := rfl
@[simp] theorem State.modGraph_focus (s : State) (p lid : Nat) (f : Graph → Graph) : (s.modGraph p lid f).focus = s.focus := rfl
@[simp] theorem State.modGraph_freeCtr (s : State) (p lid : Nat) (f : Graph → Graph) : (s.modGraph p lid f).freeCtr = s.freeCtr := rfl
@[simp] theorem State.modGraph_tick (s : State) (p lid : Nat) (f : Graph → Graph) : (s.modGraph p lid f).tick = s.tick := rfl

@[simp] theorem State.bumpPart_tbase (s : State) (p k n : Nat) : (s.bumpPart p k n).tbase = s.tbase := rfl
@[simp] theorem State.bumpPart_hf (s : State) (p k n : Nat) : (s.bumpPart p k n).hf = s.hf := rfl
@[simp] theorem State.bumpPart_mem (s : State) (p k n : Nat) : (s.bumpPart p k n).mem = s.mem := rfl
@[simp] theorem State.bumpPart_masks (s : State) (p k n : Nat) : (s.bumpPart p k n).masks = s.masks := rfl
@[simp] theorem State.bumpPart_failed (s : State) (p k n : Nat) : (s.bumpPart p k n).failed = s.failed := rfl
@[simp] theorem State.bumpPart_bays (s : State) (p k n : Nat) : (s.bumpPart p k n).bays = s.bays := rfl
@[simp] theorem State.bumpPart_cells (s : State) (p k n : Nat) : (s.bumpPart p k n).cells = s.cells := rfl
@[simp] theorem State.bumpPart_caisson (s : State) (p k n : Nat) : (s.bumpPart p k n).caisson = s.caisson := rfl
@[simp] theorem State.bumpPart_dumps (s : State) (p k n : Nat) : (s.bumpPart p k n).dumps = s.dumps := rfl
@[simp] theorem State.bumpPart_cnt (s : State) (p k n : Nat) : (s.bumpPart p k n).cnt = s.cnt := rfl
@[simp] theorem State.bumpPart_agenda (s : State) (p k n : Nat) : (s.bumpPart p k n).agenda = s.agenda := rfl
@[simp] theorem State.bumpPart_focus (s : State) (p k n : Nat) : (s.bumpPart p k n).focus = s.focus := rfl
@[simp] theorem State.bumpPart_freeCtr (s : State) (p k n : Nat) : (s.bumpPart p k n).freeCtr = s.freeCtr := rfl
@[simp] theorem State.bumpPart_tick (s : State) (p k n : Nat) : (s.bumpPart p k n).tick = s.tick := rfl

@[simp] theorem State.freezeGraph_tbase (s : State) (p lid : Nat) (r : FaultRec) : (s.freezeGraph p lid r).tbase = s.tbase := rfl
@[simp] theorem State.freezeGraph_hf (s : State) (p lid : Nat) (r : FaultRec) : (s.freezeGraph p lid r).hf = s.hf := rfl
@[simp] theorem State.freezeGraph_mem (s : State) (p lid : Nat) (r : FaultRec) : (s.freezeGraph p lid r).mem = s.mem := rfl
@[simp] theorem State.freezeGraph_masks (s : State) (p lid : Nat) (r : FaultRec) : (s.freezeGraph p lid r).masks = s.masks := rfl
@[simp] theorem State.freezeGraph_failed (s : State) (p lid : Nat) (r : FaultRec) : (s.freezeGraph p lid r).failed = s.failed := rfl
@[simp] theorem State.freezeGraph_bays (s : State) (p lid : Nat) (r : FaultRec) : (s.freezeGraph p lid r).bays = s.bays := rfl
@[simp] theorem State.freezeGraph_cells (s : State) (p lid : Nat) (r : FaultRec) : (s.freezeGraph p lid r).cells = s.cells := rfl
@[simp] theorem State.freezeGraph_caisson (s : State) (p lid : Nat) (r : FaultRec) : (s.freezeGraph p lid r).caisson = s.caisson := rfl
@[simp] theorem State.freezeGraph_dumps (s : State) (p lid : Nat) (r : FaultRec) : (s.freezeGraph p lid r).dumps = s.dumps := rfl
@[simp] theorem State.freezeGraph_cnt (s : State) (p lid : Nat) (r : FaultRec) : (s.freezeGraph p lid r).cnt = s.cnt := rfl
@[simp] theorem State.freezeGraph_agenda (s : State) (p lid : Nat) (r : FaultRec) : (s.freezeGraph p lid r).agenda = s.agenda := rfl
@[simp] theorem State.freezeGraph_focus (s : State) (p lid : Nat) (r : FaultRec) : (s.freezeGraph p lid r).focus = s.focus := rfl
@[simp] theorem State.freezeGraph_freeCtr (s : State) (p lid : Nat) (r : FaultRec) : (s.freezeGraph p lid r).freeCtr = s.freeCtr := rfl
@[simp] theorem State.freezeGraph_tick (s : State) (p lid : Nat) (r : FaultRec) : (s.freezeGraph p lid r).tick = s.tick := rfl

@[simp] theorem State.modBay_tbase (s : State) (b : Nat) (f : Bay → Bay) : (s.modBay b f).tbase = s.tbase := rfl
@[simp] theorem State.modBay_hf (s : State) (b : Nat) (f : Bay → Bay) : (s.modBay b f).hf = s.hf := rfl
@[simp] theorem State.modBay_mem (s : State) (b : Nat) (f : Bay → Bay) : (s.modBay b f).mem = s.mem := rfl
@[simp] theorem State.modBay_masks (s : State) (b : Nat) (f : Bay → Bay) : (s.modBay b f).masks = s.masks := rfl
@[simp] theorem State.modBay_failed (s : State) (b : Nat) (f : Bay → Bay) : (s.modBay b f).failed = s.failed := rfl
@[simp] theorem State.modBay_parts (s : State) (b : Nat) (f : Bay → Bay) : (s.modBay b f).parts = s.parts := rfl
@[simp] theorem State.modBay_cells (s : State) (b : Nat) (f : Bay → Bay) : (s.modBay b f).cells = s.cells := rfl
@[simp] theorem State.modBay_caisson (s : State) (b : Nat) (f : Bay → Bay) : (s.modBay b f).caisson = s.caisson := rfl
@[simp] theorem State.modBay_dumps (s : State) (b : Nat) (f : Bay → Bay) : (s.modBay b f).dumps = s.dumps := rfl
@[simp] theorem State.modBay_cnt (s : State) (b : Nat) (f : Bay → Bay) : (s.modBay b f).cnt = s.cnt := rfl
@[simp] theorem State.modBay_agenda (s : State) (b : Nat) (f : Bay → Bay) : (s.modBay b f).agenda = s.agenda := rfl
@[simp] theorem State.modBay_focus (s : State) (b : Nat) (f : Bay → Bay) : (s.modBay b f).focus = s.focus := rfl
@[simp] theorem State.modBay_freeCtr (s : State) (b : Nat) (f : Bay → Bay) : (s.modBay b f).freeCtr = s.freeCtr := rfl
@[simp] theorem State.modBay_tick (s : State) (b : Nat) (f : Bay → Bay) : (s.modBay b f).tick = s.tick := rfl

@[simp] theorem State.bumpPkg_tbase (s : State) (k n : Nat) : (s.bumpPkg k n).tbase = s.tbase := rfl
@[simp] theorem State.bumpPkg_hf (s : State) (k n : Nat) : (s.bumpPkg k n).hf = s.hf := rfl
@[simp] theorem State.bumpPkg_mem (s : State) (k n : Nat) : (s.bumpPkg k n).mem = s.mem := rfl
@[simp] theorem State.bumpPkg_masks (s : State) (k n : Nat) : (s.bumpPkg k n).masks = s.masks := rfl
@[simp] theorem State.bumpPkg_failed (s : State) (k n : Nat) : (s.bumpPkg k n).failed = s.failed := rfl
@[simp] theorem State.bumpPkg_parts (s : State) (k n : Nat) : (s.bumpPkg k n).parts = s.parts := rfl
@[simp] theorem State.bumpPkg_bays (s : State) (k n : Nat) : (s.bumpPkg k n).bays = s.bays := rfl
@[simp] theorem State.bumpPkg_cells (s : State) (k n : Nat) : (s.bumpPkg k n).cells = s.cells := rfl
@[simp] theorem State.bumpPkg_caisson (s : State) (k n : Nat) : (s.bumpPkg k n).caisson = s.caisson := rfl
@[simp] theorem State.bumpPkg_dumps (s : State) (k n : Nat) : (s.bumpPkg k n).dumps = s.dumps := rfl
@[simp] theorem State.bumpPkg_agenda (s : State) (k n : Nat) : (s.bumpPkg k n).agenda = s.agenda := rfl
@[simp] theorem State.bumpPkg_focus (s : State) (k n : Nat) : (s.bumpPkg k n).focus = s.focus := rfl
@[simp] theorem State.bumpPkg_freeCtr (s : State) (k n : Nat) : (s.bumpPkg k n).freeCtr = s.freeCtr := rfl
@[simp] theorem State.bumpPkg_tick (s : State) (k n : Nat) : (s.bumpPkg k n).tick = s.tick := rfl

@[simp] theorem Cell.setSlot_seq (x : Cell) (n : Nat) (v : Slot) : (x.setSlot n v).seq = x.seq := rfl
@[simp] theorem Cell.setSlot_code (x : Cell) (n : Nat) (v : Slot) : (x.setSlot n v).code = x.code := rfl
@[simp] theorem Cell.setSlot_priv (x : Cell) (n : Nat) (v : Slot) : (x.setSlot n v).priv = x.priv := rfl
@[simp] theorem Cell.setSlot_dc (x : Cell) (n : Nat) (v : Slot) : (x.setSlot n v).dc = x.dc := rfl
@[simp] theorem Cell.setSlot_tlb (x : Cell) (n : Nat) (v : Slot) : (x.setSlot n v).tlb = x.tlb := rfl
@[simp] theorem Cell.setSlot_elems (x : Cell) (n : Nat) (v : Slot) : (x.setSlot n v).elems = x.elems := rfl
@[simp] theorem Cell.setSlot_router (x : Cell) (n : Nat) (v : Slot) : (x.setSlot n v).router = x.router := rfl
@[simp] theorem Cell.setSlot_blocks (x : Cell) (n : Nat) (v : Slot) : (x.setSlot n v).blocks = x.blocks := rfl
@[simp] theorem Cell.setSlot_m (x : Cell) (n : Nat) (v : Slot) : (x.setSlot n v).m = x.m := rfl
@[simp] theorem Cell.setSlot_s (x : Cell) (n : Nat) (v : Slot) : (x.setSlot n v).s = x.s := rfl
@[simp] theorem Cell.setSlot_mx (x : Cell) (n : Nat) (v : Slot) : (x.setSlot n v).mx = x.mx := rfl
@[simp] theorem Cell.setSlot_cnt (x : Cell) (n : Nat) (v : Slot) : (x.setSlot n v).cnt = x.cnt := rfl
@[simp] theorem Cell.setSlot_stopped (x : Cell) (n : Nat) (v : Slot) : (x.setSlot n v).stopped = x.stopped := rfl
@[simp] theorem Cell.setSlot_ringed (x : Cell) (n : Nat) (v : Slot) : (x.setSlot n v).ringed = x.ringed := rfl
@[simp] theorem Cell.setSlot_leaseHeld (x : Cell) (n : Nat) (v : Slot) : (x.setSlot n v).leaseHeld = x.leaseHeld := rfl
@[simp] theorem Cell.setSlot_now (x : Cell) (n : Nat) (v : Slot) : (x.setSlot n v).now = x.now := rfl
@[simp] theorem Cell.setSlot_gath (x : Cell) (n : Nat) (v : Slot) : (x.setSlot n v).gath = x.gath := rfl

@[simp] theorem Cell.setElem_seq (x : Cell) (n : Nat) (v : Elem) : (x.setElem n v).seq = x.seq := rfl
@[simp] theorem Cell.setElem_slots (x : Cell) (n : Nat) (v : Elem) : (x.setElem n v).slots = x.slots := rfl
@[simp] theorem Cell.setElem_code (x : Cell) (n : Nat) (v : Elem) : (x.setElem n v).code = x.code := rfl
@[simp] theorem Cell.setElem_priv (x : Cell) (n : Nat) (v : Elem) : (x.setElem n v).priv = x.priv := rfl
@[simp] theorem Cell.setElem_dc (x : Cell) (n : Nat) (v : Elem) : (x.setElem n v).dc = x.dc := rfl
@[simp] theorem Cell.setElem_tlb (x : Cell) (n : Nat) (v : Elem) : (x.setElem n v).tlb = x.tlb := rfl
@[simp] theorem Cell.setElem_router (x : Cell) (n : Nat) (v : Elem) : (x.setElem n v).router = x.router := rfl
@[simp] theorem Cell.setElem_blocks (x : Cell) (n : Nat) (v : Elem) : (x.setElem n v).blocks = x.blocks := rfl
@[simp] theorem Cell.setElem_m (x : Cell) (n : Nat) (v : Elem) : (x.setElem n v).m = x.m := rfl
@[simp] theorem Cell.setElem_s (x : Cell) (n : Nat) (v : Elem) : (x.setElem n v).s = x.s := rfl
@[simp] theorem Cell.setElem_mx (x : Cell) (n : Nat) (v : Elem) : (x.setElem n v).mx = x.mx := rfl
@[simp] theorem Cell.setElem_cnt (x : Cell) (n : Nat) (v : Elem) : (x.setElem n v).cnt = x.cnt := rfl
@[simp] theorem Cell.setElem_stopped (x : Cell) (n : Nat) (v : Elem) : (x.setElem n v).stopped = x.stopped := rfl
@[simp] theorem Cell.setElem_ringed (x : Cell) (n : Nat) (v : Elem) : (x.setElem n v).ringed = x.ringed := rfl
@[simp] theorem Cell.setElem_leaseHeld (x : Cell) (n : Nat) (v : Elem) : (x.setElem n v).leaseHeld = x.leaseHeld := rfl
@[simp] theorem Cell.setElem_now (x : Cell) (n : Nat) (v : Elem) : (x.setElem n v).now = x.now := rfl
@[simp] theorem Cell.setElem_gath (x : Cell) (n : Nat) (v : Elem) : (x.setElem n v).gath = x.gath := rfl

@[simp] theorem Cell.setBlock_seq (x : Cell) (n : Nat) (v : Block) : (x.setBlock n v).seq = x.seq := rfl
@[simp] theorem Cell.setBlock_slots (x : Cell) (n : Nat) (v : Block) : (x.setBlock n v).slots = x.slots := rfl
@[simp] theorem Cell.setBlock_code (x : Cell) (n : Nat) (v : Block) : (x.setBlock n v).code = x.code := rfl
@[simp] theorem Cell.setBlock_priv (x : Cell) (n : Nat) (v : Block) : (x.setBlock n v).priv = x.priv := rfl
@[simp] theorem Cell.setBlock_dc (x : Cell) (n : Nat) (v : Block) : (x.setBlock n v).dc = x.dc := rfl
@[simp] theorem Cell.setBlock_tlb (x : Cell) (n : Nat) (v : Block) : (x.setBlock n v).tlb = x.tlb := rfl
@[simp] theorem Cell.setBlock_elems (x : Cell) (n : Nat) (v : Block) : (x.setBlock n v).elems = x.elems := rfl
@[simp] theorem Cell.setBlock_router (x : Cell) (n : Nat) (v : Block) : (x.setBlock n v).router = x.router := rfl
@[simp] theorem Cell.setBlock_m (x : Cell) (n : Nat) (v : Block) : (x.setBlock n v).m = x.m := rfl
@[simp] theorem Cell.setBlock_s (x : Cell) (n : Nat) (v : Block) : (x.setBlock n v).s = x.s := rfl
@[simp] theorem Cell.setBlock_mx (x : Cell) (n : Nat) (v : Block) : (x.setBlock n v).mx = x.mx := rfl
@[simp] theorem Cell.setBlock_cnt (x : Cell) (n : Nat) (v : Block) : (x.setBlock n v).cnt = x.cnt := rfl
@[simp] theorem Cell.setBlock_stopped (x : Cell) (n : Nat) (v : Block) : (x.setBlock n v).stopped = x.stopped := rfl
@[simp] theorem Cell.setBlock_ringed (x : Cell) (n : Nat) (v : Block) : (x.setBlock n v).ringed = x.ringed := rfl
@[simp] theorem Cell.setBlock_leaseHeld (x : Cell) (n : Nat) (v : Block) : (x.setBlock n v).leaseHeld = x.leaseHeld := rfl
@[simp] theorem Cell.setBlock_now (x : Cell) (n : Nat) (v : Block) : (x.setBlock n v).now = x.now := rfl
@[simp] theorem Cell.setBlock_gath (x : Cell) (n : Nat) (v : Block) : (x.setBlock n v).gath = x.gath := rfl

@[simp] theorem Cell.setTile_seq (x : Cell) (n : Nat) (v : Tile) : (x.setTile n v).seq = x.seq := rfl
@[simp] theorem Cell.setTile_slots (x : Cell) (n : Nat) (v : Tile) : (x.setTile n v).slots = x.slots := rfl
@[simp] theorem Cell.setTile_code (x : Cell) (n : Nat) (v : Tile) : (x.setTile n v).code = x.code := rfl
@[simp] theorem Cell.setTile_priv (x : Cell) (n : Nat) (v : Tile) : (x.setTile n v).priv = x.priv := rfl
@[simp] theorem Cell.setTile_dc (x : Cell) (n : Nat) (v : Tile) : (x.setTile n v).dc = x.dc := rfl
@[simp] theorem Cell.setTile_tlb (x : Cell) (n : Nat) (v : Tile) : (x.setTile n v).tlb = x.tlb := rfl
@[simp] theorem Cell.setTile_elems (x : Cell) (n : Nat) (v : Tile) : (x.setTile n v).elems = x.elems := rfl
@[simp] theorem Cell.setTile_router (x : Cell) (n : Nat) (v : Tile) : (x.setTile n v).router = x.router := rfl
@[simp] theorem Cell.setTile_blocks (x : Cell) (n : Nat) (v : Tile) : (x.setTile n v).blocks = x.blocks := rfl
@[simp] theorem Cell.setTile_s (x : Cell) (n : Nat) (v : Tile) : (x.setTile n v).s = x.s := rfl
@[simp] theorem Cell.setTile_mx (x : Cell) (n : Nat) (v : Tile) : (x.setTile n v).mx = x.mx := rfl
@[simp] theorem Cell.setTile_cnt (x : Cell) (n : Nat) (v : Tile) : (x.setTile n v).cnt = x.cnt := rfl
@[simp] theorem Cell.setTile_stopped (x : Cell) (n : Nat) (v : Tile) : (x.setTile n v).stopped = x.stopped := rfl
@[simp] theorem Cell.setTile_ringed (x : Cell) (n : Nat) (v : Tile) : (x.setTile n v).ringed = x.ringed := rfl
@[simp] theorem Cell.setTile_leaseHeld (x : Cell) (n : Nat) (v : Tile) : (x.setTile n v).leaseHeld = x.leaseHeld := rfl
@[simp] theorem Cell.setTile_now (x : Cell) (n : Nat) (v : Tile) : (x.setTile n v).now = x.now := rfl
@[simp] theorem Cell.setTile_gath (x : Cell) (n : Nat) (v : Tile) : (x.setTile n v).gath = x.gath := rfl

@[simp] theorem Cell.slot_setSlot (x : Cell) (n : Nat) (v : Slot) : (x.setSlot n v).slot n = v := by simp [Cell.slot, Cell.setSlot]
@[simp] theorem Cell.elem_setElem (x : Cell) (n : Nat) (v : Elem) : (x.setElem n v).elem n = v := by simp [Cell.elem, Cell.setElem]
@[simp] theorem Cell.block_setBlock (x : Cell) (n : Nat) (v : Block) : (x.setBlock n v).block n = v := by
  simp [Cell.block, Cell.setBlock]
@[simp] theorem Cell.tile_setTile (x : Cell) (n : Nat) (v : Tile) : (x.setTile n v).tile n = v := by simp [Cell.tile, Cell.setTile]

/-! ### Cells, partitions and bays -/

@[simp] theorem State.cell_setCell (s : State) (c : Nat) (x : Cell) : (s.setCell c x).cell c = x := by
  simp [State.cell, State.setCell]
theorem State.cell_setCell_ne (s : State) {c d : Nat} (x : Cell) (h : c ≠ d) : (s.setCell c x).cell d = s.cell d := by
  simp [State.cell, State.setCell, SMap.get_set_ne, h]
@[simp] theorem State.cell_modCell (s : State) (c : Nat) (f : Cell → Cell) : (s.modCell c f).cell c = f (s.cell c) := by
  simp [State.modCell]
theorem State.cell_modCell_ne (s : State) {c d : Nat} (f : Cell → Cell) (h : c ≠ d) : (s.modCell c f).cell d = s.cell d := by
  simp [State.modCell, State.cell_setCell_ne, h]
@[simp] theorem State.seqAt_setSeqAt (s : State) (c : Nat) (q : Seq) : (s.setSeqAt c q).seqAt c = q := by
  simp [State.seqAt, State.setSeqAt]
theorem State.seqAt_setSeqAt_ne (s : State) {c d : Nat} (q : Seq) (h : c ≠ d) : (s.setSeqAt c q).seqAt d = s.seqAt d := by
  simp [State.seqAt, State.setSeqAt, State.cell_modCell_ne, h]
@[simp] theorem State.seq_setSeq (s : State) (q : Seq) : (s.setSeq q).seq = q := by
  simp [State.seq, State.setSeq, State.seqAt, State.setSeqAt]
@[simp] theorem State.cell_setSeq (s : State) (q : Seq) :
    (s.setSeq q).cell s.focus.cell = { s.cell s.focus.cell with seq := q } := by
  simp [State.setSeq, State.setSeqAt]
theorem State.cell_setSeq_ne (s : State) (q : Seq) {c : Nat} (h : s.focus.cell ≠ c) : (s.setSeq q).cell c = s.cell c := by
  simp [State.setSeq, State.setSeqAt, State.cell_modCell_ne, h]
@[simp] theorem State.part_setPart (s : State) (p : Nat) (x : Part) : (s.setPart p x).part p = x := by
  simp [State.part, State.setPart]
theorem State.part_setPart_ne (s : State) {p r : Nat} (x : Part) (h : p ≠ r) : (s.setPart p x).part r = s.part r := by
  simp [State.part, State.setPart, SMap.get_set_ne, h]
@[simp] theorem State.part_modPart (s : State) (p : Nat) (f : Part → Part) : (s.modPart p f).part p = f (s.part p) := by
  simp [State.modPart]
theorem State.part_modPart_ne (s : State) {p r : Nat} (f : Part → Part) (h : p ≠ r) : (s.modPart p f).part r = s.part r := by
  simp [State.modPart, State.part_setPart_ne, h]
@[simp] theorem State.bay_modBay (s : State) (b : Nat) (f : Bay → Bay) : (s.modBay b f).bay b = f (s.bay b) := by
  simp [State.bay, State.modBay]
theorem State.bay_modBay_ne (s : State) {b r : Nat} (f : Bay → Bay) (h : b ≠ r) : (s.modBay b f).bay r = s.bay r := by
  simp [State.bay, State.modBay, SMap.get_set_ne, h]

/-! ### Registers and predicates (R87) -/

@[simp] theorem Seq.getG_zero (q : Seq) : q.getG 0#5 = 0#64 := rfl
@[simp] theorem Seq.setG_zero (q : Seq) (v : Word) : q.setG 0#5 v = q := rfl
@[simp] theorem Seq.getP_zero (q : Seq) : q.getP 0#3 = true := rfl
@[simp] theorem Seq.setP_zero (q : Seq) (b : Bool) : q.setP 0#3 b = q := rfl
/-- A general register after a write of one (R87). -/
theorem Seq.getG_setG (q : Seq) (d r : BitVec 5) (v : Word) :
    (q.setG d v).getG r = if r = 0#5 then 0#64 else if r = d then v else q.getG r := by
  unfold Seq.setG Seq.getG
  by_cases hr : r = 0#5
  · simp [hr]
  · by_cases hd : d = 0#5
    · simp [hd, hr]
    · by_cases h : r = d
      · subst h; simp [hr]
      · have : d.toNat ≠ r.toNat := fun e => h (BitVec.eq_of_toNat_eq e.symm)
        simp [hr, hd, h, SMap.get_set_ne, this]
/-- A predicate after a write of one (R87). -/
theorem Seq.getP_setP (q : Seq) (d n : BitVec 3) (b : Bool) :
    (q.setP d b).getP n = if n = 0#3 then true else if n = d then b else q.getP n := by
  unfold Seq.setP Seq.getP
  by_cases hn : n = 0#3
  · simp [hn]
  · by_cases hd : d = 0#3
    · simp [hd, hn]
    · have hb : n.toNat < 8 := n.isLt
      by_cases h : n = d
      · subst h
        cases b <;> simp [hn, hb]
      · have h1 : n.toNat ≠ d.toNat := fun e => h (BitVec.eq_of_toNat_eq e)
        have h2 : ¬ n.toNat < d.toNat → (1#8).getLsbD (n.toNat - d.toNat) = false := by
          intro h3
          obtain ⟨k, hk⟩ : ∃ k, n.toNat - d.toNat = k + 1 := ⟨n.toNat - d.toNat - 1, by omega⟩
          rw [hk]; simp
        cases b <;> by_cases h3 : n.toNat < d.toNat <;> simp [hn, hd, h, hb, h3] <;> first | omega | simp_all
@[simp] theorem Seq.setG_p (q : Seq) (r : BitVec 5) (v : Word) : (q.setG r v).p = q.p := by
  unfold Seq.setG; split <;> rfl
@[simp] theorem Seq.setG_lk (q : Seq) (r : BitVec 5) (v : Word) : (q.setG r v).lk = q.lk := by
  unfold Seq.setG; split <;> rfl
@[simp] theorem Seq.setG_pc (q : Seq) (r : BitVec 5) (v : Word) : (q.setG r v).pc = q.pc := by
  unfold Seq.setG; split <;> rfl
@[simp] theorem Seq.setG_loopst (q : Seq) (r : BitVec 5) (v : Word) : (q.setG r v).loopst = q.loopst := by
  unfold Seq.setG; split <;> rfl
@[simp] theorem Seq.setG_actor (q : Seq) (r : BitVec 5) (v : Word) : (q.setG r v).actor = q.actor := by
  unfold Seq.setG; split <;> rfl
@[simp] theorem Seq.setG_running (q : Seq) (r : BitVec 5) (v : Word) : (q.setG r v).running = q.running := by
  unfold Seq.setG; split <;> rfl
@[simp] theorem Seq.setG_budget (q : Seq) (r : BitVec 5) (v : Word) : (q.setG r v).budget = q.budget := by
  unfold Seq.setG; split <;> rfl
@[simp] theorem Seq.setG_tr (q : Seq) (r : BitVec 5) (v : Word) : (q.setG r v).tr = q.tr := by
  unfold Seq.setG; split <;> rfl
@[simp] theorem Seq.setG_sched (q : Seq) (r : BitVec 5) (v : Word) : (q.setG r v).sched = q.sched := by
  unfold Seq.setG; split <;> rfl
@[simp] theorem Seq.setG_wait (q : Seq) (r : BitVec 5) (v : Word) : (q.setG r v).wait = q.wait := by
  unfold Seq.setG; split <;> rfl
@[simp] theorem Seq.setG_mon (q : Seq) (r : BitVec 5) (v : Word) : (q.setG r v).mon = q.mon := by
  unfold Seq.setG; split <;> rfl
@[simp] theorem Seq.setG_barst (q : Seq) (r : BitVec 5) (v : Word) : (q.setG r v).barst = q.barst := by
  unfold Seq.setG; split <;> rfl
@[simp] theorem Seq.setG_pending (q : Seq) (r : BitVec 5) (v : Word) : (q.setG r v).pending = q.pending := by
  unfold Seq.setG; split <;> rfl
@[simp] theorem Seq.setG_dbg (q : Seq) (r : BitVec 5) (v : Word) : (q.setG r v).dbg = q.dbg := by
  unfold Seq.setG; split <;> rfl
@[simp] theorem Seq.setG_stuck (q : Seq) (r : BitVec 5) (v : Word) : (q.setG r v).stuck = q.stuck := by
  unfold Seq.setG; split <;> rfl
@[simp] theorem Seq.setP_g (q : Seq) (r : BitVec 3) (b : Bool) : (q.setP r b).g = q.g := by
  unfold Seq.setP; split <;> rfl
@[simp] theorem Seq.setP_lk (q : Seq) (r : BitVec 3) (b : Bool) : (q.setP r b).lk = q.lk := by
  unfold Seq.setP; split <;> rfl
@[simp] theorem Seq.setP_pc (q : Seq) (r : BitVec 3) (b : Bool) : (q.setP r b).pc = q.pc := by
  unfold Seq.setP; split <;> rfl
@[simp] theorem Seq.setP_loopst (q : Seq) (r : BitVec 3) (b : Bool) : (q.setP r b).loopst = q.loopst := by
  unfold Seq.setP; split <;> rfl
@[simp] theorem Seq.setP_actor (q : Seq) (r : BitVec 3) (b : Bool) : (q.setP r b).actor = q.actor := by
  unfold Seq.setP; split <;> rfl
@[simp] theorem Seq.setP_running (q : Seq) (r : BitVec 3) (b : Bool) : (q.setP r b).running = q.running := by
  unfold Seq.setP; split <;> rfl
@[simp] theorem Seq.setP_budget (q : Seq) (r : BitVec 3) (b : Bool) : (q.setP r b).budget = q.budget := by
  unfold Seq.setP; split <;> rfl
@[simp] theorem Seq.setP_tr (q : Seq) (r : BitVec 3) (b : Bool) : (q.setP r b).tr = q.tr := by
  unfold Seq.setP; split <;> rfl
@[simp] theorem Seq.setP_sched (q : Seq) (r : BitVec 3) (b : Bool) : (q.setP r b).sched = q.sched := by
  unfold Seq.setP; split <;> rfl
@[simp] theorem Seq.setP_wait (q : Seq) (r : BitVec 3) (b : Bool) : (q.setP r b).wait = q.wait := by
  unfold Seq.setP; split <;> rfl
@[simp] theorem Seq.setP_mon (q : Seq) (r : BitVec 3) (b : Bool) : (q.setP r b).mon = q.mon := by
  unfold Seq.setP; split <;> rfl
@[simp] theorem Seq.setP_barst (q : Seq) (r : BitVec 3) (b : Bool) : (q.setP r b).barst = q.barst := by
  unfold Seq.setP; split <;> rfl
@[simp] theorem Seq.setP_pending (q : Seq) (r : BitVec 3) (b : Bool) : (q.setP r b).pending = q.pending := by
  unfold Seq.setP; split <;> rfl
@[simp] theorem Seq.setP_dbg (q : Seq) (r : BitVec 3) (b : Bool) : (q.setP r b).dbg = q.dbg := by
  unfold Seq.setP; split <;> rfl
@[simp] theorem Seq.setP_stuck (q : Seq) (r : BitVec 3) (b : Bool) : (q.setP r b).stuck = q.stuck := by
  unfold Seq.setP; split <;> rfl
@[simp] theorem Seq.stepPc_g (q : Seq) : (q.stepPc).g = q.g := rfl
@[simp] theorem Seq.stepPc_p (q : Seq) : (q.stepPc).p = q.p := rfl
@[simp] theorem Seq.stepPc_lk (q : Seq) : (q.stepPc).lk = q.lk := rfl
@[simp] theorem Seq.stepPc_actor (q : Seq) : (q.stepPc).actor = q.actor := rfl
@[simp] theorem Seq.stepPc_running (q : Seq) : (q.stepPc).running = q.running := rfl
@[simp] theorem Seq.stepPc_budget (q : Seq) : (q.stepPc).budget = q.budget := rfl
@[simp] theorem Seq.stepPc_tr (q : Seq) : (q.stepPc).tr = q.tr := rfl
@[simp] theorem Seq.stepPc_sched (q : Seq) : (q.stepPc).sched = q.sched := rfl
@[simp] theorem Seq.stepPc_mon (q : Seq) : (q.stepPc).mon = q.mon := rfl
@[simp] theorem Seq.stepPc_barst (q : Seq) : (q.stepPc).barst = q.barst := rfl
@[simp] theorem Seq.stepPc_pending (q : Seq) : (q.stepPc).pending = q.pending := rfl
@[simp] theorem Seq.stepPc_dbg (q : Seq) : (q.stepPc).dbg = q.dbg := rfl
@[simp] theorem Seq.stepPc_stuck (q : Seq) : (q.stepPc).stuck = q.stuck := rfl
@[simp] theorem Seq.jumpTo_g (q : Seq) (t : BitVec 12) : (q.jumpTo t).g = q.g := rfl
@[simp] theorem Seq.jumpTo_p (q : Seq) (t : BitVec 12) : (q.jumpTo t).p = q.p := rfl
@[simp] theorem Seq.jumpTo_lk (q : Seq) (t : BitVec 12) : (q.jumpTo t).lk = q.lk := rfl
@[simp] theorem Seq.jumpTo_actor (q : Seq) (t : BitVec 12) : (q.jumpTo t).actor = q.actor := rfl
@[simp] theorem Seq.jumpTo_running (q : Seq) (t : BitVec 12) : (q.jumpTo t).running = q.running := rfl
@[simp] theorem Seq.jumpTo_budget (q : Seq) (t : BitVec 12) : (q.jumpTo t).budget = q.budget := rfl
@[simp] theorem Seq.jumpTo_tr (q : Seq) (t : BitVec 12) : (q.jumpTo t).tr = q.tr := rfl
@[simp] theorem Seq.jumpTo_sched (q : Seq) (t : BitVec 12) : (q.jumpTo t).sched = q.sched := rfl
@[simp] theorem Seq.jumpTo_mon (q : Seq) (t : BitVec 12) : (q.jumpTo t).mon = q.mon := rfl
@[simp] theorem Seq.jumpTo_barst (q : Seq) (t : BitVec 12) : (q.jumpTo t).barst = q.barst := rfl
@[simp] theorem Seq.jumpTo_pending (q : Seq) (t : BitVec 12) : (q.jumpTo t).pending = q.pending := rfl
@[simp] theorem Seq.jumpTo_dbg (q : Seq) (t : BitVec 12) : (q.jumpTo t).dbg = q.dbg := rfl
@[simp] theorem Seq.jumpTo_stuck (q : Seq) (t : BitVec 12) : (q.jumpTo t).stuck = q.stuck := rfl
@[simp] theorem Seq.trapReturn_g (q : Seq) : (q.trapReturn).g = q.g := rfl
@[simp] theorem Seq.trapReturn_p (q : Seq) : (q.trapReturn).p = q.p := rfl
@[simp] theorem Seq.trapReturn_lk (q : Seq) : (q.trapReturn).lk = q.lk := rfl
@[simp] theorem Seq.trapReturn_actor (q : Seq) : (q.trapReturn).actor = q.actor := rfl
@[simp] theorem Seq.trapReturn_running (q : Seq) : (q.trapReturn).running = q.running := rfl
@[simp] theorem Seq.trapReturn_sched (q : Seq) : (q.trapReturn).sched = q.sched := rfl
@[simp] theorem Seq.trapReturn_mon (q : Seq) : (q.trapReturn).mon = q.mon := rfl
@[simp] theorem Seq.trapReturn_barst (q : Seq) : (q.trapReturn).barst = q.barst := rfl
@[simp] theorem Seq.trapReturn_pending (q : Seq) : (q.trapReturn).pending = q.pending := rfl
@[simp] theorem Seq.trapReturn_dbg (q : Seq) : (q.trapReturn).dbg = q.dbg := rfl
@[simp] theorem Seq.trapReturn_stuck (q : Seq) : (q.trapReturn).stuck = q.stuck := rfl
@[simp] theorem Seq.getG_stepPc (q : Seq) (r : BitVec 5) : q.stepPc.getG r = q.getG r := rfl
@[simp] theorem Seq.getP_stepPc (q : Seq) (n : BitVec 3) : q.stepPc.getP n = q.getP n := rfl
@[simp] theorem Seq.getP_setG (q : Seq) (r : BitVec 5) (v : Word) (n : BitVec 3) : (q.setG r v).getP n = q.getP n := by
  simp [Seq.getP]
@[simp] theorem Seq.getG_setP (q : Seq) (r : BitVec 3) (b : Bool) (n : BitVec 5) : (q.setP r b).getG n = q.getG n := by
  simp [Seq.getG]

end Machine

end Sys2Proof
end

