-- ==== Sys2Proof/Laws/Mem.lean ====
section
/-! SUPPORT. Every operation on a byte memory keeps its canonical form, a read after a write gives the value written, and
a write leaves every other address alone. -/

namespace Sys2Proof.Machine

/-- The canonical form in words of lists: addresses strictly rising, and no zero byte. -/
theorem Memory.wf_iff (m : Mem) :
    Memory.wf m = true ↔ m.Pairwise (fun x y => x.1 < y.1) ∧ ∀ x ∈ m, x.2 ≠ 0#8 := by
  induction m with
  | nil => simp [Memory.wf]
  | cons x m ih =>
    cases m with
    | nil => obtain ⟨a, b⟩ := x; simp [Memory.wf]
    | cons y m =>
      obtain ⟨a, b⟩ := x
      obtain ⟨a', b'⟩ := y
      simp only [Memory.wf, Bool.and_eq_true, decide_eq_true_eq, bne_iff_ne, ih]
      constructor
      · rintro ⟨⟨hb, hlt⟩, hp, hz⟩
        refine ⟨List.pairwise_cons.2 ⟨?_, hp⟩, ?_⟩
        · intro z hz'
          rcases List.mem_cons.1 hz' with rfl | hz'
          · exact hlt
          · exact Nat.lt_trans hlt ((List.pairwise_cons.1 hp).1 z hz')
        · intro z hz'
          rcases List.mem_cons.1 hz' with rfl | hz'
          · exact hb
          · exact hz z hz'
      · rintro ⟨hp, hz⟩
        have h := List.pairwise_cons.1 hp
        exact ⟨⟨hz _ (List.mem_cons_self ..), h.1 _ (List.mem_cons_self ..)⟩, h.2,
          fun z hz' => hz z (List.mem_cons_of_mem _ hz')⟩

/-- A member of a map after a write is the entry written or an old entry. -/
theorem SMap.mem_set {α : Type} (m : SMap α) (i : Nat) (x : α) (e : Nat × α) (h : e ∈ SMap.set m i x) :
    e = (i, x) ∨ e ∈ m := by
  induction m with
  | nil => simpa [SMap.set] using h
  | cons c m ih =>
    obtain ⟨k, v⟩ := c
    simp only [SMap.set] at h
    split at h
    · rcases List.mem_cons.1 h with h | h
      · exact .inl h
      · exact .inr (List.mem_cons_of_mem _ h)
    · split at h
      · rcases List.mem_cons.1 h with h | h
        · exact .inl h
        · exact .inr h
      · rcases List.mem_cons.1 h with h | h
        · exact .inr (h ▸ List.mem_cons_self ..)
        · rcases ih h with h | h
          · exact .inl h
          · exact .inr (List.mem_cons_of_mem _ h)

/-- A write keeps the numbers strictly rising. -/
theorem SMap.pairwise_set {α : Type} (m : SMap α) (i : Nat) (x : α) (h : m.Pairwise (fun x y => x.1 < y.1)) :
    (SMap.set m i x).Pairwise (fun x y => x.1 < y.1) := by
  induction m with
  | nil => simp [SMap.set]
  | cons c m ih =>
    obtain ⟨k, v⟩ := c
    have hc := List.pairwise_cons.1 h
    simp only [SMap.set]
    split
    · rename_i hk; subst hk; exact List.pairwise_cons.2 ⟨hc.1, hc.2⟩
    · split
      · rename_i hlt
        refine List.pairwise_cons.2 ⟨?_, h⟩
        intro z hz
        rcases List.mem_cons.1 hz with rfl | hz
        · exact hlt
        · exact Nat.lt_trans hlt (hc.1 z hz)
      · rename_i hne hnlt
        refine List.pairwise_cons.2 ⟨?_, ih hc.2⟩
        intro z hz
        rcases SMap.mem_set m i x z hz with rfl | hz
        · show k < i; omega
        · exact hc.1 z hz

/-- Writing a byte keeps the canonical form. -/
theorem memWrite_wf (m : Mem) (a : Nat) (b : Byte) (h : Memory.wf m = true) : Memory.wf (memWrite m a b) = true := by
  rw [Memory.wf_iff] at h ⊢
  unfold memWrite
  split
  · exact ⟨h.1.filter _, fun x hx => h.2 x ((List.mem_filter.1 hx).1)⟩
  · rename_i hb
    refine ⟨SMap.pairwise_set m a b h.1, ?_⟩
    intro x hx
    rcases SMap.mem_set m a b x hx with rfl | hx
    · exact hb
    · exact h.2 x hx

/-- Writing bytes keeps the canonical form. -/
theorem memStore_wf (m : Mem) (a : Nat) (bs : List Byte) (h : Memory.wf m = true) : Memory.wf (memStore m a bs) = true := by
  induction bs generalizing m a with
  | nil => exact h
  | cons b bs ih => exact ih _ _ (memWrite_wf m a b h)

/-- A fold of operations that each keep the canonical form keeps it. -/
theorem foldl_wf {α : Type} (f : Mem → α → Mem) (hf : ∀ m x, Memory.wf m = true → Memory.wf (f m x) = true)
    (l : List α) (m : Mem) (h : Memory.wf m = true) : Memory.wf (l.foldl f m) = true := by
  induction l generalizing m with
  | nil => exact h
  | cons x l ih => exact ih _ (hf m x h)

/-- Writing a line keeps the canonical form. -/
theorem storeLine_wf (m : Mem) (ln : Nat) (l : Line) (h : Memory.wf m = true) : Memory.wf (storeLine m ln l) = true := by
  apply foldl_wf _ _ _ _ h
  intro m i h
  split
  · exact memWrite_wf _ _ _ h
  · exact h

/-- Without an address in a list, the read gives the unlisted value. -/
theorem SMap.get_filter_ne {α : Type} (d : α) (m : SMap α) (i j : Nat) :
    SMap.get d (m.filter fun c => c.1 != i) j = if j = i then d else SMap.get d m j := by
  induction m with
  | nil => simp [SMap.get]
  | cons c m ih =>
    obtain ⟨k, v⟩ := c
    by_cases hk : k = i
    · subst hk
      by_cases hj : j = k
      · subst hj; simp_all
      · simp_all [SMap.get, Ne.symm hj]
    · by_cases hj : k = j
      · subst hj; simp_all [SMap.get]
      · simp_all [SMap.get]

/-- The byte at an address after a byte is written (R2). -/
theorem memRead_memWrite (m : Mem) (a c : Nat) (b : Byte) :
    memRead (memWrite m a b) c = if c = a then b else memRead m c := by
  unfold memRead memWrite
  split
  · rename_i hb; subst hb; exact SMap.get_filter_ne _ _ _ _
  · rw [SMap.get_set]; simp only [eq_comm]

/-- The byte at an address after bytes are written: the byte given for it, or what stood there. -/
theorem memRead_memStore (m : Mem) (a c : Nat) (bs : List Byte) :
    memRead (memStore m a bs) c = if a ≤ c ∧ c < a + bs.length then bs[c - a]?.getD 0 else memRead m c := by
  induction bs generalizing m a with
  | nil => simp [memStore] <;> omega
  | cons b bs ih =>
    simp only [memStore, ih, memRead_memWrite, List.length_cons]
    by_cases h1 : a + 1 ≤ c ∧ c < a + 1 + bs.length
    · have h2 : a ≤ c ∧ c < a + (bs.length + 1) := by omega
      have h3 : c - a = (c - (a + 1)) + 1 := by omega
      simp [h1, h2, h3]
    · by_cases h2 : c = a
      · subst h2; simp <;> omega
      · have h3 : ¬ (a ≤ c ∧ c < a + (bs.length + 1)) := by omega
        rw [if_neg h1, if_neg h2, if_neg h3]

end Sys2Proof.Machine
end

