-- ==== Sys2Proof/Laws/PerInstr.lean ====
section
/-! SUPPORT. One lemma for each constructor of Instr: its word fits the bits that its class gives it (R62). -/

namespace Sys2Proof.Laws

/-- The word of an instruction fits the number of bits its class gives it; an event has none (R62). -/
def Bits.Statement (i : Instr) : Prop := encode i < 2 ^ i.nbits

/-- A control word fits 32 bits. -/
theorem bits_control (i : Instr) (h : i.cls = .control) : Bits.Statement i := by
  simp only [Bits.Statement, encode, Instr.nbits, h]
  exact (encodeControl i).isLt

/-- An operation word fits 32 bits. -/
theorem bits_op (i : Instr) (h : i.cls = .op) : Bits.Statement i := by
  simp only [Bits.Statement, encode, Instr.nbits, h]
  exact (encodeOp i).isLt

/-- A switch word fits 16 bits. -/
theorem bits_switch (i : Instr) (h : i.cls = .switch) : Bits.Statement i := by
  simp only [Bits.Statement, encode, Instr.nbits, h]
  exact (encodeSwitch i).isLt

/-- An event has no word. -/
theorem bits_event (i : Instr) (h : i.cls = .event) : Bits.Statement i := by
  simp [Bits.Statement, encode, Instr.nbits, h]

theorem Bits.ill (r : BitVec 25) : Bits.Statement (.ill r) := bits_control _ rfl
theorem Bits.nop : Bits.Statement (.nop) := bits_control _ rfl
theorem Bits.addReg (d : BitVec 5) (a : BitVec 5) (b : BitVec 5) : Bits.Statement (.addReg d a b) := bits_control _ rfl
theorem Bits.addImm (d : BitVec 5) (a : BitVec 5) (i : BitVec 15) : Bits.Statement (.addImm d a i) := bits_control _ rfl
theorem Bits.sub (d : BitVec 5) (a : BitVec 5) (b : BitVec 5) : Bits.Statement (.sub d a b) := bits_control _ rfl
theorem Bits.mulLo (d : BitVec 5) (a : BitVec 5) (b : BitVec 5) : Bits.Statement (.mulLo d a b) := bits_control _ rfl
theorem Bits.mulHs (d : BitVec 5) (a : BitVec 5) (b : BitVec 5) : Bits.Statement (.mulHs d a b) := bits_control _ rfl
theorem Bits.mulHu (d : BitVec 5) (a : BitVec 5) (b : BitVec 5) : Bits.Statement (.mulHu d a b) := bits_control _ rfl
theorem Bits.divS (d : BitVec 5) (a : BitVec 5) (b : BitVec 5) : Bits.Statement (.divS d a b) := bits_control _ rfl
theorem Bits.divU (d : BitVec 5) (a : BitVec 5) (b : BitVec 5) : Bits.Statement (.divU d a b) := bits_control _ rfl
theorem Bits.remS (d : BitVec 5) (a : BitVec 5) (b : BitVec 5) : Bits.Statement (.remS d a b) := bits_control _ rfl
theorem Bits.remU (d : BitVec 5) (a : BitVec 5) (b : BitVec 5) : Bits.Statement (.remU d a b) := bits_control _ rfl
theorem Bits.andReg (d : BitVec 5) (a : BitVec 5) (b : BitVec 5) : Bits.Statement (.andReg d a b) := bits_control _ rfl
theorem Bits.andImm (d : BitVec 5) (a : BitVec 5) (i : BitVec 15) : Bits.Statement (.andImm d a i) := bits_control _ rfl
theorem Bits.orReg (d : BitVec 5) (a : BitVec 5) (b : BitVec 5) : Bits.Statement (.orReg d a b) := bits_control _ rfl
theorem Bits.orImm (d : BitVec 5) (a : BitVec 5) (i : BitVec 15) : Bits.Statement (.orImm d a i) := bits_control _ rfl
theorem Bits.xorReg (d : BitVec 5) (a : BitVec 5) (b : BitVec 5) : Bits.Statement (.xorReg d a b) := bits_control _ rfl
theorem Bits.xorImm (d : BitVec 5) (a : BitVec 5) (i : BitVec 15) : Bits.Statement (.xorImm d a i) := bits_control _ rfl
theorem Bits.shlR (d : BitVec 5) (a : BitVec 5) (b : BitVec 5) : Bits.Statement (.shlR d a b) := bits_control _ rfl
theorem Bits.shlI (d : BitVec 5) (a : BitVec 5) (n : BitVec 6) : Bits.Statement (.shlI d a n) := bits_control _ rfl
theorem Bits.shrLr (d : BitVec 5) (a : BitVec 5) (b : BitVec 5) : Bits.Statement (.shrLr d a b) := bits_control _ rfl
theorem Bits.shrLi (d : BitVec 5) (a : BitVec 5) (n : BitVec 6) : Bits.Statement (.shrLi d a n) := bits_control _ rfl
theorem Bits.shrAr (d : BitVec 5) (a : BitVec 5) (b : BitVec 5) : Bits.Statement (.shrAr d a b) := bits_control _ rfl
theorem Bits.shrAi (d : BitVec 5) (a : BitVec 5) (n : BitVec 6) : Bits.Statement (.shrAi d a n) := bits_control _ rfl
theorem Bits.minS (d : BitVec 5) (a : BitVec 5) (b : BitVec 5) : Bits.Statement (.minS d a b) := bits_control _ rfl
theorem Bits.minU (d : BitVec 5) (a : BitVec 5) (b : BitVec 5) : Bits.Statement (.minU d a b) := bits_control _ rfl
theorem Bits.maxS (d : BitVec 5) (a : BitVec 5) (b : BitVec 5) : Bits.Statement (.maxS d a b) := bits_control _ rfl
theorem Bits.maxU (d : BitVec 5) (a : BitVec 5) (b : BitVec 5) : Bits.Statement (.maxU d a b) := bits_control _ rfl
theorem Bits.cmpEq (p : BitVec 3) (a : BitVec 5) (b : BitVec 5) : Bits.Statement (.cmpEq p a b) := bits_control _ rfl
theorem Bits.cmpNe (p : BitVec 3) (a : BitVec 5) (b : BitVec 5) : Bits.Statement (.cmpNe p a b) := bits_control _ rfl
theorem Bits.cmpLt (p : BitVec 3) (a : BitVec 5) (b : BitVec 5) : Bits.Statement (.cmpLt p a b) := bits_control _ rfl
theorem Bits.cmpLe (p : BitVec 3) (a : BitVec 5) (b : BitVec 5) : Bits.Statement (.cmpLe p a b) := bits_control _ rfl
theorem Bits.cmpLtu (p : BitVec 3) (a : BitVec 5) (b : BitVec 5) : Bits.Statement (.cmpLtu p a b) := bits_control _ rfl
theorem Bits.cmpLeu (p : BitVec 3) (a : BitVec 5) (b : BitVec 5) : Bits.Statement (.cmpLeu p a b) := bits_control _ rfl
theorem Bits.sel (d : BitVec 5) (a : BitVec 5) (b : BitVec 5) (n : BitVec 1) (p : BitVec 3) : Bits.Statement (.sel d a b n p) := bits_control _ rfl
theorem Bits.ldi (d : BitVec 5) (i : BitVec 20) : Bits.Statement (.ldi d i) := bits_control _ rfl
theorem Bits.bitcClz (d : BitVec 5) (a : BitVec 5) : Bits.Statement (.bitcClz d a) := bits_control _ rfl
theorem Bits.bitcCtz (d : BitVec 5) (a : BitVec 5) : Bits.Statement (.bitcCtz d a) := bits_control _ rfl
theorem Bits.bitcPopc (d : BitVec 5) (a : BitVec 5) : Bits.Statement (.bitcPopc d a) := bits_control _ rfl
theorem Bits.extr (d : BitVec 5) (a : BitVec 5) (lsb : BitVec 6) (wid : BitVec 6) : Bits.Statement (.extr d a lsb wid) := bits_control _ rfl
theorem Bits.insr (d : BitVec 5) (a : BitVec 5) (lsb : BitVec 6) (wid : BitVec 6) : Bits.Statement (.insr d a lsb wid) := bits_control _ rfl
theorem Bits.ixa (d : BitVec 5) (a : BitVec 5) (b : BitVec 5) (w : BitVec 1) (sh : BitVec 3) : Bits.Statement (.ixa d a b w sh) := bits_control _ rfl
theorem Bits.plogAnd (d : BitVec 3) (a : BitVec 3) (b : BitVec 3) : Bits.Statement (.plogAnd d a b) := bits_control _ rfl
theorem Bits.plogOr (d : BitVec 3) (a : BitVec 3) (b : BitVec 3) : Bits.Statement (.plogOr d a b) := bits_control _ rfl
theorem Bits.plogXor (d : BitVec 3) (a : BitVec 3) (b : BitVec 3) : Bits.Statement (.plogXor d a b) := bits_control _ rfl
theorem Bits.plogAndn (d : BitVec 3) (a : BitVec 3) (b : BitVec 3) : Bits.Statement (.plogAndn d a b) := bits_control _ rfl
theorem Bits.hashsLane (d : BitVec 5) (a : BitVec 5) : Bits.Statement (.hashsLane d a) := bits_control _ rfl
theorem Bits.hashsCrc (d : BitVec 5) (a : BitVec 5) (b : BitVec 5) : Bits.Statement (.hashsCrc d a b) := bits_control _ rfl
theorem Bits.hashsFold (d : BitVec 5) (a : BitVec 5) : Bits.Statement (.hashsFold d a) := bits_control _ rfl
theorem Bits.br (p : BitVec 3) (neg : BitVec 1) (off : BitVec 21) : Bits.Statement (.br p neg off) := bits_control _ rfl
theorem Bits.jmp (off : BitVec 25) : Bits.Statement (.jmp off) := bits_control _ rfl
theorem Bits.jal (off : BitVec 25) : Bits.Statement (.jal off) := bits_control _ rfl
theorem Bits.jr (a : BitVec 5) : Bits.Statement (.jr a) := bits_control _ rfl
theorem Bits.loopH (a : BitVec 5) (len : BitVec 6) : Bits.Statement (.loopH a len) := bits_control _ rfl
theorem Bits.fend : Bits.Statement (.fend) := bits_control _ rfl
theorem Bits.ldB (d : BitVec 5) (b : BitVec 5) (off : BitVec 12) : Bits.Statement (.ldB d b off) := bits_control _ rfl
theorem Bits.ldBu (d : BitVec 5) (b : BitVec 5) (off : BitVec 12) : Bits.Statement (.ldBu d b off) := bits_control _ rfl
theorem Bits.ldH (d : BitVec 5) (b : BitVec 5) (off : BitVec 12) : Bits.Statement (.ldH d b off) := bits_control _ rfl
theorem Bits.ldHu (d : BitVec 5) (b : BitVec 5) (off : BitVec 12) : Bits.Statement (.ldHu d b off) := bits_control _ rfl
theorem Bits.ldW (d : BitVec 5) (b : BitVec 5) (off : BitVec 12) : Bits.Statement (.ldW d b off) := bits_control _ rfl
theorem Bits.ldWu (d : BitVec 5) (b : BitVec 5) (off : BitVec 12) : Bits.Statement (.ldWu d b off) := bits_control _ rfl
theorem Bits.ldD (d : BitVec 5) (b : BitVec 5) (off : BitVec 12) : Bits.Statement (.ldD d b off) := bits_control _ rfl
theorem Bits.stB (v : BitVec 5) (b : BitVec 5) (off : BitVec 12) : Bits.Statement (.stB v b off) := bits_control _ rfl
theorem Bits.stH (v : BitVec 5) (b : BitVec 5) (off : BitVec 12) : Bits.Statement (.stH v b off) := bits_control _ rfl
theorem Bits.stW (v : BitVec 5) (b : BitVec 5) (off : BitVec 12) : Bits.Statement (.stW v b off) := bits_control _ rfl
theorem Bits.stD (v : BitVec 5) (b : BitVec 5) (off : BitVec 12) : Bits.Statement (.stD v b off) := bits_control _ rfl
theorem Bits.aaddW (d : BitVec 5) (a : BitVec 5) (b : BitVec 5) : Bits.Statement (.aaddW d a b) := bits_control _ rfl
theorem Bits.aaddD (d : BitVec 5) (a : BitVec 5) (b : BitVec 5) : Bits.Statement (.aaddD d a b) := bits_control _ rfl
theorem Bits.aminS (d : BitVec 5) (a : BitVec 5) (b : BitVec 5) : Bits.Statement (.aminS d a b) := bits_control _ rfl
theorem Bits.aminU (d : BitVec 5) (a : BitVec 5) (b : BitVec 5) : Bits.Statement (.aminU d a b) := bits_control _ rfl
theorem Bits.amaxS (d : BitVec 5) (a : BitVec 5) (b : BitVec 5) : Bits.Statement (.amaxS d a b) := bits_control _ rfl
theorem Bits.amaxU (d : BitVec 5) (a : BitVec 5) (b : BitVec 5) : Bits.Statement (.amaxU d a b) := bits_control _ rfl
theorem Bits.alogAnd (d : BitVec 5) (a : BitVec 5) (b : BitVec 5) : Bits.Statement (.alogAnd d a b) := bits_control _ rfl
theorem Bits.alogOr (d : BitVec 5) (a : BitVec 5) (b : BitVec 5) : Bits.Statement (.alogOr d a b) := bits_control _ rfl
theorem Bits.alogXor (d : BitVec 5) (a : BitVec 5) (b : BitVec 5) : Bits.Statement (.alogXor d a b) := bits_control _ rfl
theorem Bits.axch (d : BitVec 5) (a : BitVec 5) (b : BitVec 5) : Bits.Statement (.axch d a b) := bits_control _ rfl
theorem Bits.acas (d : BitVec 5) (a : BitVec 5) (b : BitVec 5) : Bits.Statement (.acas d a b) := bits_control _ rfl
theorem Bits.afaddF32 (d : BitVec 5) (a : BitVec 5) (b : BitVec 5) : Bits.Statement (.afaddF32 d a b) := bits_control _ rfl
theorem Bits.afaddBf16x2 (d : BitVec 5) (a : BitVec 5) (b : BitVec 5) : Bits.Statement (.afaddBf16x2 d a b) := bits_control _ rfl
theorem Bits.take (d : BitVec 5) (a : BitVec 5) (pay : BitVec 1) (part : BitVec 2) (port : BitVec 2) : Bits.Statement (.take d a pay part port) := bits_control _ rfl
theorem Bits.peek (d : BitVec 5) (a : BitVec 5) (depth : BitVec 3) (pay : BitVec 1) (part : BitVec 2) (port : BitVec 2) : Bits.Statement (.peek d a depth pay part port) := bits_control _ rfl
theorem Bits.emit (d : BitVec 5) (a : BitVec 5) (n : BitVec 2) : Bits.Statement (.emit d a n) := bits_control _ rfl
theorem Bits.emits (a : BitVec 5) (b : BitVec 5) (c : BitVec 5) (n : BitVec 2) : Bits.Statement (.emits a b c n) := bits_control _ rfl
theorem Bits.copy (a : BitVec 5) (b : BitVec 5) (c : BitVec 5) (ws : BitVec 1) (remote : BitVec 1) (queue : BitVec 1) (retry : BitVec 3) (last : BitVec 1) (chain : BitVec 1) (assay : BitVec 2) : Bits.Statement (.copy a b c ws remote queue retry last chain assay) := bits_control _ rfl
theorem Bits.fillContiguous (a : BitVec 5) (b : BitVec 5) (tile : BitVec 6) : Bits.Statement (.fillContiguous a b tile) := bits_control _ rfl
theorem Bits.fillGather (a : BitVec 5) (b : BitVec 5) (c : BitVec 5) (tile : BitVec 6) : Bits.Statement (.fillGather a b c tile) := bits_control _ rfl
theorem Bits.wbind (a : BitVec 5) (b : BitVec 5) (c : BitVec 5) (row : BitVec 10) : Bits.Statement (.wbind a b c row) := bits_control _ rfl
theorem Bits.wfree (a : BitVec 5) : Bits.Statement (.wfree a) := bits_control _ rfl
theorem Bits.marm (v : BitVec 5) (b : BitVec 5) (off : BitVec 12) : Bits.Statement (.marm v b off) := bits_control _ rfl
theorem Bits.mwait (d : BitVec 5) : Bits.Statement (.mwait d) := bits_control _ rfl
theorem Bits.fenceRel (scope : BitVec 3) : Bits.Statement (.fenceRel scope) := bits_control _ rfl
theorem Bits.fenceAcq (scope : BitVec 3) : Bits.Statement (.fenceAcq scope) := bits_control _ rfl
theorem Bits.fenceFull (scope : BitVec 3) : Bits.Statement (.fenceFull scope) := bits_control _ rfl
theorem Bits.xfence (dst : BitVec 3) (frm : BitVec 3) (scope : BitVec 3) : Bits.Statement (.xfence dst frm scope) := bits_control _ rfl
theorem Bits.bar (a : BitVec 5) (b : BitVec 5) (scope : BitVec 3) : Bits.Statement (.bar a b scope) := bits_control _ rfl
theorem Bits.tileClaim (d : BitVec 5) (a : BitVec 5) (b : BitVec 5) : Bits.Statement (.tileClaim d a b) := bits_control _ rfl
theorem Bits.tileReady (d : BitVec 5) (a : BitVec 5) (b : BitVec 5) : Bits.Statement (.tileReady d a b) := bits_control _ rfl
theorem Bits.tileDrain (d : BitVec 5) (a : BitVec 5) : Bits.Statement (.tileDrain d a) := bits_control _ rfl
theorem Bits.tileFree (d : BitVec 5) (a : BitVec 5) : Bits.Statement (.tileFree d a) := bits_control _ rfl
theorem Bits.tileQuery (d : BitVec 5) (a : BitVec 5) : Bits.Statement (.tileQuery d a) := bits_control _ rfl
theorem Bits.launch (d : BitVec 5) (a : BitVec 5) : Bits.Statement (.launch d a) := bits_control _ rfl
theorem Bits.rlaunch (d : BitVec 5) (a : BitVec 5) (b : BitVec 5) : Bits.Statement (.rlaunch d a b) := bits_control _ rfl
theorem Bits.regionAdd (d : BitVec 5) (a : BitVec 5) : Bits.Statement (.regionAdd d a) := bits_control _ rfl
theorem Bits.regionShrink (a : BitVec 5) (b : BitVec 5) : Bits.Statement (.regionShrink a b) := bits_control _ rfl
theorem Bits.regionQuery (d : BitVec 5) (a : BitVec 5) (w : BitVec 2) : Bits.Statement (.regionQuery d a w) := bits_control _ rfl
theorem Bits.xpref (d : BitVec 5) (a : BitVec 5) : Bits.Statement (.xpref d a) := bits_control _ rfl
theorem Bits.xpinPin (d : BitVec 5) (a : BitVec 5) : Bits.Statement (.xpinPin d a) := bits_control _ rfl
theorem Bits.xpinUnpin (d : BitVec 5) (a : BitVec 5) : Bits.Statement (.xpinUnpin d a) := bits_control _ rfl
theorem Bits.xevict (d : BitVec 5) (a : BitVec 5) : Bits.Statement (.xevict d a) := bits_control _ rfl
theorem Bits.xlook (d : BitVec 5) (a : BitVec 5) (w : BitVec 2) : Bits.Statement (.xlook d a w) := bits_control _ rfl
theorem Bits.cntr (d : BitVec 5) (a : BitVec 5) (n : BitVec 7) : Bits.Statement (.cntr d a n) := bits_control _ rfl
theorem Bits.cntw (d : BitVec 5) (a : BitVec 5) (n : BitVec 7) : Bits.Statement (.cntw d a n) := bits_control _ rfl
theorem Bits.stab (a : BitVec 5) (b : BitVec 5) : Bits.Statement (.stab a b) := bits_control _ rfl
theorem Bits.srr (d : BitVec 5) (sel : BitVec 15) : Bits.Statement (.srr d sel) := bits_control _ rfl
theorem Bits.srw (a : BitVec 5) (sel : BitVec 15) : Bits.Statement (.srw a sel) := bits_control _ rfl
theorem Bits.trapI (i : BitVec 20) : Bits.Statement (.trapI i) := bits_control _ rfl
theorem Bits.tret : Bits.Statement (.tret) := bits_control _ rfl
theorem Bits.brk (i : BitVec 20) : Bits.Statement (.brk i) := bits_control _ rfl
theorem Bits.vadd (ty : BitVec 3) (rm : BitVec 2) (sat : BitVec 1) (sh : BitVec 2) (da : BitVec 6) (db : BitVec 6) : Bits.Statement (.vadd ty rm sat sh da db) := bits_op _ rfl
theorem Bits.vsub (ty : BitVec 3) (rm : BitVec 2) (sat : BitVec 1) (sh : BitVec 2) (da : BitVec 6) (db : BitVec 6) : Bits.Statement (.vsub ty rm sat sh da db) := bits_op _ rfl
theorem Bits.vmul (ty : BitVec 3) (rm : BitVec 2) (sat : BitVec 1) (sh : BitVec 2) (da : BitVec 6) (db : BitVec 6) : Bits.Statement (.vmul ty rm sat sh da db) := bits_op _ rfl
theorem Bits.vfma (ty : BitVec 3) (rm : BitVec 2) (sat : BitVec 1) (sh : BitVec 2) (da : BitVec 6) (db : BitVec 6) : Bits.Statement (.vfma ty rm sat sh da db) := bits_op _ rfl
theorem Bits.vmin (ty : BitVec 3) (rm : BitVec 2) (sh : BitVec 2) (da : BitVec 6) (db : BitVec 6) : Bits.Statement (.vmin ty rm sh da db) := bits_op _ rfl
theorem Bits.vmax (ty : BitVec 3) (rm : BitVec 2) (sh : BitVec 2) (da : BitVec 6) (db : BitVec 6) : Bits.Statement (.vmax ty rm sh da db) := bits_op _ rfl
theorem Bits.vnegNeg (ty : BitVec 3) (rm : BitVec 2) (sat : BitVec 1) (sh : BitVec 2) (da : BitVec 6) (db : BitVec 6) : Bits.Statement (.vnegNeg ty rm sat sh da db) := bits_op _ rfl
theorem Bits.vnegAbs (ty : BitVec 3) (rm : BitVec 2) (sat : BitVec 1) (sh : BitVec 2) (da : BitVec 6) (db : BitVec 6) : Bits.Statement (.vnegAbs ty rm sat sh da db) := bits_op _ rfl
theorem Bits.vand (ty : BitVec 3) (sh : BitVec 2) (da : BitVec 6) (db : BitVec 6) : Bits.Statement (.vand ty sh da db) := bits_op _ rfl
theorem Bits.vor (ty : BitVec 3) (sh : BitVec 2) (da : BitVec 6) (db : BitVec 6) : Bits.Statement (.vor ty sh da db) := bits_op _ rfl
theorem Bits.vxor (ty : BitVec 3) (sh : BitVec 2) (da : BitVec 6) (db : BitVec 6) : Bits.Statement (.vxor ty sh da db) := bits_op _ rfl
theorem Bits.vshl (ty : BitVec 3) (sh : BitVec 2) (da : BitVec 6) (db : BitVec 6) : Bits.Statement (.vshl ty sh da db) := bits_op _ rfl
theorem Bits.vshrL (ty : BitVec 3) (sh : BitVec 2) (da : BitVec 6) (db : BitVec 6) : Bits.Statement (.vshrL ty sh da db) := bits_op _ rfl
theorem Bits.vshrA (ty : BitVec 3) (sh : BitVec 2) (da : BitVec 6) (db : BitVec 6) : Bits.Statement (.vshrA ty sh da db) := bits_op _ rfl
theorem Bits.vcmpEq (ty : BitVec 3) (sh : BitVec 2) (da : BitVec 6) (db : BitVec 6) : Bits.Statement (.vcmpEq ty sh da db) := bits_op _ rfl
theorem Bits.vcmpNe (ty : BitVec 3) (sh : BitVec 2) (da : BitVec 6) (db : BitVec 6) : Bits.Statement (.vcmpNe ty sh da db) := bits_op _ rfl
theorem Bits.vcmpLt (ty : BitVec 3) (sh : BitVec 2) (da : BitVec 6) (db : BitVec 6) : Bits.Statement (.vcmpLt ty sh da db) := bits_op _ rfl
theorem Bits.vcmpLe (ty : BitVec 3) (sh : BitVec 2) (da : BitVec 6) (db : BitVec 6) : Bits.Statement (.vcmpLe ty sh da db) := bits_op _ rfl
theorem Bits.vsel (ty : BitVec 3) (sh : BitVec 2) (da : BitVec 6) (db : BitVec 6) : Bits.Statement (.vsel ty sh da db) := bits_op _ rfl
theorem Bits.vcvt (ty : BitVec 3) (rm : BitVec 2) (sat : BitVec 1) (sh : BitVec 2) (da : BitVec 6) (db : BitVec 6) : Bits.Statement (.vcvt ty rm sat sh da db) := bits_op _ rfl
theorem Bits.vrcp (ty : BitVec 3) (rm : BitVec 2) (sat : BitVec 1) (sh : BitVec 2) (da : BitVec 6) (db : BitVec 6) : Bits.Statement (.vrcp ty rm sat sh da db) := bits_op _ rfl
theorem Bits.vrsq (ty : BitVec 3) (rm : BitVec 2) (sat : BitVec 1) (sh : BitVec 2) (da : BitVec 6) (db : BitVec 6) : Bits.Statement (.vrsq ty rm sat sh da db) := bits_op _ rfl
theorem Bits.vexp2 (ty : BitVec 3) (rm : BitVec 2) (sat : BitVec 1) (sh : BitVec 2) (da : BitVec 6) (db : BitVec 6) : Bits.Statement (.vexp2 ty rm sat sh da db) := bits_op _ rfl
theorem Bits.vlog2 (ty : BitVec 3) (rm : BitVec 2) (sat : BitVec 1) (sh : BitVec 2) (da : BitVec 6) (db : BitVec 6) : Bits.Statement (.vlog2 ty rm sat sh da db) := bits_op _ rfl
theorem Bits.vsumAdd (ty : BitVec 3) (rm : BitVec 2) (sat : BitVec 1) (sh : BitVec 2) (da : BitVec 6) (db : BitVec 6) : Bits.Statement (.vsumAdd ty rm sat sh da db) := bits_op _ rfl
theorem Bits.vsumMin (ty : BitVec 3) (rm : BitVec 2) (sh : BitVec 2) (da : BitVec 6) (db : BitVec 6) : Bits.Statement (.vsumMin ty rm sh da db) := bits_op _ rfl
theorem Bits.vsumMax (ty : BitVec 3) (rm : BitVec 2) (sh : BitVec 2) (da : BitVec 6) (db : BitVec 6) : Bits.Statement (.vsumMax ty rm sh da db) := bits_op _ rfl
theorem Bits.vshuf (ty : BitVec 3) (sh : BitVec 2) (da : BitVec 6) (db : BitVec 6) : Bits.Statement (.vshuf ty sh da db) := bits_op _ rfl
theorem Bits.vconst (ty : BitVec 3) (sh : BitVec 2) (ki : BitVec 3) (da : BitVec 6) (db : BitVec 6) : Bits.Statement (.vconst ty sh ki da db) := bits_op _ rfl
theorem Bits.vmov (ty : BitVec 3) (sh : BitVec 2) (da : BitVec 6) (db : BitVec 6) : Bits.Statement (.vmov ty sh da db) := bits_op _ rfl
theorem Bits.vbcmp (sh : BitVec 2) (da : BitVec 6) (db : BitVec 6) : Bits.Statement (.vbcmp sh da db) := bits_op _ rfl
theorem Bits.vbeqm (sh : BitVec 2) (da : BitVec 6) (db : BitVec 6) : Bits.Statement (.vbeqm sh da db) := bits_op _ rfl
theorem Bits.vhashLane (sh : BitVec 2) (da : BitVec 6) (db : BitVec 6) : Bits.Statement (.vhashLane sh da db) := bits_op _ rfl
theorem Bits.vhashCrc (sh : BitVec 2) (da : BitVec 6) (db : BitVec 6) : Bits.Statement (.vhashCrc sh da db) := bits_op _ rfl
theorem Bits.vhashFold (sh : BitVec 2) (da : BitVec 6) (db : BitVec 6) : Bits.Statement (.vhashFold sh da db) := bits_op _ rfl
theorem Bits.eld (ty : BitVec 3) (sh : BitVec 2) (gd : BitVec 1) (da : BitVec 6) (db : BitVec 6) : Bits.Statement (.eld ty sh gd da db) := bits_op _ rfl
theorem Bits.est (ty : BitVec 3) (sh : BitVec 2) (da : BitVec 6) (db : BitVec 6) : Bits.Statement (.est ty sh da db) := bits_op _ rfl
theorem Bits.hprobe (da : BitVec 6) (db : BitVec 6) : Bits.Statement (.hprobe da db) := bits_op _ rfl
theorem Bits.hins (da : BitVec 6) (db : BitVec 6) : Bits.Statement (.hins da db) := bits_op _ rfl
theorem Bits.ecfg (da : BitVec 6) : Bits.Statement (.ecfg da) := bits_op _ rfl
theorem Bits.scanD (tv : BitVec 6) (vf : BitVec 2) (seek : BitVec 1) : Bits.Statement (.scanD tv vf seek) := bits_op _ rfl
theorem Bits.scanC (ta : BitVec 6) (tb : BitVec 6) (tv : BitVec 6) (vf : BitVec 2) (seek : BitVec 1) : Bits.Statement (.scanC ta tb tv vf seek) := bits_op _ rfl
theorem Bits.scanB (ta : BitVec 6) (tb : BitVec 6) (tv : BitVec 6) (vf : BitVec 2) (seek : BitVec 1) : Bits.Statement (.scanB ta tb tv vf seek) := bits_op _ rfl
theorem Bits.isect (osel : BitVec 2) (pay : BitVec 2) (ska : BitVec 1) (skb : BitVec 1) (thr : BitVec 5) : Bits.Statement (.isect osel pay ska skb thr) := bits_op _ rfl
theorem Bits.union (osel : BitVec 2) (pay : BitVec 2) : Bits.Statement (.union osel pay) := bits_op _ rfl
theorem Bits.rept (newat : BitVec 3) (span : BitVec 1) : Bits.Statement (.rept newat span) := bits_op _ rfl
theorem Bits.reduceSum (f32 : BitVec 1) (sat : BitVec 1) (vec : BitVec 1) (vsrc : BitVec 1) (grain : BitVec 1) (zeros : BitVec 1) : Bits.Statement (.reduceSum f32 sat vec vsrc grain zeros) := bits_op _ rfl
theorem Bits.reduceMin (f32 : BitVec 1) (vec : BitVec 1) (vsrc : BitVec 1) (grain : BitVec 1) (zeros : BitVec 1) : Bits.Statement (.reduceMin f32 vec vsrc grain zeros) := bits_op _ rfl
theorem Bits.reduceMax (f32 : BitVec 1) (vec : BitVec 1) (vsrc : BitVec 1) (grain : BitVec 1) (zeros : BitVec 1) : Bits.Statement (.reduceMax f32 vec vsrc grain zeros) := bits_op _ rfl
theorem Bits.reduceOr (vec : BitVec 1) (vsrc : BitVec 1) (grain : BitVec 1) (zeros : BitVec 1) : Bits.Statement (.reduceOr vec vsrc grain zeros) := bits_op _ rfl
theorem Bits.reduceTopk (f32 : BitVec 1) (vsrc : BitVec 1) (topk : BitVec 9) : Bits.Statement (.reduceTopk f32 vsrc topk) := bits_op _ rfl
theorem Bits.reduceWsum (f32 : BitVec 1) (sat : BitVec 1) (vec : BitVec 1) (vsrc : BitVec 1) (wsrc : BitVec 1) (grain : BitVec 1) (zeros : BitVec 1) : Bits.Statement (.reduceWsum f32 sat vec vsrc wsrc grain zeros) := bits_op _ rfl
theorem Bits.lwriteD (tv : BitVec 6) (vw : BitVec 2) : Bits.Statement (.lwriteD tv vw) := bits_op _ rfl
theorem Bits.lwriteC (ta : BitVec 6) (tb : BitVec 6) (tv : BitVec 6) (vw : BitVec 2) : Bits.Statement (.lwriteC ta tb tv vw) := bits_op _ rfl
theorem Bits.lwriteB (ta : BitVec 6) (tb : BitVec 6) (tv : BitVec 6) (vw : BitVec 2) : Bits.Statement (.lwriteB ta tb tv vw) := bits_op _ rfl
theorem Bits.mload (src : BitVec 1) (dir : BitVec 2) (tile : BitVec 6) (wfmt : BitVec 4) (mxm : BitVec 1) : Bits.Statement (.mload src dir tile wfmt mxm) := bits_op _ rfl
theorem Bits.mswap (trig : BitVec 2) : Bits.Statement (.mswap trig) := bits_op _ rfl
theorem Bits.mstream (afmt : BitVec 4) (mxm : BitVec 1) : Bits.Statement (.mstream afmt mxm) := bits_op _ rfl
theorem Bits.idle : Bits.Statement (.idle) := bits_switch _ rfl
theorem Bits.route (src : BitVec 3) (mask : BitVec 8) (vc : BitVec 1) : Bits.Statement (.route src mask vc) := bits_switch _ rfl
theorem Bits.routeB (src : BitVec 3) (mask : BitVec 8) : Bits.Statement (.routeB src mask) := bits_switch _ rfl
theorem Bits.steer (dat : BitVec 3) (ctl : BitVec 3) (outT : BitVec 3) (outF : BitVec 3) : Bits.Statement (.steer dat ctl outT outF) := bits_switch _ rfl
theorem Bits.merge (ctl : BitVec 3) (inT : BitVec 3) (inF : BitVec 3) (out : BitVec 3) : Bits.Statement (.merge ctl inT inF out) := bits_switch _ rfl
theorem Bits.carry (init : BitVec 3) (lp : BitVec 3) (ctl : BitVec 3) (out : BitVec 3) : Bits.Statement (.carry init lp ctl out) := bits_switch _ rfl
theorem Bits.fork (inp : BitVec 3) (mask : BitVec 8) : Bits.Statement (.fork inp mask) := bits_switch _ rfl
theorem Bits.abut (inp : BitVec 3) (out : BitVec 3) (scope : BitVec 3) (cls : BitVec 3) : Bits.Statement (.abut inp out scope cls) := bits_switch _ rfl
theorem Bits.linkTokenTransfer (cell port : Nat) (back : Bool) : Bits.Statement (.linkTokenTransfer cell port back) := bits_event _ rfl
theorem Bits.creditReturn (cell port vc : Nat) : Bits.Statement (.creditReturn cell port vc) := bits_event _ rfl
theorem Bits.switchStoreSoftError (cell pos : Nat) (word : BitVec 16) : Bits.Statement (.switchStoreSoftError cell pos word) := bits_event _ rfl
theorem Bits.endpointDelivery (cell src : Nat) : Bits.Statement (.endpointDelivery cell src) := bits_event _ rfl
theorem Bits.channelQueueArrival (cell q : Nat) : Bits.Statement (.channelQueueArrival cell q) := bits_event _ rfl
theorem Bits.channelQueueOffer (cell q : Nat) : Bits.Statement (.channelQueueOffer cell q) := bits_event _ rfl
theorem Bits.outputStageDelivery (cell e : Nat) : Bits.Statement (.outputStageDelivery cell e) := bits_event _ rfl
theorem Bits.elementControlFiring (cell e : Nat) : Bits.Statement (.elementControlFiring cell e) := bits_event _ rfl
theorem Bits.cfgFiring (cell e : Nat) : Bits.Statement (.cfgFiring cell e) := bits_event _ rfl
theorem Bits.actorFiringStart (cell : Nat) : Bits.Statement (.actorFiringStart cell) := bits_event _ rfl
theorem Bits.firingBudgetExpiry (cell : Nat) : Bits.Statement (.firingBudgetExpiry cell) := bits_event _ rfl
theorem Bits.seqAccessResponse (cell : Nat) (corrected : Option Nat) : Bits.Statement (.seqAccessResponse cell corrected) := bits_event _ rfl
theorem Bits.debugHalt (cell : Nat) : Bits.Statement (.debugHalt cell) := bits_event _ rfl
theorem Bits.debugPathWrite (cell : Nat) (ss : Option Bool) (code : Option (Nat × BitVec 32)) : Bits.Statement (.debugPathWrite cell ss code) := bits_event _ rfl
theorem Bits.scannerSeekTaken (cell sc : Nat) : Bits.Statement (.scannerSeekTaken cell sc) := bits_event _ rfl
theorem Bits.planeFull (cell : Nat) : Bits.Statement (.planeFull cell) := bits_event _ rfl
theorem Bits.nodeIntake (cell node : Nat) : Bits.Statement (.nodeIntake cell node) := bits_event _ rfl
theorem Bits.eorCounted (cell : Nat) : Bits.Statement (.eorCounted cell) := bits_event _ rfl
theorem Bits.matrixEot (cell : Nat) : Bits.Statement (.matrixEot cell) := bits_event _ rfl
theorem Bits.refreshWindowOpen (grp : Nat) : Bits.Statement (.refreshWindowOpen grp) := bits_event _ rfl
theorem Bits.refreshWindowClose (grp : Nat) : Bits.Statement (.refreshWindowClose grp) := bits_event _ rfl
theorem Bits.hbmUncorrectableError (pa : Nat) (corrected : Option Nat) : Bits.Statement (.hbmUncorrectableError pa corrected) := bits_event _ rfl
theorem Bits.copyCommandStart (cell : Nat) : Bits.Statement (.copyCommandStart cell) := bits_event _ rfl
theorem Bits.copyPayloadBlock (cell : Nat) : Bits.Statement (.copyPayloadBlock cell) := bits_event _ rfl
theorem Bits.weightStoreCopyStart (cell : Nat) : Bits.Statement (.weightStoreCopyStart cell) := bits_event _ rfl
theorem Bits.chainPassEnd (cell : Nat) : Bits.Statement (.chainPassEnd cell) := bits_event _ rfl
theorem Bits.remoteBlockAck (cell : Nat) : Bits.Statement (.remoteBlockAck cell) := bits_event _ rfl
theorem Bits.fillComplete (cell : Nat) : Bits.Statement (.fillComplete cell) := bits_event _ rfl
theorem Bits.gatherFillRow (cell : Nat) : Bits.Statement (.gatherFillRow cell) := bits_event _ rfl
theorem Bits.monitorWake (cell : Nat) : Bits.Statement (.monitorWake cell) := bits_event _ rfl
theorem Bits.xfenceComplete (cell : Nat) : Bits.Statement (.xfenceComplete cell) := bits_event _ rfl
theorem Bits.taskRelease (part lid x y : Nat) : Bits.Statement (.taskRelease part lid x y) := bits_event _ rfl
theorem Bits.taskFinish (part lid x y : Nat) : Bits.Statement (.taskFinish part lid x y) := bits_event _ rfl
theorem Bits.taskDrainAck (part lid x y cls : Nat) : Bits.Statement (.taskDrainAck part lid x y cls) := bits_event _ rfl
theorem Bits.flushUnit (part lid x y ri : Nat) : Bits.Statement (.flushUnit part lid x y ri) := bits_event _ rfl
theorem Bits.taskRetire (part lid x y : Nat) : Bits.Statement (.taskRetire part lid x y) := bits_event _ rfl
theorem Bits.launchCompletion (part lid : Nat) : Bits.Statement (.launchCompletion part lid) := bits_event _ rfl
theorem Bits.taskAbort (part lid x y : Nat) (va : BitVec 64) : Bits.Statement (.taskAbort part lid x y va) := bits_event _ rfl
theorem Bits.aditTokenWrite (part adit : Nat) (data : Option (BitVec 1024)) : Bits.Statement (.aditTokenWrite part adit data) := bits_event _ rfl
theorem Bits.aditLaunchEnqueue (part adit : Nat) : Bits.Statement (.aditLaunchEnqueue part adit) := bits_event _ rfl
theorem Bits.hostSpanEntry (part lid : Nat) : Bits.Statement (.hostSpanEntry part lid) := bits_event _ rfl
theorem Bits.hostStreamDone (part lid : Nat) : Bits.Statement (.hostStreamDone part lid) := bits_event _ rfl
theorem Bits.aditIngressEntry (part lid binding : Nat) : Bits.Statement (.aditIngressEntry part lid binding) := bits_event _ rfl
theorem Bits.aditEgressWrite (part lid binding : Nat) : Bits.Statement (.aditEgressWrite part lid binding) := bits_event _ rfl
theorem Bits.imageCheck (part : Nat) (id : BitVec 64) : Bits.Statement (.imageCheck part id) := bits_event _ rfl
theorem Bits.admissionPass (part : Nat) : Bits.Statement (.admissionPass part) := bits_event _ rfl
theorem Bits.placementLoadComplete (part lid : Nat) : Bits.Statement (.placementLoadComplete part lid) := bits_event _ rfl
theorem Bits.quantumExpiry (part lid : Nat) : Bits.Statement (.quantumExpiry part lid) := bits_event _ rfl
theorem Bits.yieldGraph (part lid : Nat) : Bits.Statement (.yieldGraph part lid) := bits_event _ rfl
theorem Bits.compactionMove (part lid : Nat) : Bits.Statement (.compactionMove part lid) := bits_event _ rfl
theorem Bits.msTransition (cell : Nat) : Bits.Statement (.msTransition cell) := bits_event _ rfl
theorem Bits.msActionComplete (cell : Nat) : Bits.Statement (.msActionComplete cell) := bits_event _ rfl
theorem Bits.tileDrainComplete (cell tile : Nat) : Bits.Statement (.tileDrainComplete cell tile) := bits_event _ rfl
theorem Bits.translationWalkComplete (walker : Nat × Nat) : Bits.Statement (.translationWalkComplete walker) := bits_event _ rfl
theorem Bits.ringRetry (cell port : Nat) : Bits.Statement (.ringRetry cell port) := bits_event _ rfl
theorem Bits.portResume (cell port : Nat) : Bits.Statement (.portResume cell port) := bits_event _ rfl
theorem Bits.invalidationRequest (part tensor first count : Nat) : Bits.Statement (.invalidationRequest part tensor first count) := bits_event _ rfl
theorem Bits.invalidationComplete (part : Nat) : Bits.Statement (.invalidationComplete part) := bits_event _ rfl
theorem Bits.remoteAccessHome (srcPkg : Nat) (place : RemotePlace) (off : Nat) (kind : RemoteKind) (data : List Byte) :
    Bits.Statement (.remoteAccessHome srcPkg place off kind data) := bits_event _ rfl
theorem Bits.expertFetchStart (part : Nat) : Bits.Statement (.expertFetchStart part) := bits_event _ rfl
theorem Bits.expertFetchComplete (part xid : Nat) : Bits.Statement (.expertFetchComplete part xid) := bits_event _ rfl
theorem Bits.expertFetchError (part xid : Nat) : Bits.Statement (.expertFetchError part xid) := bits_event _ rfl
theorem Bits.lodeReadTimeout (part xid : Nat) : Bits.Statement (.lodeReadTimeout part xid) := bits_event _ rfl
theorem Bits.expertRefetchTimer (part xid : Nat) : Bits.Statement (.expertRefetchTimer part xid) := bits_event _ rfl
theorem Bits.expertEvictionDone (part xid : Nat) : Bits.Statement (.expertEvictionDone part xid) := bits_event _ rfl
theorem Bits.embeddingStepComplete (part idx : Nat) : Bits.Statement (.embeddingStepComplete part idx) := bits_event _ rfl
theorem Bits.watchdogExpiry (part lid : Nat) : Bits.Statement (.watchdogExpiry part lid) := bits_event _ rfl
theorem Bits.barWake (cell : Nat) : Bits.Statement (.barWake cell) := bits_event _ rfl
theorem Bits.haltSwapCommand (p : Nat) (q : Option Nat) : Bits.Statement (.haltSwapCommand p q) := bits_event _ rfl
theorem Bits.haltSwapDrainComplete : Bits.Statement (.haltSwapDrainComplete) := bits_event _ rfl
theorem Bits.haltSwapRestore (eccOk : Bool) : Bits.Statement (.haltSwapRestore eccOk) := bits_event _ rfl
theorem Bits.graphFreeze (part lid : Nat) : Bits.Statement (.graphFreeze part lid) := bits_event _ rfl
theorem Bits.dumpRequest (part : Nat) (lid : Option Nat) : Bits.Statement (.dumpRequest part lid) := bits_event _ rfl
theorem Bits.graphRelease (part lid : Nat) : Bits.Statement (.graphRelease part lid) := bits_event _ rfl
theorem Bits.partitionFence (part : Nat) : Bits.Statement (.partitionFence part) := bits_event _ rfl
theorem Bits.cellFailure (cell : Nat) : Bits.Statement (.cellFailure cell) := bits_event _ rfl
theorem Bits.partitionLoad (part : Nat) (cfg : PartCfg) : Bits.Statement (.partitionLoad part cfg) := bits_event _ rfl
theorem Bits.partitionUnload (part : Nat) : Bits.Statement (.partitionUnload part) := bits_event _ rfl
theorem Bits.functionLevelReset (part : Nat) : Bits.Statement (.functionLevelReset part) := bits_event _ rfl
theorem Bits.pf0Reset : Bits.Statement (.pf0Reset) := bits_event _ rfl
theorem Bits.bypassMaxWrite (part : Nat) (v : BitVec 4) : Bits.Statement (.bypassMaxWrite part v) := bits_event _ rfl
theorem Bits.registerWrite (part : Nat) (reg : HostReg) (v : BitVec 64) : Bits.Statement (.registerWrite part reg v) := bits_event _ rfl
theorem Bits.imageAdd (part : Nat) (off len : Nat) (img : Image) : Bits.Statement (.imageAdd part off len img) := bits_event _ rfl
theorem Bits.imageRemove (part : Nat) (id : BitVec 64) : Bits.Statement (.imageRemove part id) := bits_event _ rfl
theorem Bits.attestationRequest (part : Option Nat) (nonce : BitVec 256) : Bits.Statement (.attestationRequest part nonce) := bits_event _ rfl
theorem Bits.powerLimitSet (watts : Nat) : Bits.Statement (.powerLimitSet watts) := bits_event _ rfl
theorem Bits.apertureWrite (part off : Nat) (data : List Byte) : Bits.Statement (.apertureWrite part off data) := bits_event _ rfl
theorem Bits.apertureRead (part off len : Nat) : Bits.Statement (.apertureRead part off len) := bits_event _ rfl
theorem Bits.aditEgbaseWrite (part adit : Nat) (base : BitVec 64) : Bits.Statement (.aditEgbaseWrite part adit base) := bits_event _ rfl
theorem Bits.faultRecordRead (part : Nat) : Bits.Statement (.faultRecordRead part) := bits_event _ rfl
theorem Bits.faultRingHeadAdvance (part n : Nat) : Bits.Statement (.faultRingHeadAdvance part n) := bits_event _ rfl
theorem Bits.linkFlitReceive (port : Nat) (flit : Flit) : Bits.Statement (.linkFlitReceive port flit) := bits_event _ rfl
theorem Bits.linkRetrain (port : Nat) : Bits.Statement (.linkRetrain port) := bits_event _ rfl
theorem Bits.packageIdWrite (id : BitVec 10) : Bits.Statement (.packageIdWrite id) := bits_event _ rfl
theorem Bits.lodeCopyService (part : Nat) (lode frame n : Nat) (toHbm : Bool) : Bits.Statement (.lodeCopyService part lode frame n toHbm) := bits_event _ rfl
theorem Bits.injectionArm (pf0 : Bool) (cell word bit : Nat) (all : Bool) : Bits.Statement (.injectionArm pf0 cell word bit all) := bits_event _ rfl
theorem Bits.startup (facts : BootFacts) : Bits.Statement (.startup facts) := bits_event _ rfl
theorem Bits.dvfsTrigger (point : Nat) (cause : DvfsCause) : Bits.Statement (.dvfsTrigger point cause) := bits_event _ rfl
theorem Bits.dvfsChangeComplete : Bits.Statement (.dvfsChangeComplete) := bits_event _ rfl
theorem Bits.caissonDiscard (part : Nat) : Bits.Statement (.caissonDiscard part) := bits_event _ rfl
theorem Bits.debuggerResume (cell : Nat) : Bits.Statement (.debuggerResume cell) := bits_event _ rfl
theorem Bits.firmwareUpdateCommand (good : Bool) : Bits.Statement (.firmwareUpdateCommand good) := bits_event _ rfl

end Sys2Proof.Laws
end

