-- ==== Sys2Proof/Laws/Seq.lean ====
section
/-! SUPPORT. What the shared operations of the sequencer do: completing an instruction, staying at issue, a transfer of
control, and trap entry. -/

namespace Sys2Proof.Machine

/-- Replacing the focused sequencer leaves everything else alone. -/
theorem OnlySeq.of_setSeq (s : State) (q : Seq) : OnlySeq s (s.setSeq q) := by
  have key : ∀ c, (s.setSeq q).cell c = { s.cell c with seq := ((s.setSeq q).cell c).seq } := by
    intro c
    by_cases h : s.focus.cell = c
    · subst h; simp
    · rw [State.cell_setSeq_ne s q h]
  refine ⟨fun c h => State.cell_setSeq_ne s q (Ne.symm h), by simp, rfl, ?_⟩
  exact ⟨fun _ => rfl, fun _ => rfl, fun _ => rfl, fun _ => rfl, fun _ => rfl, fun c a => by rw [key c],
    fun c a => by rw [key c], fun c a => by rw [key c], fun c => by rw [key c], fun _ => rfl⟩

/-- An instruction that completes with a register written does only that (R87, R105). -/
theorem State.doneG_gives (s : State) (d : BitVec 5) (v w : Word) (h : w = v) :
    ∃ t, s.doneG d w = .next t ∧ WritesReg s t d v := by
  subst h
  refine ⟨_, rfl, ?_, ?_, ?_, OnlySeq.of_setSeq _ _⟩
  · intro r; simp [Seq.getG_setG]
  · simp [GoesOn, Seq.stepPc]
  · simp only [State.seq_setSeq, Seq.stepPc, Seq.setG]; split <;> rfl

/-- An instruction that completes with no register written only moves the program counter (R105). -/
theorem State.done_gives (s : State) : ∃ t, s.done s.seq = .next t ∧ WritesReg s t 0 0 := s.doneG_gives 0 0 0 rfl

/-- An instruction that completes with a predicate written does only that (R87, R105). -/
theorem State.doneP_gives (s : State) (d : BitVec 3) (v w : Bool) (h : w = v) :
    ∃ t, s.done (s.seq.setP d w) = .next t ∧ WritesPred s t d v := by
  subst h
  refine ⟨_, rfl, ?_, ?_, ?_, OnlySeq.of_setSeq _ _⟩
  · intro r; simp [Seq.getP_setP]
  · simp [GoesOn, Seq.stepPc]
  · simp only [State.seq_setSeq, Seq.stepPc, Seq.setP]; split <;> rfl

/-- A taken transfer of control (R105). -/
theorem Seq.jumpTo_jumps (s : State) (t : BitVec 12) : JumpsTo s (s.setSeq (s.seq.jumpTo t)) t :=
  ⟨by simp [Seq.jumpTo], by simp [Seq.jumpTo], by simp [Seq.jumpTo], OnlySeq.of_setSeq _ _⟩

/-- A trap is taken where the sequencer takes traps (R109). -/
theorem State.trapOn_takes (s : State) (h : TakesTraps s) (cause : BitVec 8) (v : Word) (r : BitVec 12) (ls w : Word) :
    TrapsTo s (s.trapOn s.focus.cell cause v r ls w) cause v r ls := by
  obtain ⟨h1, h2⟩ := h
  unfold State.seq at h1 h2
  have e : s.trapOn s.focus.cell cause v r ls w = s.setSeq { s.seq with
      tr := { s.seq.tr with cause := cause, value := v, pc := r, ls := ls, tm := true, lastc := cause }
      loopst := 0
      pc := s.seq.tr.vec.extractLsb' 2 12
      wait := {} } := by
    simp only [State.trapOn, h1, h2, Bool.not_true, Bool.or_false, Bool.false_eq_true, if_false]; rfl
  rw [e]
  constructor <;> first | exact OnlySeq.of_setSeq _ _ | simp

/-- An instruction that traps with itself as the resume address answers that trap's entry (R107, R109). -/
theorem State.trapSelf_gives (s : State) (h : TakesTraps s) (cause : BitVec 8) (v w : Word) :
    ∃ t, s.trapSelf cause v w = .next t ∧ TrapsTo s t cause v s.seq.pc s.seq.loopst :=
  ⟨_, rfl, s.trapOn_takes h ..⟩

/-- ILLOP with the instruction word (R65). -/
theorem State.illop_gives (s : State) (h : TakesTraps s) (i : Instr) :
    ∃ t, s.illop i = .next t ∧ TrapsTo s t 0x01 (wordOf i) s.seq.pc s.seq.loopst := s.trapSelf_gives h ..

end Sys2Proof.Machine
end

