-- ==== Sys2Proof/Laws/Stream.lean ====
section
/-! SUPPORT. What the shared operations of the stream blocks do: the writes of a level writer that are performed (R256). -/

namespace Sys2Proof.Machine

/-- Writes that all stay inside their tiles are all performed. -/
theorem piecesFit_all (x : Cell) (ps : List (Nat × Nat × List Byte)) (h : ∀ q ∈ ps, q.2.1 + q.2.2.length ≤ (x.tile q.1).bytes) :
    piecesFit x ps = (ps, true) := by
  induction ps with
  | nil => rfl
  | cons q ps ih =>
    obtain ⟨n, off, bs⟩ := q
    simp only [List.mem_cons, forall_eq_or_imp] at h
    simp [piecesFit, ih h.2, Nat.not_lt.2 h.1]

/-- The writes before the first one past its tile's end are performed, and no other. -/
theorem piecesFit_stop (x : Cell) (pre post : List (Nat × Nat × List Byte)) (q : Nat × Nat × List Byte)
    (h : ∀ r ∈ pre, r.2.1 + r.2.2.length ≤ (x.tile r.1).bytes) (hq : (x.tile q.1).bytes < q.2.1 + q.2.2.length) :
    piecesFit x (pre ++ q :: post) = (pre, false) := by
  induction pre with
  | nil => simp [piecesFit, hq]
  | cons r pre ih =>
    obtain ⟨n, off, bs⟩ := r
    simp only [List.mem_cons, forall_eq_or_imp] at h
    simp [piecesFit, ih h.2, Nat.not_lt.2 h.1]

end Sys2Proof.Machine
end

