-- ==== Sys2Proof/Tests/Slice0.lean ====
section
/-! SUPPORT. The model's own tests, each proved by evaluation: terms that are not well formed are refused, words written out
from the encodings of spec/ decode to their instructions, single steps give what spec/ states, and witnesses show that the
hypotheses of the obligations can be met. -/

set_option Elab.async false

namespace Sys2Proof.Tests
open Sys2Proof Sys2Proof.Machine

/-! ### Well-formedness: for each check, a term that it refuses beside one that it accepts -/

/-- R68: a destination code that names nothing, and DSTB without DSTA. -/
theorem test_wf_dest : (Instr.vmov 0 0 0x34 0x3F).wf = false ∧ (Instr.vmov 0 0 0x3F 0x32).wf = false
    ∧ (Instr.vmov 0 0 0x33 0x3F).wf = true := by decide
/-- R116: types that an arithmetic, floating, shift or comparison word does not take, and RM with an integer type. -/
theorem test_wf_type : (Instr.vadd 4 0 0 0 0x30 0x3F).wf = false ∧ (Instr.vadd 0 1 0 0 0x30 0x3F).wf = false
    ∧ (Instr.vfma 0 0 0 0 0x30 0x3F).wf = false ∧ (Instr.vshl 1 0 0x30 0x3F).wf = false
    ∧ (Instr.vcmpEq 5 0 0x30 0x3F).wf = false ∧ (Instr.vnegAbs 0 1 0 0 0x30 0x3F).wf = false
    ∧ (Instr.vmin 4 0 0 0x30 0x3F).wf = false ∧ (Instr.vexp2 6 0 0 0 0x30 0x3F).wf = false
    ∧ (Instr.vadd 1 3 1 2 0x30 0x3F).wf = true := by decide
/-- R71: the shape without a meaning, and a scalar shape where a word needs a payload. -/
theorem test_wf_shape : (Instr.vmov 0 3 0x30 0x3F).wf = false ∧ (Instr.vsumAdd 0 0 0 0 0x30 0x3F).wf = false
    ∧ (Instr.vsumMin 0 0 0 0x30 0x3F).wf = false ∧ (Instr.vshuf 0 0 0x30 0x3F).wf = false
    ∧ (Instr.eld 0 3 0 0x30 0x3F).wf = false ∧ (Instr.vshuf 0 1 0x30 0x3F).wf = true := by decide
/-- R133, R137: destinations of HPROBE, HINS and ECFG. -/
theorem test_wf_elem : (Instr.hprobe 0x3E 0x3F).wf = false ∧ (Instr.hins 0x34 0x3F).wf = false
    ∧ (Instr.ecfg 0x10).wf = false ∧ (Instr.ecfg 0x0F).wf = true ∧ (Instr.ecfg 0x33).wf = true := by decide
/-- R238, R244, R249: a value tile named with no values, OSEL past 1, NEWAT together with SPAN. -/
theorem test_wf_block : (Instr.scanD 1 0 0).wf = false ∧ (Instr.scanC 0 0 1 0 0).wf = false ∧ (Instr.scanB 0 0 1 0 0).wf = false
    ∧ (Instr.isect 2 0 0 0 0).wf = false ∧ (Instr.union 3 0).wf = false ∧ (Instr.rept 1 1).wf = false
    ∧ (Instr.rept 0 1).wf = true ∧ (Instr.union 1 3).wf = true := by decide
/-- R251: the field pairs that a reducer's word may not hold, and K outside 1 to 256. -/
theorem test_wf_reduce : (Instr.reduceSum 1 1 0 0 0 0).wf = false ∧ (Instr.reduceSum 0 0 1 1 0 0).wf = false
    ∧ (Instr.reduceMin 0 0 0 1 1).wf = false ∧ (Instr.reduceWsum 0 0 0 0 1 0 0).wf = false
    ∧ (Instr.reduceOr 1 1 0 0).wf = false ∧ (Instr.reduceTopk 0 0 0).wf = false ∧ (Instr.reduceTopk 0 0 257).wf = false
    ∧ (Instr.reduceTopk 0 0 256).wf = true := by decide
/-- R255, R141, R144: a level writer with nothing to write, a load and a stream of a format that is not stationary. -/
theorem test_wf_matrix : (Instr.lwriteD 0 0).wf = false ∧ (Instr.lwriteC 0 0 1 0).wf = false ∧ (Instr.mload 0 0 0 7 0).wf = false
    ∧ (Instr.mload 1 0 1 7 0).wf = false ∧ (Instr.mload 1 0 0 5 0).wf = false ∧ (Instr.mstream 15 0).wf = false
    ∧ (Instr.mload 1 0 0 14 1).wf = true := by decide
/-- R74: switch words without an output, and ABUT with an unassigned scope or class. -/
theorem test_wf_switch : (Instr.route 0 0 0).wf = false ∧ (Instr.routeB 0 0).wf = false ∧ (Instr.fork 0 0).wf = false
    ∧ (Instr.abut 0 0 7 0).wf = false ∧ (Instr.abut 0 0 0 7).wf = false ∧ (Instr.abut 0 0 6 6).wf = true := by decide

/-! ### Decoding: words that spec/ writes out, or that are laid out by hand from its formats -/

/-- The worked encodings of 04_encoding.md. -/
theorem test_decode_sum : decodeControl 0x06300000 = some (.addImm 3 0 0) ∧ decodeControl 0x5050C000 = some (.ldW 5 1 0)
    ∧ decodeControl 0x04319400 = some (.addReg 3 3 5) ∧ decodeControl 0x06217FFF = some (.addImm 2 2 (-1))
    ∧ decodeControl 0x24200802 = some (.cmpLt 2 0 2) ∧ decodeControl 0x409FFFFB = some (.br 2 0 (-5))
    ∧ decodeControl 0x4A000000 = some .fend := by decide
/-- The words of the call under the ABI (05_sequencer_registers.md); AND is laid out by hand (log 69). -/
theorem test_decode_call : decodeControl 0x2A112345 = some (.ldi 1 0x12345) ∧ decodeControl 0x16108678 = some (.orImm 1 1 0x678)
    ∧ decodeControl 0x44000003 = some (.jal 3) ∧ decodeControl 0xA2008020 = some (.srw 1 0x20)
    ∧ decodeControl 0x36108002 = some (.hashsFold 1 1) ∧ decodeControl 0x1C738800 = some (.shlR 7 7 2)
    ∧ decodeControl 0x10109C00 = some (.andReg 1 1 7) ∧ decodeControl 0x46000000 = some (.jr 0)
    ∧ decodeControl 0xA0700011 = some (.srr 7 0x11) ∧ decodeControl 0x48038003 = some (.loopH 7 3) := by decide
/-- R203, R305, R322, R327: barriers, fences, regions and counters. -/
theorem test_decode_order : decodeControl 0x92500040 = some (.cntr 5 0 0x40) ∧ decodeControl 0x94000040 = some (.cntw 0 0 0x40)
    ∧ decodeControl 0x80428003 = some (.bar 4 5 3) ∧ decodeControl 0x88520000 = some (.regionAdd 5 4)
    ∧ decodeControl 0x88021401 = some (.regionShrink 4 5) ∧ decodeControl 0x7C000011 = some (.fenceAcq 1) := by decide
/-- R176, R218, R219, R287, R306: copies, actor ports, tiles and state tables. -/
theorem test_decode_engines : decodeControl 0x70429829 = some (.copy 4 5 6 0 0 0 2 1 0 1)
    ∧ decodeControl 0x68500001 = some (.take 5 0 0 0 1) ∧ decodeControl 0x6C838002 = some (.emit 8 7 2)
    ∧ decodeControl 0x6E321401 = some (.emits 3 4 5 1)
    ∧ decodeControl 0x82521800 = some (.tileClaim 5 4 6) ∧ decodeControl 0x96021800 = some (.stab 4 6) := by decide
/-- R309: the residency instructions. -/
theorem test_decode_expert : decodeControl 0x8A520000 = some (.xpref 5 4) ∧ decodeControl 0x8C520000 = some (.xpinPin 5 4)
    ∧ decodeControl 0x8C520001 = some (.xpinUnpin 5 4) ∧ decodeControl 0x8E520000 = some (.xevict 5 4) := by decide
/-- R65: a word with an unassigned OP, FN or field value is no instruction. -/
theorem test_decode_refused : decodeControl 0xFE000000 = none ∧ decodeControl 0x04000001 = none
    ∧ decodeControl 0x24800000 = none ∧ decodeControl 0x4A000001 = none := by decide
/-- R71, R119, R235-R256: operation words of elements, stream blocks and matrix engines. -/
theorem test_decode_op : decodeOpInstr 0x04400572 = some (.vfma 2 0 0 0 0x15 0x32)
    ∧ decodeOpInstr 0x0F8601BF = some (.vcvt 4 0 1 2 6 0x3F) ∧ decodeOpInstr 0x30218425 = some (.scanC 3 2 4 2 1)
    ∧ decodeOpInstr 0x31070000 = some (.isect 0 3 1 0 0) ∧ decodeOpInstr 0x34B34000 = some (.reduceWsum 1 0 0 1 1 0 1)
    ∧ decodeOpInstr 0x35228C3A = some (.lwriteC 5 6 7 1) ∧ decodeOpInstr 0x40100700 = some (.mload 1 0 0 7 0)
    ∧ decodeOpInstr 0x41100000 = some (.mswap 2) ∧ decodeOpInstr 0x420E0000 = some (.mstream 7 0) := by decide
/-- R142, R144, R148: the accumulator's and the output's configuration words. -/
theorem test_decode_config : decodeOp 0x43004000 = some (.accn 2) ∧ decodeOp 0x44000000 = some (.mscale 0 0 0) := by decide
/-- R74: switch words. -/
theorem test_decode_switch : decodeSwitchInstr 0x1C04 = some (.route 6 2 0) ∧ decodeSwitchInstr 0x660C = some (.fork 3 6)
    ∧ decodeSwitchInstr 0x0000 = some .idle ∧ decodeSwitchInstr 0x1C00 = none := by decide

/-! ### Small states -/

/-- Whether an instruction answers a next state that meets a test. -/
def next (i : Instr) (s : State) (f : State → Bool) : Bool := match exec i s with
  | .next t => f t
  | _ => false
/-- Whether an instruction answers the state it started from. -/
def keeps (i : Instr) (s : State) : Bool := next i s fun t => decide (t = s)

/-- Whether an access is refused for a given reason. -/
def refuses {α : Type} (r : Except AccFail α) (f : AccFail) : Bool := match r with
  | .error e => decide (e = f)
  | .ok _ => false

/-- A read-write region of 1 MiB of tensor 1. -/
def region1 : BitVec 256 := BitVec.ofNat 256 (2 ^ 48 + 2 ^ 64 * 2 ^ 20 + 2 ^ 104 * 2)
/-- A placed graph on bay 0 with one running task of span 5. -/
def graph1 : Graph := { lid := 1, entry := { lid := 1 }, loading := false, tasks := [{ st := 1, span := 5, regions := [region1] }] }
/-- The descriptor of a plain tensor of 131,072 bytes. -/
def desc1 : BitVec 512 := BitVec.ofNat 512 (9 + 2 ^ 192 * (131072 + 2 ^ 32) + 2 ^ 256 * (1 + 2 ^ 32))
/-- A chunk entry that permits every access: frame 3. -/
def entry1 : BitVec 64 := 0x600001F
/-- A sequencer that runs a firing of slot 0, with traps taken at word 0x40; g1 is 7, g2 5, g3 an address of the private
window, g4 one of tensor 1. -/
def seq1 : Seq := { g := [(1, 7), (2, 5), (3, 0xFFFF000000000040), (4, 0x0001000000000100)], running := true, tr := { vec := 0x101 } }
/-- A cell whose slot 0 has span 5 open. -/
def cell1 : Cell := { seq := seq1, slots := [(0, { valid := true, spanid := 5, spanOpen := true })] }
/-- Partition 0 on bays 0 and 1 with one image and the graph placed; cell 0 is an M-cell, 1 a D-cell, 3 an S-cell. -/
def part1 : Part :=
  { loaded := true, cfg := { bays := [0, 1], banks := 1, frames := [(3, 2)] }, graphs := [graph1], liveLids := [1]
    images := [{ img := { variants := [{}] }, state := 2 }] }
def base : State :=
  { hf := { boot := 1, booted := true }, parts := [(0, part1)]
    bays := [(0, { tlb := [{ tensor := 1, tr := { entry := entry1 } }], desc := [(1, desc1)] })], cells := [(0, cell1)] }
/-- The base state with the sequencer, the cell, the graph or the partition changed. -/
def onSeq (f : Seq → Seq) : State := base.setSeqAt 0 (f seq1)
def onCell (f : Cell → Cell) : State := base.modCell 0 f
def onGraph (f : Graph → Graph) : State := base.modGraph 0 1 f
def onPart (f : Part → Part) : State := base.modPart 0 f

/-! ### Single steps with results from spec/ -/

/-- R9, R10, R19: the worked example of the cell at (53, 18). -/
theorem test_cell_place : dieOf (cellAt 53 18) = 1 ∧ bayOf (cellAt 53 18) = 30 ∧ kindOf (cellAt 53 18) = 2
    ∧ maskBit (cellAt 53 18) = 21 ∧ colOf (cellAt 53 18) = 0 ∧ neighbour (cellAt 53 18) 3 = some (cellAt 52 18)
    ∧ kindOf (cellAt 52 18) = 0 := by decide
/-- R48: the borderline quotients and remainders. -/
theorem test_div : next (.divS 9 10 11) (onSeq fun q => { q with g := [(10, 7), (11, BitVec.ofInt 64 (-2))] })
      (fun t => t.seq.getG 9 == BitVec.ofInt 64 (-3)) = true
    ∧ next (.remS 9 10 11) (onSeq fun q => { q with g := [(10, BitVec.ofInt 64 (-7)), (11, 2)] })
      (fun t => t.seq.getG 9 == BitVec.ofInt 64 (-1)) = true
    ∧ next (.divU 9 1 0) base (fun t => t.seq.getG 9 == 0xFFFFFFFFFFFFFFFF) = true
    ∧ next (.remU 9 1 0) base (fun t => t.seq.getG 9 == 7) = true
    ∧ next (.divS 9 10 11) (onSeq fun q => { q with g := [(10, 0x8000000000000000), (11, 0xFFFFFFFFFFFFFFFF)] })
      (fun t => t.seq.getG 9 == 0x8000000000000000) = true := by decide
/-- R61: hash_fold of the example; R95: an addition that wraps. -/
theorem test_fold : next (.hashsFold 1 1) (onSeq fun q => { q with g := [(1, 0x12345678)] })
      (fun t => t.seq.getG 1 == 0x1234444C) = true
    ∧ next (.addImm 1 1 (-8)) base (fun t => t.seq.getG 1 == 0xFFFFFFFFFFFFFFFF && t.seq.pc == 1) = true := by decide
/-- R59: the conversions of F32 that spec/ works out. -/
theorem test_convert : cvtLane 1 4 0 false 0x43960000 = 0x79 ∧ cvtLane 1 4 2 false 0x43960000 = 0x7A
    ∧ cvtLane 1 4 0 false 0x43E80000 = 0x7E ∧ cvtLane 1 4 0 false 0x43FA0000 = 0x7F ∧ cvtLane 1 4 0 true 0x43FA0000 = 0x7E
    ∧ cvtLane 1 4 3 true 0xFF800000 = 0xFE ∧ cvtLane 1 2 0 false 0x3F808000 = 0x3F80
    ∧ cvtLane 1 2 2 false 0x3F808000 = 0x3F81 ∧ cvtLane 1 3 1 false 0x4788B800 = 0x7BFF := by decide
/-- R104: the clause header of the worked example. -/
theorem test_loop : next (.loopH 7 3) (onSeq fun q => { q with g := [(7, 5)], pc := 0x40 })
      (fun t => t.seq.pc == 0x41 && t.seq.loopst == 0x8000304100000005) = true := by decide
/-- R105: the last word of a body with one iteration left ends the clause; with two left it loops. -/
theorem test_clause_end : next .nop (onSeq fun q => { q with pc := 0x43, loopst := 0x8000304100000001 })
      (fun t => t.seq.pc == 0x44 && t.seq.loopst == 0) = true
    ∧ next .nop (onSeq fun q => { q with pc := 0x43, loopst := 0x8000304100000002 })
      (fun t => t.seq.pc == 0x41 && t.seq.loopst == 0x8000304100000001) = true := by decide
/-- R109, R110: the FIRING trap of the worked example, and the return from it. -/
theorem test_firing_trap : next (.firingBudgetExpiry 0)
      (onSeq fun q => { q with pc := 0x41, loopst := 0x8000304100000005, budget := 65537, tr := { vec := 0xC01 } })
      (fun t => t.seq.pc == 0x300 && t.seq.loopst == 0 && t.seq.tr.cause == 7 && t.seq.tr.pc == 0x41
        && t.seq.tr.ls == 0x8000304100000005) = true
    ∧ next .tret (onSeq fun q => { q with pc := 0x300, tr := { tm := true, cause := 7, pc := 0x41, ls := 0x8000304100000005 } })
      (fun t => t.seq.pc == 0x41 && t.seq.loopst == 0x8000304100000005 && t.seq.budget == 0) = true := by decide
/-- R102: JAL saves the byte address after it; JR 0 returns to it. -/
theorem test_call : next (.jal 3) (onSeq fun q => { q with pc := 3 }) (fun t => t.seq.pc == 6 && t.seq.lk == 0x10) = true
    ∧ next (.jr 0) (onSeq fun q => { q with lk := 0x10 }) (fun t => t.seq.pc == 4) = true := by decide
/-- R87: a write of g0 and of p0 is discarded. -/
theorem test_g0 : next (.addReg 0 1 2) base (fun t => t.seq.getG 0 == 0 && t.seq.g == base.seq.g) = true
    ∧ next (.cmpNe 0 1 1) base (fun t => t.seq.getP 0) = true := by decide
/-- R153, R168, R169: a store of bytes of the private window, lowest first, and a sign-extended load of one. -/
theorem test_private : next (.stH 1 3 1) (onSeq fun q => { q with g := [(1, 0xBEEF), (3, 0xFFFF000000000040)] })
      (fun t => memRead (t.cell 0).priv 0x41 == 0xEF && memRead (t.cell 0).priv 0x42 == 0xBE) = true
    ∧ next (.ldB 5 3 0) (onCell fun x => { x with priv := [(0x40, 0x80)] })
      (fun t => t.seq.getG 5 == 0xFFFFFFFFFFFFFF80) = true := by decide
/-- R171: a compare-and-swap that matches, and one off its alignment. -/
theorem test_cas : next (.acas 1 3 2) (onCell fun x => { x with priv := [(0x40, 7)] })
      (fun t => t.seq.getG 1 == 7 && memNat (t.cell 0).priv 0x40 8 == 5) = true
    ∧ next (.acas 1 2 2) base (fun t => t.seq.tr.cause == 3 && t.seq.tr.value == 5) = true := by decide
/-- R167, R197: a load of tensor 1 through its chunk entry reads frame 3; one outside the regions traps UNDECL. -/
theorem test_chunk : next (.ldW 5 4 0) { base with mem := { hbm := [(0x30100, 0x21), (0x30101, 0x43)] } }
      (fun t => t.seq.getG 5 == 0x4321) = true
    ∧ next (.ldW 5 4 0) (onSeq fun q => { q with g := [(4, 0x0002000000000100)] })
      (fun t => t.seq.tr.cause == 4 && t.seq.tr.value == 0x0002000000000100) = true := by decide +kernel

/-! ### Witnesses: concrete states and operands that meet the hypotheses of the obligations -/

/-- StepRunsDecoded: an instruction that may issue, a latched trap, a cell that may not, an element, a block and a switch
word that fire, and an event that wakes nothing. -/
theorem test_witness_StepRunsDecoded : base.mayIssue 0 = true ∧ (base.seqAt 0).pending = none
    ∧ decodeControl (BitVec.ofNat 32 (memNat (base.cell 0).code 0 4)) = some (.ill 0)
    ∧ decodeControl (BitVec.ofNat 32 (memNat [(3, 0xFE)] 0 4)) = none
    ∧ (onSeq fun q => { q with pending := some (6, 5) }).mayIssue 0 = true ∧ base.mayIssue 1 = false
    ∧ base.cellLive 0 = true ∧ elemInstr 0x04400572 = some (.vfma 2 0 0 0 0x15 0x32) ∧ 0 < elemCount 0
    ∧ unitIn 3 21 = true ∧ unitWordOk 21 0x34900140 = true ∧ decodeOp 0x34900140 = some (.instr (.reduceTopk 1 0 10))
    ∧ decodeSwitch 0x1C04 = some (.instr (.route 6 2 0)) ∧ decodeSwitch 0x1C00 = none
    ∧ wakes (.eorCounted 1) = none ∧ (Instr.eorCounted 1).cls = .event ∧ wakes (.barWake 0) = some 0 := by decide +kernel
/-- HeadframeKept, MemoriesKept, InvAtReset: the base state and the state after reset meet both invariants. -/
theorem test_witness_Inv : (Memory.wf base.mem.hbm = true ∧ Memory.wf base.mem.ws = true ∧ Memory.wf base.mem.lode = true
    ∧ Memory.wf base.mem.remote = true ∧ Memory.wf base.mem.host = true)
    ∧ (base.hf.boot ≤ 4 ∧ base.hf.point < 3 ∧ base.hf.toPoint = none ∧ base.hf.watts ≤ 2600)
    ∧ Memory.wf State.reset.mem.hbm = true := by decide
/-- The base state takes traps. -/
theorem test_witness_TakesTraps : base.seq.tr.tm = false ∧ base.seq.tr.vec.getLsbD 0 = true := by decide
/-- ComparisonsAndPredicates: words of each form, and words that trap. -/
theorem test_witness_ComparisonsAndPredicates : (let w : BitVec 32 := 0x24200802
      w.extractLsb' 25 7 = 0x12 ∧ w.extractLsb' 23 2 = 0 ∧ w.extractLsb' 20 3 = 2#3 ∧ w.extractLsb' 15 5 = 0#5
      ∧ w.extractLsb' 10 5 = 2#5 ∧ w.extractLsb' 0 10 = 2#10)
    ∧ ((0x24800000 : BitVec 32).extractLsb' 23 2 ≠ 0) ∧ ((0x28000100 : BitVec 32).extractLsb' 25 7 = 0x14)
    ∧ ((0x28000100 : BitVec 32).extractLsb' 8 2 ≠ 0) ∧ ((0x34800000 : BitVec 32).extractLsb' 25 7 = 0x1A)
    ∧ ((0x34800000 : BitVec 32).extractLsb' 23 2 ≠ 0) := by decide
/-- FieldsAndCounts: a field that ends at bit 63, and one that passes it. -/
theorem test_witness_FieldsAndCounts : (60#6).toNat + ((3#6).toNat + 1) ≤ 64 ∧ 64 < (60#6).toNat + ((4#6).toNat + 1) := by decide
/-- Transfers: a branch taken and not, and JR at the last word, past the store and off a word. -/
theorem test_witness_Transfers : base.seq.getP 0 = ((0 : BitVec 1) == 0) ∧ base.seq.getP 0 ≠ ((1 : BitVec 1) == 0)
    ∧ next (.jr 1) (onSeq fun q => { q with g := [(1, 0x3FFC)] }) (fun t => t.seq.pc == 4095) = true
    ∧ next (.jr 1) (onSeq fun q => { q with g := [(1, 0x4000)] }) (fun t => t.seq.tr.cause == 1) = true
    ∧ next (.jr 1) base (fun t => t.seq.tr.cause == 3) = true := by decide
/-- Clauses: a header whose body ends at the last word; counts of 0, 1, 2^32 - 1 and 2^32. -/
theorem test_witness_Clauses : (onSeq fun q => { q with pc := 4092 }).seq.pc.toNat + (3#6).toNat ≤ 4095
    ∧ next (.loopH 0 3) (onSeq fun q => { q with pc := 4092 }) (fun t => t.seq.pc == 0) = true
    ∧ next (.loopH 1 3) (onSeq fun q => { q with g := [(1, 0xFFFFFFFF)] }) (fun t => t.seq.loopst == 0x80003001FFFFFFFF) = true
    ∧ next (.loopH 1 3) (onSeq fun q => { q with g := [(1, 0x100000000)] }) (fun t => t.seq.tr.value == 0x100000000) = true
    ∧ next (.loopH 1 4) (onSeq fun q => { q with pc := 4092 }) (fun t => t.seq.tr.cause == 1) = true
    ∧ next (.loopH 1 0) base (fun t => t.seq.tr.cause == 1) = true := by decide
/-- TrapsTaken: BRK with MODE.BE 1 and 0, a word with d not zero, and a trap that nothing handles in a placed graph. -/
theorem test_witness_TrapsTaken : next (.brk 5) (onSeq fun q => { q with tr := { q.tr with be := true } }) (fun t => t.seq.tr.cause == 10) = true
    ∧ next (.brk 5) base (fun t => t.seq.pc == 1) = true ∧ next (.trapI 5) base (fun t => t.seq.tr.pc == 1) = true
    ∧ decodeControl 0xA4000007 = some (.trapI 7) ∧ decodeControl 0xA4100007 = none ∧ decodeControl 0xA8000007 = some (.brk 7)
    ∧ base.graphAt 0 = some (0, graph1)
    ∧ next (.trapI 5) (onSeq fun q => { q with tr := {} }) (fun t => t.seq.stuck && (t.graph 0 1).any (·.freeze.isSome)) = true := by
  decide +kernel
/-- TrapReturn: in trap mode with TRAPPC outside TRAPLS's body, and outside trap mode. -/
theorem test_witness_TrapReturn :
    next .tret (onSeq fun q => { q with tr := { tm := true, cause := 5, pc := 0x50, ls := 0x8000304100000005 }, budget := 9 })
      (fun t => t.seq.pc == 0x50 && t.seq.loopst == 0 && t.seq.budget == 9) = true
    ∧ next .tret base (fun t => t.seq.tr.cause == 1 && t.seq.tr.value == 0xA6000000) = true
    ∧ decodeControl 0xA6000001 = none := by decide
/-- PrivateMemory, PrivateAtomics: the last bytes of the window. -/
theorem test_witness_PrivateMemory : (let va := vaPlus 0xFFFF000000000000 ((0x7FF : BitVec 12).signExtend 48)
      vaTensor va = 0xFFFF ∧ vaOff va = 0x7FF ∧ 0x7FF + 8 ≤ 0x4000)
    ∧ (let va := vaPlus 0xFFFF000000003FF8 0
       vaTensor va = 0xFFFF ∧ vaOff va = 0x3FF8 ∧ 0x3FF8 + 8 ≤ 0x4000 ∧ 0x3FF8 % 8 = 0) := by decide
/-- AccessFates: an access performed, one refused, one that leaves the window, and addresses off their alignment. -/
theorem test_witness_AccessFates : (base.readVa (base.seqWho 0) 0x0001000000000100 8).isOk = true
    ∧ (base.writeVa (base.seqWho 0) 0x0001000000000100 [1, 2]).isOk = true
    ∧ refuses (base.readVa (base.seqWho 0) 0x0002000000000100 8) (.bad 4 0x0002000000000100) = true
    ∧ (let va := vaPlus 0xFFFF000000003FF9 0
       vaTensor va = 0xFFFF ∧ 0x4000 < vaOff va + 8 ∧ vaOff va % 65536 + 8 ≤ 65536)
    ∧ next (.ldD 5 6 0) (onSeq fun q => { q with g := [(6, 0xFFFF000000003FF9)] }) (fun t => t.seq.tr.cause == 5) = true
    ∧ (base.seq.getG 2).toNat % 4 ≠ 0 := by decide +kernel
/-- MonitorInstructions: the monitor armed on 8 bytes that differ from the reference and that do not. -/
theorem test_witness_Monitor : (base.locate (base.seqWho 0) .rd 0x0001000000000100 8).isOk = true
    ∧ next (.marm 1 4 0) base (fun t => t.seq.mon.armed && t.seq.mon.ref == 7) = true
    ∧ next (.mwait 9) (onSeq fun q => { q with mon := { addr := 0x0001000000000100, ref := 7, armed := true } })
      (fun t => t.seq.getG 9 == 0 && t.seq.pc == 1) = true
    ∧ next (.mwait 9) (onSeq fun q => { q with mon := { addr := 0x0001000000000100, ref := 0, armed := true } })
      (fun t => t.seq.wait.mwait == some 9 && t.seq.pc == 0) = true
    ∧ next (.monitorWake 0) (onSeq fun q => { q with
        mon := { addr := 0x0001000000000100, ref := 7, armed := true }, wait := { mwait := some 9 } })
      (fun t => t.seq.getG 9 == 0 && t.seq.pc == 1) = true
    ∧ next (.mwait 9) base (fun t => t.seq.tr.cause == 1) = true := by decide +kernel
/-- Fences: XFENCE that waits, completes, and one with an unassigned class. -/
theorem test_witness_Fences : next (.xfence 0 3 3) base (fun t => t.seq.wait.xfence == some (3, 0, 3)) = true
    ∧ next (.xfenceComplete 0) (onSeq fun q => { q with wait := { xfence := some (3, 0, 3) } }) (fun t => t.seq.pc == 1) = true
    ∧ next (.xfence 6 3 3) base (fun t => t.seq.tr.cause == 1) = true
    ∧ next (.fenceFull 7) base (fun t => t.seq.tr.cause == 1) = true := by decide +kernel
/-- Barriers: a subgroup of two actors of which one arrives first and then the other, and the wake. -/
theorem test_witness_Barriers : (let s := onSeq fun q => { q with g := [(1, 0x110000), (2, 2)] }
      subgroupOk graph1 0 (s.seq.getG 1) = true ∧ graph1.barrierEntry (s.seq.getG 1) = some 0
      ∧ next (.bar 1 2 3) s (fun t => t.seq.barst.arr && t.seq.pc == 0) = true)
    ∧ next (.bar 1 2 3) ((onGraph fun g => { g with barriers := [(0, { grp := 0x110000, n := 2, arrivals := 1, used := true })] }).setSeqAt 0
        { seq1 with g := [(1, 0x110000), (2, 2)] }) (fun t => !t.seq.barst.arr && t.seq.pc == 1) = true
    ∧ next (.barWake 0) ((onGraph fun g => { g with barriers := [(0, { grp := 0x110000, n := 2, gen := 1, used := true })] }).setSeqAt 0
        { seq1 with wait := { bar := some 3 }, barst := { arr := true } })
      (fun t => !t.seq.barst.arr && t.seq.pc == 1) = true := by decide +kernel
/-- Firings: a free sequencer with an eligible slot, the choice of each level, and FEND with and without an abort. -/
theorem test_witness_Firings : (let s := onSeq fun q => { q with running := false }
      s.cellLive 0 = true ∧ ((s.cell 0).slot 0).eligible = true
      ∧ (s.seqAt 0).sched.choose (fun _ => false) (fun k => k == 0) = some (0, { loLast := 0 })
      ∧ next (.actorFiringStart 0) s (fun t => t.seq.running && t.seq.getG 31 == 0xFFFF000000000000) = true)
    ∧ (({ hiLast := 2, hiRun := 15 } : Sched).choose (fun k => k == 2) (fun _ => true)).map (·.1) = some 2
    ∧ (({ lowOwed := true } : Sched).choose (fun _ => true) (fun k => k == 7)).map (·.1) = some 7
    ∧ next .fend base (fun t => !t.seq.running) = true
    ∧ graph1.taskOf 5 = graph1.task 0 0
    ∧ next .fend (onSeq fun q => { q with tr := { q.tr with tm := true, cause := 4 } })
      (fun t => !t.seq.running && (t.graph 0 1).any fun g => g.stAt 0 0 == 4) = true := by decide +kernel
/-- SystemRegisters: the number past each range, and TRAPPC in and out of trap mode. -/
theorem test_witness_SystemRegisters : next (.srr 9 0x2F) (onCell fun x => x.setSlot 0 { a := [(15, 3)] }) (fun t => t.seq.getG 9 == 3) = true
    ∧ next (.srr 9 0x30) base (fun t => t.seq.tr.cause == 1) = true ∧ next (.srr 9 0x1F) base (fun t => t.seq.tr.cause == 1) = true
    ∧ next (.srw 1 0x0A) (onSeq fun q => { q with tr := { tm := true } }) (fun t => t.seq.tr.pc == 1) = true
    ∧ next (.srw 1 0x0A) base (fun t => t.seq.tr.pc == 0 && t.seq.pc == 1) = true
    ∧ next (.srw 1 0x10) base (fun t => t.seq.tr.cause == 2 && t.seq.tr.value == 0x10) = true := by decide
/-- A token port of slot 0 and a token at it. -/
def port1 : State := onCell fun x => { x with
  slots := [(0, { valid := true, spanid := 5, spanOpen := true, inq := [(1, [{ kind := 0, ref := 9, coord := 3 }])] })]
  router := { x.router with epIn := [(2, 0xB1)], epOut := [(2, 0x208)] } }
/-- ActorPorts: a bound port with a token, without one, one with a payload to store, and a full emit port. -/
theorem test_witness_ActorPorts : (port1.cell 0).inBound 0x31 = true ∧ (port1.cell 0).outBound 2 = true
    ∧ next (.take 9 0 0 0 1) port1 (fun t => t.seq.getG 9 == 9 && (SMap.get [] t.runSlot.inq 1).isEmpty) = true
    ∧ next (.peek 9 0 0 0 1 1) port1 (fun t => t.seq.getG 9 == 3 && (SMap.get [] t.runSlot.inq 1).length == 1) = true
    ∧ next (.peek 9 0 1 0 1 1) port1 (fun t => t.seq.wait.stall == 2 && t.seq.pc == 0) = true
    ∧ next (.emit 1 2 2) port1 (fun t => SMap.get [] t.runSlot.outq 2 == [{ coord := 7, ref := 5 }]) = true
    ∧ (port1.writeVa (port1.seqWho 0) 0xFFFF000000000040 (natLe 0 64)).isOk = true
    ∧ next (.emit 1 2 2) (port1.modRunSlot fun k => { k with outq := [(2, List.replicate 8 {})] }) (fun t => t.seq.pc == 0) = true
    ∧ next (.emits 1 3 3 2) (port1.setSeqAt 0 { seq1 with g := [(1, 0x80), (3, 0xFFFF000000000040)] })
      (fun t => (SMap.get [] t.runSlot.outq 2).any (·.pl)) = true := by decide +kernel
/-- BoundaryEvents: a budget spent at a boundary, held accesses with and without a fault, and a cell halted for the debugger. -/
theorem test_witness_BoundaryEvents : next (.firingBudgetExpiry 0) (onSeq fun q => { q with budget := 65537 }) (fun t => t.seq.tr.cause == 7) = true
    ∧ (onSeq fun q => { q with budget := 65537 }).seq.boundary = true ∧ base.portBusy 0 0x80 = false
    ∧ next (.seqAccessResponse 0 none) (onSeq fun q => { q with wait := { hold := some {} } }) (fun t => t.seq.wait.hold.isNone) = true
    ∧ next (.seqAccessResponse 0 none) (onSeq fun q => { q with wait := { hold := some { trap := some (6, 5) } } })
      (fun t => t.seq.tr.cause == 6) = true
    ∧ next (.seqAccessResponse 0 none) { (onSeq fun q => { q with wait := { hold := some { trap := some (6, 5) } } }) with
        hf := { base.hf with swap := some {} } } (fun t => t.seq.pending == some (6, 5)) = true
    ∧ next (.debugHalt 0) base (fun t => t.seq.dbg) = true
    ∧ next (.debuggerResume 0) (onSeq fun q => { q with dbg := true }) (fun t => !t.seq.dbg) = true
    ∧ next (.debugPathWrite 0 (some true) (some (4095, 0x11223344))) base
      (fun t => t.seq.tr.ss && memRead (t.cell 0).code 0x3FFF == 0x11) = true := by decide +kernel
/-- Counters: a cell counter read and written, one that is not written, S counter 4, an index out of range. -/
theorem test_witness_Counters : next (.cntr 9 0 0x40) (onCell fun x => { x with cnt := [(0x40, 8)] }) (fun t => t.seq.getG 9 == 8) = true
    ∧ base.cntBad (.cntr 9 0 0x40) 0x40 0 = none
    ∧ next (.cntw 0 1 0x45) base (fun t => SMap.get 0 (t.cell 0).cnt 0x45 == 7) = true
    ∧ next (.cntw 0 1 0x03) base (fun t => t.seq.pc == 1) = true ∧ next (.cntw 0 1 0x04) base (fun t => t.seq.tr.cause == 2) = true
    ∧ next (.cntr 9 0 0x48) base (fun t => t.seq.tr.cause == 1) = true
    ∧ next (.cntr 9 1 0x1F) (onSeq fun q => { q with g := [(1, 64)] }) (fun t => t.seq.tr.value == 64) = true := by decide

/-- A copy of 512 bytes inside tensor 1, and one that leaves its memory. -/
def copyRegs (src len : Word) : State := onSeq fun q => { q with g := [(1, src), (2, 0x0001000000000800), (6, len)] }
/-- The base state with a copy engine of cell 0. -/
def onEng (e : CopyEng) : State := onCell fun x => { x with m := { x.m with copy := e } }
/-- A command of 256 bytes and its chain running. -/
def cmd1 : CopyCmd := { src := 0x0001000000000100, dst := 0x0001000000000800, len := 256, seq := 1, span := some 5, last := true, assay := 1 }
def run1 : State := onEng { runs := [(0, { chain := [cmd1] })], cur := some 0 }
/-- CopyInstruction: a copy that joins the queue, one that waits for it, and one for each check stated. -/
theorem test_witness_CopyInstruction : base.servingCell 0 = some 0
    ∧ next (.copy 1 2 6 0 0 0 0 0 0 0) (copyRegs 0x0001000000000100 512) (fun t => (t.eng 0).queue.length == 1 && t.seq.pc == 1) = true
    ∧ next (.copy 1 2 6 0 0 0 0 0 0 0) ((copyRegs 0x0001000000000100 512).modEng 0 fun e => { e with queue := List.replicate 16 {} })
      (fun t => t.seq.pc == 0) = true
    ∧ next (.copy 1 2 6 0 0 0 0 0 0 0) (copyRegs 0x0001000000000100 7) (fun t => t.seq.tr.cause == 1) = true
    ∧ next (.copy 1 2 6 0 0 0 0 0 0 0) (copyRegs 0x0002000000000101 8) (fun t => t.seq.tr.cause == 3) = true
    ∧ (base.eng 0).openChain 0 = [] := by decide +kernel
/-- A tile of 16 blocks in cell 0. -/
def onTile (t : Tile) : State := onCell fun x => x.setTile 2 t
/-- FillInstruction: both forms with an empty tile and with a full one, and each step of the fill engine. -/
theorem test_witness_FillInstruction : next (.fillContiguous 1 2 2) ((onTile { size := 16 }).setSeqAt 0 { seq1 with g := [(1, 0x0001000000000100), (2, 64)] })
      (fun t => (t.fillEng 0).queue.length == 1 && ((t.cell 0).tile 2).state == 1) = true
    ∧ next (.fillContiguous 1 2 2) ((onTile { size := 16, state := 2 }).setSeqAt 0 { seq1 with g := [(1, 0x0001000000000100), (2, 64)] })
      (fun t => t.seq.pc == 0) = true
    ∧ next (.fillGather 1 2 6 2) ((onTile { size := 16 }).setSeqAt 0
        { seq1 with g := [(1, 0x0001000000000100), (2, 0x0001000000000200), (6, 0x20010)] })
      (fun t => (t.fillEng 0).queue.length == 1) = true
    ∧ (let k : FillCmd := { src := 0x0001000000000100, len := 64, tile := 2, span := some 5 }
       next (.fillComplete 0) ((onTile { size := 16, state := 1 }).modFill 0 fun e => { e with queue := [k] })
         (fun t => ((t.cell 0).tile 2).state == 2 && (t.fillEng 0).queue.isEmpty) = true)
    ∧ (let k : FillCmd := { src := 0x0001000000000000, index := 0x0001000000000200, gather := true, len := 16, rows := 1, tile := 2, span := some 5 }
       let s := (onTile { size := 16, state := 1 }).modFill 0 fun e => { e with queue := [k] }
       next (.gatherFillRow 0) s (fun t => (t.fillEng 0).pos == 16 && (t.fillEng 0).row == 1) = true
       ∧ next (.gatherFillRow 0) { s with mem := { s.mem with hbm := [(0x30202, 9)] } }
         (fun t => (t.fillEng 0).dropped == 1 && (t.fillEng 0).row == 1) = true
       ∧ next (.fillComplete 0) (s.modFill 0 fun e => { e with row := 1, pos := 16 })
         (fun t => ((t.cell 0).tile 2).state == 2) = true) := by decide +kernel
/-- The base state with tensor 2 a shadow window of cell 0's bay. -/
def shadow1 : State := { base with bays := [(0, { tlb := [{ tensor := 1, tr := { entry := entry1 } }], desc := [(1, desc1), (2, desc1 ||| 2)] })] }
/-- WindowBindings: a shadow window, a plain tensor, a tensor whose descriptor is not cached, and the last tensor with a descriptor. -/
theorem test_witness_WindowBindings :
    ((shadow1.cachedDesc 0 2).map (·.shadow)) = some true ∧ ((shadow1.cachedDesc 0 1).map (·.shadow)) = some false
    ∧ shadow1.cachedDesc 0 0xFFFD = none ∧ base.partOf 0 = some 0 ∧ base.servingCell 0 = some 0
    ∧ next (.wfree 6) (shadow1.setSeqAt 0 { seq1 with g := [(6, 0x0002000000000000)] }) (fun t => t.seq.pc == 1) = true
    ∧ next (.wfree 4) shadow1 (fun t => t.seq.tr.cause == 5) = true
    ∧ next (.wfree 6) (shadow1.setSeqAt 0 { seq1 with g := [(6, 0xFFFD000000000000)] })
      (fun t => t.seq.pc == 0 && (t.bay 0).walks.any fun w => w.desc && w.va == 0xFFFD000000000000) = true
    ∧ next (.wfree 6) (shadow1.setSeqAt 0 { seq1 with g := [(6, 0xFFFE000000000000)] }) (fun t => t.seq.tr.cause == 5) = true := by decide +kernel
/-- TileInstructions: each form in its needed state and in another. -/
theorem test_witness_TileInstructions : base.servingCell 0 = some 0 ∧ (base.cell 0).tileRoom 64 = some 0 ∧ (base.cell 0).tileRoom 0x40000 = some 0
    ∧ next (.tileClaim 9 1 6) (onSeq fun q => { q with g := [(1, 2), (6, 64)] }) (fun t => ((t.cell 0).tile 2).size == 1) = true
    ∧ next (.tileClaim 9 1 6) ((onTile { size := 4096 }).setSeqAt 0 { seq1 with g := [(1, 3), (6, 64)] })
      (fun t => t.seq.getG 9 == 0x8000000000000002) = true
    ∧ next (.tileReady 9 1 6) ((onTile { size := 1 }).setSeqAt 0 { seq1 with g := [(1, 2), (6, 0x1C)] })
      (fun t => ((t.cell 0).tile 2).state == 2 && ((t.cell 0).tile 2).mxm) = true
    ∧ next (.tileDrain 9 1) ((onTile { size := 1, state := 2 }).setSeqAt 0 { seq1 with g := [(1, 2)] })
      (fun t => ((t.cell 0).tile 2).state == 3) = true
    ∧ next (.tileDrain 9 1) ((onTile { size := 1, state := 1 }).setSeqAt 0 { seq1 with g := [(1, 2)] })
      (fun t => t.seq.getG 9 == 0x8000000000000001) = true
    ∧ next (.tileFree 9 1) ((onTile { size := 1 }).setSeqAt 0 { seq1 with g := [(1, 2)] }) (fun t => ((t.cell 0).tile 2).size == 0) = true
    ∧ next (.tileQuery 9 1) ((onTile { size := 1, state := 2 }).setSeqAt 0 { seq1 with g := [(1, 2)] })
      (fun t => t.seq.getG 9 == 0x40001000) = true := by decide +kernel
/-- Regions: a task with and without the record asked for, one full, and a cell with no task. -/
theorem test_witness_Regions : (base.runTask.map fun r => r.2.2.regions) = some [region1] ∧ (onSeq fun q => { q with actor := 1 }).runTask = none
    ∧ next (.regionQuery 9 0 1) base (fun t => t.seq.getG 9 == BitVec.ofNat 64 (2 ^ 20 + 2 ^ 41)) = true
    ∧ next (.regionQuery 9 1 1) base (fun t => t.seq.getG 9 == 0xFFFFFFFFFFFFFFFF) = true
    ∧ next (.regionShrink 0 5) (onGraph fun g => { g with tasks := [{ st := 1, span := 5, regions := [region1 &&& BitVec.ofNat 256 (2 ^ 105 - 1)] }] })
      (fun t => (t.graph 0 1).any fun g => g.tasks.all (·.regions.isEmpty)) = true
    ∧ next (.regionQuery 9 0 1) (onSeq fun q => { q with actor := 1 }) (fun t => t.seq.tr.cause == 1) = true := by decide +kernel
/-- MemorySequencer: STAB of one DRAIN entry, with GO, without, and while an action runs; transitions, an action, a drain. -/
theorem test_witness_MemorySequencer : kindOf 0 = 0
    ∧ (let s := (onCell fun x => { x with priv := [(0x40, 5)] }).setSeqAt 0 { seq1 with g := [(3, 0xFFFF000000000040), (6, 0x400100)] }
       (s.readVa (s.seqWho 0) (s.seq.getG 3) 32).isOk = true ∧ msOk 5 = true
       ∧ next (.stab 3 6) s (fun t => SMap.get 0 (t.ms 0).table 0 == 5) = true
       ∧ next (.stab 3 6) (s.modMs 0 fun k => { k with busy := true }) (fun t => t.seq.pc == 0) = true) := by decide +kernel
/-- CopyProgress: a queued command that may start, a block that is moved, one that awaits its home, and the next block. -/
theorem test_witness_CopyProgress : (onEng { queue := [cmd1] }).copyNext 0 0 = some 0
    ∧ next (.copyCommandStart 0) (onEng { queue := [cmd1] }) (fun t => (t.eng 0).cur == some 0) = true
    ∧ next (.weightStoreCopyStart 0) (onEng { queue := [{ cmd1 with ws := true, dst := 0 }] }) (fun t => (t.eng 0).cur == some 0) = true
    ∧ run1.curRun 0 = some (0, { chain := [cmd1] })
    ∧ (run1.readVa (copyWho 0 (some 5)) cmd1.src 256).isOk = true
    ∧ run1.touchesRemote (copyWho 0 (some 5)) .rd cmd1.src 256 = false
    ∧ next (.copyPayloadBlock 0) run1 (fun t => (t.curRun 0).any fun r => r.2.block == 1) = true
    ∧ next (.remoteBlockAck 0) (onEng { runs := [(0, { chain := [cmd1], ack := true })], cur := some 0 })
      (fun t => (t.curRun 0).any fun r => !r.2.ack) = true := by decide +kernel
/-- ChainEnd: a match in the first pass and in a rerun, a mismatch at the limit and before it, and an injection. -/
theorem test_witness_ChainEnd : next (.chainPassEnd 0) (onEng { runs := [(0, { chain := [cmd1], block := 1 })], cur := some 0 })
      (fun t => (t.eng 0).cur.isNone && memRead t.mem.hbm 0x30904 == 1 && memRead t.mem.hbm 0x30903 == 0) = true
    ∧ next (.chainPassEnd 0) (onEng { runs := [(0, { chain := [cmd1], block := 1, pass := 1 })], cur := some 0 })
      (fun t => (t.eng 0).cur.isNone && memRead t.mem.hbm 0x30903 == 0x31) = true
    ∧ next (.chainPassEnd 0) (onEng { runs := [(0, { chain := [{ cmd1 with expect := 1 }], block := 1 })], cur := some 0 })
      (fun t => memRead t.mem.hbm 0x30903 == 0x20 && SMap.get 0 (t.cell 0).cnt 0x0B == 1) = true
    ∧ next (.chainPassEnd 0) (onEng { runs := [(0, { chain := [{ cmd1 with expect := 1, retry := 2 }], block := 1 })], cur := some 0 })
      (fun t => (t.curRun 0).any fun r => r.2.pass == 1 && r.2.block == 0) = true
    ∧ next (.injectionArm true 0 3 35 false) base (fun t => t.armed 0 == some (3, 3, false)) = true
    ∧ next (.injectionArm true 1 3 35 false) base (fun t => (t.armed 1).isNone) = true := by decide +kernel

/-- A cell with tokens in the slots of an element, and the focus on it. -/
def onElem (c u : Nat) (x : Elem) : State := { (base.modCell c fun y => y.setElem u x) with focus := { cell := c, unit := u } }
/-- A DATA token with a scalar value; one with a payload whose lanes are all enabled; a DATA, STOP, SOT of span 5 and a DONE. -/
def dat (v : BitVec 64) : Token := { ref := v }
def vec (v : Nat) : Token := { pl := true, lmask := 0xFFFF, payload := BitVec.ofNat 512 v }
def sot5 : Token := { kind := 3, ref := 5 }
/-- Whether a word holds its tokens and may fire, as ElemHolds says. -/
def holds (s : State) (i : Instr) (ts : List Token) : Bool :=
  decide ((instrSlots i).mapM s.el.slot = some ts) && (ts.head?.map (·.kind) == some 0) && (ts.all fun t => !tkIsCtl t)
    && decide (s.el.out.length < instrStage i)
/-- ElementLanes: scalar and payload operands, an integer lane that saturates, a floating lane, and VHASH. -/
theorem test_witness_ElementLanes : (let s := onElem 0 1 { in0 := some (dat 0x7FFFFFFF), in1 := some (dat 2), in2 := some (dat 3) }
      holds s (.vadd 0 0 1 0 0x30 0x3F) [dat 0x7FFFFFFF, dat 2] = true ∧ holds s (.vsel 0 0 0x30 0x3F) [dat 0x7FFFFFFF, dat 2, dat 3] = true
      ∧ next (.vadd 0 0 1 0 0x30 0x3F) s (fun t => (t.el.out.map fun e => e.1.ref) == [0x7FFFFFFF]) = true
      ∧ next (.vadd 0 0 0 0 0x30 0x3F) s (fun t => (t.el.out.map fun e => e.1.ref) == [0x80000001]) = true
      ∧ next (.vhashFold 0 0x30 0x3F) s (fun t => (t.el.out.map fun e => e.1.ref) == [0x7FFF8000]) = true)
    ∧ (let s := onElem 0 1 { in0 := some (dat 0x3F800000), in1 := some (dat 0x40000000), in2 := some (dat 0x3F800000) }
       next (.vfma 1 0 0 0 0x30 0x3F) s (fun t => (t.el.out.map fun e => e.1.ref) == [0x40400000]) = true)
    ∧ (let s := onElem 0 1 { in0 := some (vec 0x0000000200000001), in1 := some (vec 0x0000000300000005) }
       next (.vmul 0 0 0 2 0x30 0x3F) s (fun t => (t.el.out.map fun e => e.1.payload) == [0x600000005]) = true) := by decide +kernel
/-- ElementWords: a conversion of a scalar and of a payload, a fold of integers and of F32, a shuffle, a constant, a CFG. -/
theorem test_witness_ElementWords : (let s := onElem 0 1 { k := [(0, 1)], in0 := some (dat 0x43960000) }
      holds s (.vcvt 4 0 0 0 0x30 0x3F) [dat 0x43960000] = true
      ∧ next (.vcvt 4 0 0 0 0x30 0x3F) s (fun t => (t.el.out.map fun e => e.1.ref) == [0x79]) = true)
    ∧ (let s := onElem 0 1 { k := [(0, 0x00020001), (2, 9)], in0 := some (vec 0x43960000), in1 := some (vec 0) }
       next (.vcvt 4 0 0 2 0x30 0x3F) s (fun t => (t.el.out.map fun e => e.1.payload.extractLsb' 0 8) == [0x79]) = true
       ∧ next (.vsumAdd 1 0 0 2 0x30 0x3F) s (fun t => (t.el.out.map fun e => e.1.ref) == [0x43960000]) = true
       ∧ next (.vsumMax 0 0 2 0x30 0x3F) s (fun t => (t.el.out.map fun e => e.1.ref) == [0x43960000]) = true
       ∧ next (.vshuf 6 2 0x30 0x3F) s (fun t => t.el.out.length == 1) = true
       ∧ next (.vconst 0 0 2 0x30 0x3F) s (fun t => (t.el.out.map fun e => e.1.ref) == [9]) = true
       ∧ next (.ecfg 5) s (fun t => (t.el.out.map fun e => (e.1.kind, e.1.coord)) == [(6, 0x20001)]) = true)
    ∧ tyFmt 1 = some fF32 ∧ tyFmt 0 = none := by decide +kernel
/-- ElementMemory: a load that its guard lets through and one that it holds back, a misaligned one, a store, and a table. -/
theorem test_witness_ElementMemory :
    (let s := onElem 0 1 { k := [(0, 1), (1, 0x100), (2, 4)], in0 := some (dat 1), in1 := some (dat 5), in2 := some (dat 1), span := some 5 }
     s.portBusy 0 3 = false ∧ holds s (.eld 0 0 0 0x30 0x3F) [dat 1] = true
     ∧ s.elWho.span = some 5 ∧ (s.readVa s.elWho (mkVa 1 0x104) 4).isOk = true
     ∧ next (.eld 0 0 0 0x30 0x3F) { s with mem := { hbm := [(0x30104, 7)] } } (fun t => (t.el.out.map fun e => e.1.ref) == [7]) = true
     ∧ next (.est 0 0 0x30 0x3F) s (fun t => memRead (t.dieFill 0 0).mem.hbm 0x30104 == 5) = true
     ∧ next (.est 0 0 0x30 0x3F) (s.setEl { s.el with in2 := some (dat 0) })
       (fun t => (t.el.out.map fun e => e.1.ref) == [0] && t.mem == s.mem) = true
     ∧ next (.eld 0 0 0 0x30 0x3F) (s.setEl { s.el with k := [(0, 1), (1, 0x102), (2, 4)] })
       (fun t => (t.graph 0 1).any (·.freeze.isSome)) = true)
    ∧ (let s := (onElem 0 1 { k := [(0, 2), (1, 0x303)], in0 := some (dat 5), in1 := some (dat 9), in2 := some (dat 1), span := some 5 }).modCell 0
         fun x => { (x.setTile 2 { size := 1, state := 2 }) with m := { (x.setTile 2 { size := 1, state := 2 }).m with
           scratch := (List.range 64).map fun i => (i, 0xFF) } }
       holds s (.hprobe 0x30 0x3F) [dat 5] = true ∧ (s.cell 0).tileReady 2 = true
       ∧ next (.hprobe 0x30 0x3F) s (fun t => (t.el.out.map fun e => e.1.absent) == [true]) = true
       ∧ next (.hins 0x30 0x3F) s (fun t => (t.cell 0).tileNat 2 40 4 == 5 && (t.cell 0).tileNat 2 44 4 == 9) = true) := by decide +kernel
/-- A stream block of a cell with input tokens, in span 5 where asked. -/
def onBlock (c u : Nat) (b : Block) : State := { (base.modCell c fun y => y.setBlock u b) with focus := { cell := c, unit := u } }
/-- Scanners: a dense scanner that opens a fibre, emits, ends it, closes it one level up, and takes a seek. -/
theorem test_witness_Scanners : (let s := onBlock 0 16 { k := [(0, 3)], inq := [(0, [dat 2])], span := some 5 }
      s.blkFree = true ∧ next (.scanD 0 0 0) s (fun t => ((t.cell 0).scanner 16).active) = true
      ∧ next (.scanD 0 0 0) (s.modCell 0 fun x => { x with m := { x.m with sc0 := { active := true, parent := 2, next := 1, stop := 3 } } })
        (fun t => t.blk.out == [{ coord := 1, ref := 7 }]) = true
      ∧ next (.scanD 0 0 0) (s.modCell 0 fun x => { x with m := { x.m with sc0 := { active := true, next := 3, stop := 3 } } })
        (fun t => ((t.cell 0).scanner 16).pend) = true)
    ∧ next (.scanD 0 0 0) (onBlock 0 16 { k := [(0, 3)], inq := [(0, [tkStop 1])], span := some 5 })
      (fun t => ((t.cell 0).scanner 16).owed == [tkStop 2]) = true
    ∧ next (.scanD 0 0 0) (onBlock 0 16 { k := [(0, 3)], inq := [(0, [dat 2])] }) (fun t => (t.graph 0 1).any (·.freeze.isSome)) = true
    ∧ decodeOp 0x30000001 = some (.instr (.scanD 0 0 1))
    ∧ next (.scannerSeekTaken 0 0) ((onBlock 0 16 { word := 0x30000001, k := [(0, 9)], back := [(0, [{ kind := 8, coord := 8 }])] }).modCell 0
        fun x => { x with m := { x.m with sc0 := { active := true, next := 1, stop := 9, win := .opened } } })
      (fun t => ((t.cell 0).scanner 16).next == 8) = true := by decide +kernel
/-- MergeUnits: equal coordinates, an intersection that drops, a union that emits, STOPs of one level and of two. -/
theorem test_witness_MergeUnits : (let s := fun (x y : Token) => onBlock 3 19 { inq := [(0, [x]), (1, [y])], span := some 5 }
      next (.isect 0 0 0 0 0) (s { coord := 4, ref := 1 } { coord := 4, ref := 2 }) (fun t => t.blk.out == [{ coord := 4, ref := 1 }]) = true
      ∧ next (.isect 0 0 1 1 0) (s { coord := 4 } { coord := 9 }) (fun t => t.blk.out.isEmpty && SMap.get [] t.blk.back 0 == [{ kind := 8, coord := 9 }]) = true
      ∧ next (.union 1 0) (s { coord := 4 } { coord := 9 }) (fun t => t.blk.out == [{ coord := 4, ref := 0xFFFFFFFFFFFFFFFF }]) = true
      ∧ next (.union 1 0) (s (tkStop 2) (tkStop 2)) (fun t => t.blk.out == [tkStop 2]) = true
      ∧ next (.isect 0 0 0 0 0) (s (tkStop 2) (tkStop 1)) (fun t => (t.graph 0 1).any (·.freeze.isSome)) = true
      ∧ next (.isect 0 0 0 0 0) (s { coord := 0xFFFFFFFF } (tkStop 1)) (fun t => (t.graph 0 1).any (·.freeze.isSome)) = true) := by
  decide +kernel
/-- FoldUnits: the repeater loads, replays and closes; a reducer folds and closes; a level writer writes and freezes at N. -/
theorem test_witness_FoldUnits : (let s := fun (x y : Token) => onBlock 3 20 { inq := [(0, [x]), (1, [y])], span := some 5 }
      next (.rept 0 0) (s { coord := 4 } (dat 0)) (fun t => t.rp.loading && t.rp.store.length == 1) = true
      ∧ next (.rept 0 0) (s (tkStop 0) (dat 0)) (fun t => t.rp.loaded) = true
      ∧ next (.rept 0 0) (s (dat 0) (tkStop 1)) (fun t => t.rp.owed == [tkStop 2]) = true)
    ∧ (let s := fun (x : Token) => onBlock 3 21 { inq := [(0, [x])], span := some 5 }
       next (.reduceSum 0 0 0 0 0 0) (s (dat 7)) (fun t => t.red.acc == 7 && t.red.any) = true
       ∧ next (.reduceTopk 0 0 3) (s { coord := 2, ref := 9 }) (fun t => t.red.rank == [(2, 9)]) = true
       ∧ next (.reduceSum 0 0 0 0 0 1) (s (tkStop 0)) (fun t => t.red.owed == [{ zero := true }]) = true)
    ∧ (let s := fun (x y : Token) => (onBlock 0 18 { k := [(0, 3)], inq := [(0, [x]), (1, [y])], span := some 5 }).modCell 0 fun x => x.setTile 4 { size := 1, state := 2 }
       next (.lwriteD 4 1) (s { coord := 2 } (dat 0x55)) (fun t => (t.cell 0).tileNat 4 8 4 == 0x55 && t.lwr.n == 1) = true
       ∧ next (.lwriteD 4 1) (s { coord := 3 } (dat 0x55)) (fun t => (t.graph 0 1).any (·.freeze.isSome)) = true) := by decide +kernel

/-- The D-cell 1 with tokens at the heads of its engines; tile 0 of M-cell 0 (its west neighbour) holds BF16 weights. -/
def mat (u : Nat) (w : BitVec 32) (t : Token) (m : Matrix) : State :=
  { ((onTile { size := 0 }).modCell 0 fun x => x.setTile 0 { size := 64, fmt := 7, state := 2 }).modCell 1 fun x =>
      { x.setBlock u { word := w, inq := [(0, [t])], span := some 5 } with mx := m } with focus := { cell := 1, unit := u } }
/-- MatrixCells: a load opened and finished, a swap asked for, a row streamed, and a node that takes a sum. -/
theorem test_witness_MatrixCells : kindOf 1 = 2 ∧ (mat 23 0 (dat 0) {}).wSrc 1 0 3 0 = some (.tile 0 0)
    ∧ next (.mload 0 3 0 0 0) (mat 23 0 (dat 0) {}) (fun t => (t.mx 1).load == some (0, 0) && (t.mx 1).shadow.state == 1) = true
    ∧ next (.mload 0 3 0 0 0) (mat 23 0 (dat 0x10000) {}) (fun t => (t.graph 0 1).any (·.freeze.isSome)) = true
    ∧ next (.mload 0 3 0 0 0) (mat 23 0 (dat 0) { load := some (0, 0), loadRow := 4 }) (fun t => (t.mx 1).loadRow == 5) = true
    ∧ next (.planeFull 1) (mat 23 0x400C0000 (dat 0) { load := some (0, 0), loadRow := 31 }) (fun t => (t.mx 1).load.isNone) = true
    ∧ next (.mswap 3) (mat 24 0 (dat 0) {}) (fun t => (t.mx 1).pend) = true
    ∧ next (.mstream 7 0) (mat 25 0 (vec 0x3F80) { planeA := { fmt := 7, state := 2, rows := [(0, 0x3F80)] } })
      (fun t => SMap.get [] (t.mx 1).fifos 0 == [.sum 0 0x3F800000] && SMap.get [] (t.mx 1).fifos 1 == [.sum 0 0]) = true
    ∧ next (.mstream 7 0) (mat 25 0 { vec 0 with coord := 32 } {}) (fun t => (t.graph 0 1).any (·.freeze.isSome)) = true
    ∧ next (.nodeIntake 1 3) (mat 25 0 (dat 0) { fifos := [(3, [.sum 2 0x3F800000])], nodes := [(98, 0x3F800000)] })
      (fun t => SMap.get 0 (t.mx 1).nodes 98 == 0x40000000 && (t.mx 1).added == 4) = true := by decide +kernel
/-- MatrixCells: an EOR in every column counted, and an EOT with no position marked. -/
theorem test_witness_MatrixNodes :
    (let s : State := State.modCell (mat 25 0x420E0000 (dat 0) { fifos := (List.range 32).map fun j => (j, [.eor]) }) 1
          fun x => (x.setBlock 26 { word := 0x43004000 }).setBlock 27 { word := 0x44000000 }
     next (.eorCounted 1) s (fun t => (t.mx 1).ec == 1) = true ∧ (s.cell 1).accCount = some 2
     ∧ next (.eorCounted 1) (s.modCell 1 fun x => { x with mx := { x.mx with ec := 1, added := 1 } })
        (fun t => ((t.cell 1).block 27).out.length == 64 && (t.mx 1).rc == 1) = true)
    ∧ next (.matrixEot 1) (mat 25 0x420E0000 { kind := 4, ref := 5 } {}) (fun t => ((t.cell 1).block 27).out.length == 1) = true := by
  decide +kernel
/-- ControlAndConfiguration: control tokens that pair and that do not, CFGs of an element, a block and the matrix engines. -/
theorem test_witness_ControlAndConfiguration :
    (let s := fun (x y : Token) => onElem 0 1 { word := 0x03000FFF, in0 := some x, in1 := some y }
     elemInstr 0x03000FFF = some (.vmul 0 0 0 0 0x3F 0x3F)
     ∧ next (.elementControlFiring 0 1) (s sot5 sot5) (fun t => t.el.span == some 5 && t.el.in0.isNone) = true
     ∧ next (.elementControlFiring 0 1) (s (tkStop 1) (tkStop 2)) (fun t => (t.graph 0 1).any (·.freeze.isSome)) = true
     ∧ next (.cfgFiring 0 1) (s { kind := 6, coord := 3, ref := 9 } (dat 0)) (fun t => t.el.const 2 == 9) = true
     ∧ next (.cfgFiring 0 1) (s { kind := 6, coord := 0, ref := 0x0300003F } (dat 0)) (fun t => t.el.word == 0x0300003F) = true
     ∧ next (.cfgFiring 0 1) (s { kind := 6, coord := 9 } (dat 0)) (fun t => (t.graph 0 1).any (·.freeze.isSome)) = true)
    ∧ next (.cfgFiring 0 16) (onBlock 0 16 { inq := [(0, [{ kind := 6, coord := 1, ref := 4 }])] }) (fun t => SMap.get 0 t.blk.k 0 == 4) = true
    ∧ next (.cfgFiring 0 16) (onBlock 0 16 { inq := [(0, [{ kind := 6, coord := 0x30001, ref := 4 }])] })
      (fun t => t.blk.out == [{ kind := 6, coord := 0x20001, ref := 4 }]) = true
    ∧ next (.cfgFiring 1 25) (mat 25 0x420E0000 { kind := 6, coord := 0x10000, ref := 0x43006000 } {})
      (fun t => ((t.cell 1).block 26).word == 0x43006000) = true
    ∧ next (.cfgFiring 1 23) (mat 23 0x400C0000 { kind := 6, coord := 0x10000, ref := 0x41100000 } {})
      (fun t => ((t.cell 1).block 24).word == 0x41100000) = true := by decide +kernel
/-- SwitchWords: a route that moves and one that waits, a steer each way, a fork, a merge, and a carry's first value. -/
theorem test_witness_SwitchWords : (let s := fun (m o : SMap (List Token)) => onCell fun x => { x with router := { x.router with inb := m, outb := o } }
      next (.route 6 2 0) (s [(18, [dat 1])] []) (fun t => SMap.get [] (t.cell 0).router.outb 3 == [dat 1]) = true
      ∧ keeps (.route 6 2 0) (s [(18, [dat 1])] [(3, [dat 2])]) = true
      ∧ next (.steer 6 5 1 2) (s [(18, [dat 1]), (15, [dat 0])] []) (fun t => SMap.get [] (t.cell 0).router.outb 6 == [dat 1]) = true
      ∧ next (.steer 6 5 1 2) (s [(15, [tkStop 0])] []) (fun t => (SMap.get [] (t.cell 0).router.inb 15).isEmpty) = true
      ∧ next (.fork 6 6) (s [(18, [dat 1])] [(6, [dat 2])]) (fun t => SMap.get 0 (t.cell 0).router.ready 0 == 4) = true
      ∧ next (.merge 5 6 7 1) (s [(18, [dat 1]), (15, [dat 1]), (21, [dat 3])] []) (fun t => SMap.get [] (t.cell 0).router.outb 3 == [dat 1]) = true
      ∧ next (.carry 6 7 5 1) (s [(18, [dat 1])] []) (fun t => SMap.get false (t.cell 0).router.phase 0) = true
      ∧ keeps .idle (s [] []) = true) ∧ decodeSwitch 0x1C00 = none := by decide +kernel
/-- Deliveries: a link from cell 0 to cell 1, its credit, an element's output, and a queue that receives and offers. -/
theorem test_witness_Deliveries : base.linkPeer 0 1 = some 1
    ∧ (let s := (onCell fun x => { x with router := { x.router with outb := [(3, [dat 1])], owed := [(3, 1)] } }).modCell 1
         fun x => { x with router := { x.router with words := [0x1604] } }
       (s.cell 1).router.reads 3 0 = true
       ∧ next (.linkTokenTransfer 0 1 false) s (fun t => SMap.get [] (t.cell 1).router.inb 9 == [dat 1]) = true
       ∧ next (.creditReturn 0 1 0) s (fun t => SMap.get 0 (t.cell 0).router.owed 3 == 0) = true)
    ∧ (let s := (onElem 0 1 { out := [(dat 1, [0x10])] }).modCell 0 fun x => x.setElem 0 { word := 0x03000FFF }
       codeDest 0 0x10 = some (.ep (.elem 0 1)) ∧ elemInstr 0x03000FFF = some (.vmul 0 0 0 0 0x3F 0x3F)
       ∧ next (.outputStageDelivery 0 1) s (fun t => ((t.cell 0).elem 0).in1 == some (dat 1)) = true) := by decide +kernel

/-- LaunchInstructions: an all-zero record that is taken, one whose queue is full, a malformed one, and one of no image. -/
theorem test_witness_LaunchInstructions : launchBad 0 false = false ∧ launchBad 1 true = true ∧ launchBad (1 <<< 120) false = true
    ∧ base.launchCode 0 0 false = 0 ∧ base.launchCode 0 9 false ≠ 0 ∧ base.partOf 0 = some 0
    ∧ next (.launch 9 3) base (fun t => t.seq.getG 9 != 0 && ((t.part 0).lq 0).length == 1) = true
    ∧ next (.launch 9 3) (onSeq fun q => { q with wait := { lrec := some 9 } }) (fun t => t.seq.getG 9 == BitVec.ofNat 64 (2 ^ 63 + base.launchCode 0 9 false)) = true
    ∧ next (.rlaunch 9 3 4) base (fun t => t.seq.getG 9 == 0x8000000000000008) = true
    ∧ next (.launch 9 3) (onPart fun q => { q with lqs := [(0, List.replicate 64 {})] }) (fun t => t.seq.wait.lrec == some 0) = true := by
  decide +kernel
/-- A token that opens a launch stream with an all-zero record. -/
def open0 : Token := { pl := true, coord := 0xFFFFFFFF }
/-- The 128 bytes of a token's slot (R347). -/
def slot (t : Token) : BitVec 1024 := (0#384 ++ t.payload ++ t.ref ++ tkHead t : BitVec 1024)
/-- Adits: a token that joins the queue, one that breaks it, one at a broken adit, an opening token and one that is none. -/
theorem test_witness_Adits : base.aditFenced 0 {} = false
    ∧ (slot { dat 3 with pl := true, payload := 9 }).extractLsb' 128 512 = 9 ∧ (tokenOf128 (slot open0 ||| 1#1024 <<< 128)).payload = 1
    ∧ (tokenOf128 (slot (dat 3) ||| 1#1024 <<< 128)).payload = 0
    ∧ next (.aditTokenWrite 0 63 (some (slot (dat 1)))) base (fun t => ((t.part 0).adit 63).queue == [dat 1]) = true
    ∧ next (.aditTokenWrite 0 63 (some (slot { kind := 6 }))) base (fun t => ((t.part 0).adit 63).broken) = true
    ∧ next (.aditTokenWrite 0 63 (some (slot tkDone))) (base.modAdit 0 63 fun a => { a with broken := true }) (fun t => !((t.part 0).adit 63).broken) = true
    ∧ next (.aditTokenWrite 0 63 none) base (fun t => SMap.get 0 (t.part 0).cnt 0x1F3F == 1) = true
    ∧ opens open0 = true ∧ opens (dat 0) = false ∧ base.launchCode 0 0 true = 0
    ∧ next (.aditLaunchEnqueue 0 5) (base.modAdit 0 5 fun a => { a with queue := [open0] })
      (fun t => ((t.part 0).lq 0).length == 1 && ((t.part 0).adit 5).queue.isEmpty) = true
    ∧ next (.aditLaunchEnqueue 0 5) (base.modAdit 0 5 fun a => { a with queue := [dat 1, tkDone] })
      (fun t => SMap.get 0 (t.part 0).cnt 0x1F05 != 0) = true := by decide +kernel
/-- A queued launch that its image's check has passed. -/
def queued (l : Nat) : LqEntry := { lid := l, istate := 2 }
/-- Admission: an image checked, a head placed beside the graph, one refused, and one passed over. -/
theorem test_witness_Admission : next (.imageCheck 0 0) (onPart fun q => { q with images := [{ img := { variants := [{}] }, state := 1 }] })
      (fun t => (t.part 0).images.all fun e => e.state != 1) = true
    ∧ keeps (.imageCheck 0 0) base = true ∧ keeps (.admissionPass 0) base = true
    ∧ (let s := onPart fun q => { q with lqs := [(0, [queued 2])] }
       s.place 0 (queued 2) [] = some (1, 0, 0)
       ∧ next (.admissionPass 0) s (fun t => (t.graph 0 2).any fun g => g.loading && g.ox == 1) = true)
    ∧ (let s := onPart fun q => { q with cfg := { q.cfg with bays := [0] }, lqs := [(0, [queued 2])] }
       s.place 0 (queued 2) [] = none ∧ next (.admissionPass 0) s (fun t => (t.part 0).graphs.length == 1) = true
       ∧ next (.admissionPass 0) (s.modPart 0 fun q => { q with graphs := [], images := [{ img := { variants := [{}], width := 2 }, state := 2 }] })
         (fun t => ((t.part 0).lq 0).isEmpty) = true) := by decide +kernel
/-- PlacedGraphs: a load, an expired quantum, a yield and a move. -/
theorem test_witness_PlacedGraphs : next (.placementLoadComplete 0 1) (onGraph fun g => { g with loading := true }) (fun t => (t.graph 0 1).any (!·.loading)) = true
    ∧ next (.quantumExpiry 0 1) (onGraph fun g => { g with quantum := 2000000 }) (fun t => (t.graph 0 1).any (·.expired)) = true
    ∧ next (.quantumExpiry 0 1) (onGraph fun g => { g with quantum := 1999999 }) (fun t => (t.graph 0 1).any (!·.expired)) = true
    ∧ (let s := { (onGraph fun g => { g with yreq := true, tasks := [] }) with cells := [] }
       s.streamDone 0 graph1 = false ∧ s.quiet graph1 = true
       ∧ next (.yieldGraph 0 1) (s.modPart 0 fun q => { q with cfg := { q.cfg with yieldRoom := 4 } })
         (fun t => (t.graph 0 1).isNone && ((t.part 0).lq 0).length == 1) = true)
    ∧ next (.compactionMove 0 1) (onGraph fun g => { g with tasks := [], target := some (1, 0) })
      (fun t => (t.graph 0 1).any fun g => g.ox == 1 && g.target.isNone) = true := by decide +kernel
/-- TaskRelease: a task that may be released, one with a faulty template, and one that waits. -/
theorem test_witness_TaskRelease : (let s := onGraph fun g => { g with tasks := [], templates := some [] }
      s.instRegions 0 { graph1 with tasks := [], templates := some [] } 0 0 = some []
      ∧ s.releasable 0 { graph1 with tasks := [], templates := some [] } 0 0 [] = true
      ∧ ({ graph1 with tasks := [], templates := some [] } : Graph).waiting = [(0, 0)]
      ∧ (match exec (.taskRelease 0 1 0 0) s with | .next t => (t.graph 0 1).any fun g => g.stAt 0 0 == 1 | _ => false) = true)
    ∧ graph1.mayRelease = true ∧ ({ graph1 with yreq := true } : Graph).mayRelease = false
    ∧ base.instRegions 0 graph1 0 0 = none := by decide +kernel
/-- The graph as a host launch on adit 5 with its own stream, an image with one ingress and one egress, and its templates. -/
def host1 (ts : List Task) (l : List Token) : State :=
  (((onGraph fun g => { g with entry := { g.entry with adit := some 5 }, tasks := ts, templates := some [] }).modAdit 0 5
      fun a => { a with queue := l, streams := [{ lid := some 1 }], egbase := 0x1000, eglen := 128, egdone := 0x2000 }).modPart 0 fun q =>
        { q with images := [{ img := { variants := [{ sinks := [{ unit := 64 }] }], ingress := [{ port := 3 }], egress := [{ port := 3 }] }, state := 2 }] }).modCell 0
      fun x => { x with router := { x.router with words := [0x1604, 0x1604], outb := [(9, [dat 7])] } }
/-- HostStreams: the span of a waiting task, of a DEP_ABORTED one, of one outside the grid, and DONE. -/
theorem test_witness_HostStreams : next (.hostSpanEntry 0 1) (host1 [] [sot5, { kind := 4, ref := 5 }])
      (fun t => (t.graph 0 1).any fun g => g.stAt 0 0 == 1 && g.named == [(0, 0)]) = true
    ∧ next (.hostSpanEntry 0 1) (host1 [{ st := 5 }] [sot5, { kind := 4, ref := 5 }]) (fun t => ((t.part 0).adit 5).queue.isEmpty) = true
    ∧ next (.hostSpanEntry 0 1) (host1 [] [{ sot5 with coord := 1 }, { kind := 4, ref := 5 }])
      (fun t => SMap.get 0 (t.part 0).cnt 0x1F05 == 2) = true
    ∧ next (.hostStreamDone 0 1) (host1 [] [tkDone]) (fun t => (t.graph 0 1).any fun g => g.doneSent && g.stAt 0 0 != 0) = true
    ∧ keeps (.hostStreamDone 0 1) (host1 [] [sot5]) = true := by decide +kernel
/-- EdgeOfMesh: a token that enters, and one that leaves to host memory, to a full ring and to no adit. -/
theorem test_witness_EdgeOfMesh : ((host1 [] [dat 4]).cell 0).router.reads 3 0 = true
    ∧ next (.aditIngressEntry 0 1 0) (host1 [] [dat 4]) (fun t => SMap.get [] (t.cell 0).router.inb 9 == [dat 4]) = true
    ∧ next (.aditEgressWrite 0 1 0) (host1 [] []) (fun t => (SMap.get [] (t.cell 0).router.outb 9).isEmpty
        && SMap.get 0 (t.cell 0).cnt 0x20 == 1) = true
    ∧ (let s := (host1 [] []).modGraph 0 1 fun g => { g with entry := { g.entry with lrec := 0x85 <<< 472 } }
       lrAdit (0x85 <<< 472) 3 = some 5
       ∧ next (.aditEgressWrite 0 1 0) (s.modAdit 0 5 fun a => { a with egcount := 1 }) (fun t => t.mem.host.isEmpty) = true) := by
  decide +kernel
/-- TaskCourse: a task finished, drained, flushed, retired and aborted. -/
theorem test_witness_TaskCourse : base.sinkCount 0 graph1 = 0
    ∧ next (.taskFinish 0 1 0 0) base (fun t => (t.graph 0 1).any fun g => g.stAt 0 0 == 2) = true
    ∧ (let s := fun (k : Task) => onGraph fun g => { g with tasks := [k] }
       let k : Task := { st := 2, span := 4, regions := [region1] }
       (s k).drained graph1 k 5 = true
       ∧ next (.taskDrainAck 0 1 0 0 5) (s k) (fun t => (t.graph 0 1).any fun g => g.tasks.all fun k => k.acks == 32) = true
       ∧ next (.flushUnit 0 1 0 0 0) (s { k with acks := 63 }) (fun t => (t.graph 0 1).any fun g => g.tasks.all fun k => k.regions != [region1]) = true
       ∧ next (.taskRetire 0 1 0 0) (s { k with acks := 63, regions := [] }) (fun t => (t.graph 0 1).any fun g => g.stAt 0 0 == 3) = true)
    ∧ next (.taskAbort 0 1 0 0 0) base (fun t => (t.graph 0 1).any fun g => g.stAt 0 0 == 4) = true := by decide +kernel
/-- LaunchCompletion: a launch whose task has retired, and one whose task runs. -/
theorem test_witness_LaunchCompletion : (doneWord 65535 3 0xFFFFFF).toNat = 65535 * 2 ^ 48 + 3 * 2 ^ 28 + 0xFFFFFF
    ∧ (let s := onGraph fun g => { g with tasks := [{ st := 3 }], doneSent := true }
       s.launchOver 0 { graph1 with tasks := [{ st := 3 }], doneSent := true } = true
       ∧ next (.launchCompletion 0 1) s (fun t => (t.graph 0 1).isNone && (t.part 0).liveLids.isEmpty) = true)
    ∧ base.launchOver 0 graph1 = false := by decide +kernel
/-- The base state with expert 2 in a state and expert 1 in another, and the fetches under way. -/
def onErt (e : Ert) (xp : Experts := {}) (e1 : Ert := {}) : State :=
  { (onPart fun q => { q with cfg := { q.cfg with ertBase := 0x800000, ertN := 4, nslot := 1, slotSz := 2 }, xp := xp }).setSeqAt 0
      { seq1 with g := [(1, 2)] } with
    mem := { hbm := memStore (memStore [] 0x800040 (natLe e.bits.toNat 32)) 0x800020 (natLe e1.bits.toNat 32) }
    hf := { base.hf with lodeUp := 15, lodeRanges := [(0, 0, 0x100000)] } }
/-- An expert of one frame in a state. -/
def ert1 (n : BitVec 2) : Ert := { v := true, size := 1, state := n }
/-- ResidencyInstructions: an expert that does not exist, and each instruction on one that does. -/
theorem test_witness_ResidencyInstructions : base.expert 0 2 = false ∧ (onErt (ert1 0)).expert 0 2 = true
    ∧ next (.xpref 9 1) (onErt (ert1 0)) (fun t => (t.ert 0 2).state == 1 && (t.part 0).xp.reqs == [2]) = true
    ∧ next (.xpref 9 1) (onErt { ert1 3 with fail := true }) (fun t => (t.ert 0 2).req && t.seq.getG 9 == 3) = true
    ∧ next (.xpinPin 9 1) (onErt { ert1 0 with pin := 255 }) (fun t => t.seq.getG 9 == 0x8000000000000003) = true
    ∧ next (.xpinPin 9 1) (onErt { ert1 0 with fail := true } { prog := [(2, { errs := 8 })] })
      (fun t => t.ert 0 2 == { ert1 1 with pin := 1 } && (t.part 0).xp.at 2 == {}) = true
    ∧ next (.xpinUnpin 9 1) (onErt { ert1 0 with pin := 1 }) (fun t => t.seq.getG 9 == 0) = true
    ∧ next (.xevict 9 1) (onErt (ert1 2)) (fun t => (t.ert 0 2).state == 3) = true
    ∧ next (.xevict 9 1) (onErt { ert1 2 with wait := 1 }) (fun t => t.seq.getG 9 == 0x8000000000000004) = true
    ∧ next (.xlook 9 1 0) (onErt { ert1 2 with pin := 3 }) (fun t => t.seq.getG 9 == 0x30A) = true
    ∧ next (.xlook 9 1 1) (onErt { ert1 2 with slot := 7, frame := 9 }) (fun t => t.seq.getG 9 == 0x1000000009007) = true := by decide +kernel
/-- ExpertFetches: a fetch that starts, one that evicts, one that finds nothing to evict, frames that complete, and an error. -/
theorem test_witness_ExpertFetches :
    next (.expertFetchStart 0) (onErt (ert1 1) { reqs := [2] }) (fun t => (t.part 0).xp.runs == [2] && (t.part 0).xp.reqs.isEmpty) = true
    ∧ next (.expertFetchStart 0) (onErt (ert1 1) { reqs := [2] } (ert1 2)) (fun t => (t.ert 0 1).state == 3 && (t.part 0).xp.asked == [2]) = true
    ∧ keeps (.expertFetchStart 0) (onErt (ert1 1) { reqs := [2], asked := [2] } (ert1 2)) = true
    ∧ next (.expertFetchComplete 0 2) (let s := onErt (ert1 1) { runs := [2] }; { s with mem := { s.mem with lodePoison := [0] } })
      (fun t => SMap.get 0 (t.part 0).cnt 0x1C == 1) = true
    ∧ keeps (.expertFetchStart 0) (onErt (ert1 1) { reqs := [2] } { ert1 2 with pin := 1 }) = true
    ∧ keeps (.expertFetchStart 0) (onErt (ert1 1) { reqs := [2] } (ert1 3)) = true
    ∧ (onErt (ert1 1) { runs := [2] }).fetching 0 2 = true ∧ (onErt (ert1 1)).lodeOk 0x10000 = true
    ∧ next (.expertFetchComplete 0 2) (onErt (ert1 1) { runs := [2] }) (fun t => (t.ert 0 2).state == 2 && (t.part 0).xp.runs.isEmpty) = true
    ∧ next (.expertFetchComplete 0 2) (onErt { ert1 1 with size := 2 } { runs := [2] }) (fun t => ((t.part 0).xp.at 2).frames == 1) = true
    ∧ next (.expertFetchComplete 0 2) ((onErt { ert1 1 with wait := 1 } { runs := [2], parked := [{ lid := 1, xid := 2, tok := 9 }] }).modGraph 0 1
        fun g => { g with entry := { g.entry with ragged := some 0 } })
      (fun t => (t.graph 0 1).any fun g => g.tasks.any fun k => k.x == 2048 && k.toks == [9]) = true
    ∧ next (.expertFetchError 0 2) (onErt (ert1 1) { runs := [2], prog := [(2, { errs := 7 })] }) (fun t => ((t.part 0).xp.at 2).errs == 8) = true := by
  decide +kernel
/-- ExpertFetches: a timeout, a refetch too early and in time, and an eviction with and without a request. -/
theorem test_witness_ExpertFetches2 : next (.lodeReadTimeout 0 2) (onErt { ert1 1 with wait := 1 } { runs := [2] }) (fun t => ((t.part 0).xp.at 2).refetch.isSome) = true
    ∧ keeps (.expertRefetchTimer 0 2) { onErt { ert1 0 with wait := 1 } { prog := [(2, { refetch := some 0 })] } with tbase := 999999 } = true
    ∧ next (.expertRefetchTimer 0 2) { onErt { ert1 0 with wait := 1 } { prog := [(2, { refetch := some 0 })] } with tbase := 1000000 }
      (fun t => (t.part 0).xp.reqs == [2]) = true
    ∧ next (.expertEvictionDone 0 2) (onErt { ert1 3 with dirty := true }) (fun t => (t.part 0).xp.reqs.isEmpty) = true
    ∧ next (.expertEvictionDone 0 2) (onErt { ert1 3 with req := true }) (fun t => (t.part 0).xp.reqs == [2]) = true := by
  decide +kernel


/-- The base state with the tables of tensor 1 in memory: its descriptor, and the entry of chunk 0 at 0x1000. -/
def tabled : State :=
  { base with bays := [], mem := { hbm := memStore (memStore (memStore [] 64 (natLe (desc1 ||| BitVec.ofNat 512 (2 ^ 64 * 0x1000 + 2 ^ 128)).toNat 64)) 0x1000 (natLe entry1.toNat 8)) 0x30078 [1] } }
/-- EmbeddingUpdates: a step that no source has stamped, and one that is stamped and runs. -/
theorem test_witness_EmbeddingUpdates : (let e : Emb := { w0 := 0x100000000, w1 := 64 }
      let s := fun (e : Emb) => tabled.modPart 0 fun q => { q with emb := [(3, e)] }
      let cur := fun (t : State) => (SMap.get {} (t.part 0).emb 3).cur
      tabled.embStamp 0 e 0 = 1 ∧ tabled.embStamp 0 e 1 = 0 ∧ e.nsrc = 1 ∧ tabled.embNext 0 e 0 = some 0 ∧ tabled.embNext 0 e 1023 = none
      ∧ tabled.embHead 0 e 0 = some 0 ∧ tabled.embHead 0 { e with w1 := 64 + 2 ^ 32 } 0 = none
      ∧ keeps (.embeddingStepComplete 0 3) (base.modPart 0 fun q => { q with emb := [(3, e)] }) = true
      ∧ keeps (.taskRelease 0 0 3 0) (s { e with w0 := 0x100000001, busy := true }) = true
      ∧ next (.taskRelease 0 0 3 0) (s { e with busy := true }) (fun t => cur t == some (0, none)) = true) := by decide +kernel
/-- EmbeddingUpdates: the actions of a task that runs: a header, one discarded, a record, the last one, and the end. -/
theorem test_witness_EmbeddingTask : (let e : Emb := { w0 := 0x100000000, w1 := 64, busy := true }
      let s := fun (e : Emb) => tabled.modPart 0 fun q => { q with emb := [(3, e)] }
      let cur := fun (t : State) => (SMap.get {} (t.part 0).emb 3).cur
      next (.taskRelease 0 0 3 0) (s { e with cur := some (0, none) }) (fun t => cur t == some (0, some (0, 0))) = true
      ∧ next (.taskRelease 0 0 3 0) (s { e with cur := some (0, some (0, 2)) }) (fun t => cur t == some (0, some (1, 2))) = true
      ∧ next (.taskRelease 0 0 3 0) (s { e with cur := some (0, some (1, 2)) }) (fun t => cur t == some (1, none)) = true
      ∧ next (.taskRelease 0 0 3 0) (s { e with cur := some (1023, none) })
        (fun t => cur t == none && (SMap.get {} (t.part 0).emb 3).w1 == 64 + 2 ^ 32 && (SMap.get {} (t.part 0).emb 3).applied == 0) = true
      ∧ next (.taskRelease 0 0 3 0) { (s { e with cur := some (0, none) }) with mem := { tabled.mem with hbm := memStore tabled.mem.hbm 0x30040 [5] } }
        (fun t => cur t == some (1, none) && (t.part 0).fq.queue.length == 1) = true
      ∧ (tabled.partRead 0 (e.slotVa 0 32) 16).isSome = true ∧ (tabled.partWrite 0 (e.slotVa 0 56) (natLe 0 8)).isSome = true
      ∧ tabled.ownRows 0 1 = [(0, 131072)] ∧ (tabled.partWrite 0 (mkVa 1 0) (natLe 0 8)).isSome = true) := by decide +kernel
/-- EmbeddingUpdates: every slot of the step is stamped. -/
theorem test_witness_EmbeddingReady :
    (fun (e : Emb) => e.nsrc ≤ ((List.range 1024).filter fun k => tabled.embStamp 0 e k ≠ 0).length) { w0 := 0x100000000, w1 := 64 } :=
  List.length_pos_of_mem (List.mem_filter.2 ⟨List.mem_range.2 (show 0 < 1024 by decide), by decide +kernel⟩)
/-- A sequencer's access that waits for a walk. -/
def walk1 (va : Word) (port : Nat) : State :=
  { (tabled.setSeqAt 0 { seq1 with wait := { hold := some { va := va } } }) with bays := [(0, { walks := [{ va := va, port := port, span := some 5 }] })] }
/-- TranslationEvents: a walk that ends well, one refused at the sequencer and at a copy engine, retries, and invalidations. -/
theorem test_witness_TranslationEvents : next (.translationWalkComplete (0, 0)) (walk1 0x0001000000000100 0x80) (fun t => (t.bay 0).walks.isEmpty && (t.bay 0).tlb.length == 1) = true
    ∧ next (.translationWalkComplete (0, 0)) (walk1 0x0009000000000100 0x80) (fun t => (t.cell 0).stopped == [0x80]) = true
    ∧ next (.translationWalkComplete (0, 0)) (walk1 0x0009000000000100 0x81) (fun t => (t.part 0).fq.queue.length == 1) = true
    ∧ keeps (.translationWalkComplete (0, 1)) (walk1 0x0009000000000100 0x81) = true
    ∧ next (.portResume 0 0x81) { (onCell fun x => { x with stopped := [0x81] }) with focus := { fn := 9 } }
      (fun t => (t.cell 0).stopped == [0x81] && t.parts.length == 2) = true
    ∧ next (.invalidationRequest 0 1 0 0) { (onPart fun q => { q with swapped := true }) with caisson := [(0, some { part := part1, bays := [(0, { tlb := [{ tensor := 1, leases := 1 }] })] })] }
      (fun t => (SMap.get none t.caisson 0).any fun k => k.part.inval.length == 1 && k.bays.all fun b => b.2.tlb.all (·.stale)) = true
    ∧ next (.portResume 0 0x81) (onCell fun x => { x with stopped := [0x81] }) (fun t => (t.cell 0).stopped.isEmpty) = true
    ∧ next (.ringRetry 0 0x81) (onCell fun x => { x with stopped := [0x81], ringed := [0x81] }) (fun t => (t.cell 0).ringed.isEmpty) = true
    ∧ keeps (.ringRetry 0 0x81) base = true
    ∧ next (.invalidationRequest 0 1 0 0) base (fun t => (t.bay 0).tlb.isEmpty && (t.part 0).inval.length == 1) = true
    ∧ next (.invalidationComplete 0) (onPart fun q => { q with inval := [{ tensor := 1 }] }) (fun t => (t.part 0).mail.length == 2) = true
    ∧ next (.invalidationComplete 0) { (onPart fun q => { q with inval := [{ tensor := 1 }] }) with
        bays := [(0, { tlb := [{ tensor := 1, stale := true, leases := 1 }] })] } (fun t => (t.part 0).mail.length == 1) = true := by
  decide +kernel
/-- HomeMemory: an exported frame, one that is not, errors outside and inside a table, and the refresh windows' ends. -/
theorem test_witness_HomeMemory : next (.remoteAccessHome 5 (.frame 3) 65535 (.acc .write) [7]) { base with mem := { exported := [(3, 5)] } }
      (fun t => memRead t.mem.hbm 0x3FFFF == 7) = true
    ∧ keeps (.remoteAccessHome 5 (.frame 3) 65535 (.acc .write) [7]) base = true
    ∧ next (.hbmUncorrectableError 0x7FFFFFFFFF none) base (fun t => t.mem.poison == [0x7FFFFFFF]) = true
    ∧ next (.hbmUncorrectableError 0x20000 none) (onPart fun q => { q with cfg := { q.cfg with tableBase := 2, tableLen := 1 } })
      (fun t => (t.part 0).fenced) = true
    ∧ next (.refreshWindowOpen 15) { base with tbase := 30255 } (fun t => t.mem.refresh.getLsbD 15) = true
    ∧ next (.refreshWindowClose 15) { base with tbase := 30256, mem := { refresh := 0x8001 } } (fun t => t.mem.refresh == 1) = true := by
  decide +kernel
/-- FreezesAndFences: a freeze that takes effect, a watchdog at its limit and before it, a release, a dump, and a failed cell. -/
theorem test_witness_FreezesAndFences : next (.graphFreeze 0 1) (onGraph fun g => { g with freeze := some {} })
      (fun t => (t.graph 0 1).any (fun g => g.frozen && g.fenced) && t.dumps.length == 1 && (t.part 0).fq.queue.contains {}) = true
    ∧ keeps (.graphFreeze 0 1) base = true
    ∧ next (.watchdogExpiry 0 1) (onGraph fun g => { g with wdog := 10000000000 }) (fun t => (t.graph 0 1).any (·.wdDue.isSome)) = true
    ∧ (((onGraph fun g => { g with wdDue := some {} }).elapse 1 0).graph 0 1).any (·.freeze.isSome) = true
    ∧ next (.registerWrite 0 (.fenceGraph 1) 0) base (fun t => (t.graph 0 1).any (·.fenced) && t.dumps.length == 1) = true
    ∧ keeps (.watchdogExpiry 0 1) (onGraph fun g => { g with wdog := 9999999999 }) = true
    ∧ next (.graphRelease 0 1) (onGraph fun g => { g with fenced := true }) (fun t => (t.graph 0 1).isNone) = true
    ∧ next (.dumpRequest 0 (some 1)) base (fun t => t.dumps.length == 1 && t.hf.dumpOf.isNone) = true
    ∧ (let s := fun (q : Seq) (h : Headframe) => { (onSeq fun _ => q) with hf := h }
       let wait : Seq := { seq1 with wait := { hold := some {} } }
       next (.dumpRequest 0 (some 1)) (s wait base.hf) (fun t => t.dumps.isEmpty && t.hf.dumpOf == some (0, some 1)) = true
       ∧ keeps (.dumpRequest 0 (some 1)) (s wait { base.hf with dumpOf := some (0, some 1) }) = true
       ∧ next (.dumpRequest 0 (some 1)) (s seq1 { base.hf with dumpOf := some (0, some 1), dumpAt := 7 })
         (fun t => t.hf.dumpOf.isNone && (t.dumps.map fun d => (d.2.head.drop 16).take 1) == [[7]]) = true)
    ∧ next (.cellFailure 9215) base (fun t => t.failed == [9215]) = true
    ∧ next (.cellFailure 0) base (fun t => (t.graph 0 1).any (·.fenced)) = true := by decide +kernel
/-- PartitionsAndSwap: a fence, a reset, a load that is taken and one that is refused, an unload, and the steps of a swap. -/
theorem test_witness_PartitionsAndSwap : next (.partitionFence 0) base (fun t => (t.part 0).fenced && (t.part 0).msix.contains 1) = true
    ∧ next (.functionLevelReset 0) base (fun t => !(t.part 0).loaded) = true ∧ next .pf0Reset base (fun t => (t.part 0).fenced) = true
    ∧ base.loadOk 1 { bays := [2], banks := 2 } = true ∧ base.loadOk 1 { bays := [1], banks := 2 } = false
    ∧ next (.partitionLoad 1 { bays := [2], banks := 2 }) base (fun t => (t.part 1).loaded) = true
    ∧ next (.partitionUnload 0) base (fun t => !(t.part 0).loaded) = true
    ∧ base.swapOk 0 none = true ∧ next (.haltSwapCommand 0 none) base (fun t => t.swapping 0) = true
    ∧ next .haltSwapDrainComplete { base with hf := { base.hf with swap := some { p := 0 } } }
      (fun t => (t.part 0).swapped && (SMap.get none t.caisson 0).isSome) = true
    ∧ next (.haltSwapRestore true) { base with hf := { base.hf with swap := some { p := 0, drained := true } } } (fun t => t.hf.swap.isNone) = true
    ∧ next (.haltSwapRestore true) { base with
        parts := [(0, { part1 with swapped := true }), (1, { loaded := true, swapped := true, cfg := { bays := [2] } })]
        caisson := [(1, some { part := { loaded := true, cfg := { bays := [2] } }, cells := [(16, cell1)] })]
        hf := { base.hf with swap := some { p := 0, q := some 1, drained := true } } }
      (fun t => !(t.part 1).swapped && t.cell 16 == cell1) = true
    ∧ next (.caissonDiscard 1) { base with caisson := [(1, some {})] } (fun t => (SMap.get none t.caisson 1).isNone) = true := by
  decide +kernel
/-- HostInterface: registers, the aperture, images, the fault stores, links, start-up and the clock. -/
theorem test_witness_HostInterface : next (.registerWrite 0 (.egLen 63) 9) base (fun t => ((t.part 0).adit 63).eglen == 9) = true
    ∧ next (.bypassMaxWrite 0 3) base (fun t => (t.part 0).bypassMax == 3) = true ∧ keeps (.bypassMaxWrite 0 0) base = true
    ∧ (part1).ownsFrame 4 = true ∧ part1.ownsFrame 5 = false
    ∧ next (.apertureWrite 0 0x30002 [8, 9]) base (fun t => memRead t.mem.hbm 0x30003 == 9) = true
    ∧ next (.apertureRead 0 0x50000 2) base (fun t => t.hf.reads == [[0xFF, 0xFF]]) = true
    ∧ next (.imageAdd 0 0x30000 64 {}) { onPart (fun q => { q with cfg := { q.cfg with storeRoom := 64 } }) with
        mem := { hbm := [(0x30000, 0x49), (0x30001, 0x42), (0x30002, 0x4B), (0x30003, 0x4E), (0x30008, 1), (0x30018, 64)] } }
      (fun t => (t.part 0).images.map (fun e => (e.img.id, e.img.total)) == [(0, 0), (1, 64)]) = true
    ∧ next (.imageRemove 0 7) (onPart fun q => { q with images := [{ img := { id := 7 } }] }) (fun t => (t.part 0).images.isEmpty) = true
    ∧ next (.faultRecordRead 0) (onPart fun q => { q with fq := { queue := [{}], waiting := [{}] } })
      (fun t => (t.part 0).fq.queue.length == 1 && (t.part 0).fq.waiting.isEmpty) = true
    ∧ next (.faultRingHeadAdvance 0 2) (onPart fun q => { q with fq := { tail := 2, ringOut := [0, 0] } }) (fun t => (t.part 0).fq.head == 2) = true
    ∧ next (.linkRetrain 17) { base with hf := { base.hf with trained := true } } (fun t => (t.link 17).up) = true
    ∧ next (.packageIdWrite 3) base (fun t => t.hf.pkg == 3) = true
    ∧ next (.startup { failedStacks := [7, 1] }) State.reset (fun t => t.hf.boot == 4 && t.hf.bootUnits == [7, 1] && t.hf.badBays.length == 72) = true
    ∧ next (.startup { fwOk := false }) State.reset (fun t => t.hf.boot == 2 && !t.hf.booted) = true
    ∧ next (.firmwareUpdateCommand true) { State.reset with hf := { boot := 2 } } (fun t => t.hf.boot == 0) = true
    ∧ next (.powerLimitSet 2600) base (fun t => t.hf.watts == 2600) = true
    ∧ next (.dvfsTrigger 2 (.heat 0)) base (fun t => t.hf.toPoint == some 2 && !t.cellLive 0) = true
    ∧ next .dvfsChangeComplete { base with hf := { base.hf with toPoint := some 2 } } (fun t => t.hf.point == 2) = true := by decide +kernel

/-! ### Witnesses of further clauses -/

/-- The base state whose task is aborted: its accesses are suppressed (R295). -/
def deadTask (s : State) : State := s.modGraph 0 1 fun g => { g with tasks := [{ st := 4, span := 5, regions := [region1] }] }
/-- PrivateLoads, PrivateStores: accesses of an aborted task at the first byte asked for. -/
theorem test_witness_SuppressedAccess : (deadTask base).suppressed ((deadTask base).seqWho 0) = true
    ∧ vaTensor (vaPlus (base.seq.getG 3) 0) = 0xFFFF ∧ vaOff (vaPlus (base.seq.getG 3) 0) = 0x40
    ∧ next (.ldD 9 3 0) (deadTask base) (fun t => t.seq.pc == 1 && t.freeCtr != 0) = true
    ∧ next (.stD 1 3 0) (deadTask base) (fun t => (t.cell 0).priv.isEmpty && t.seq.pc == 1) = true := by decide +kernel
/-- BudgetExpiry: a cell that may issue with its budget spent, and one whose access is held. -/
theorem test_witness_BudgetSpent : (onSeq fun q => { q with budget := 65537 }).mayIssue 0 = true
    ∧ keeps (.firingBudgetExpiry 0) (onSeq fun q => { q with budget := 65537, wait := { hold := some {} } }) = true := by decide +kernel
/-- A cell whose LD.D of the private window waits for its response. -/
def heldLoad : State := onCell fun x => { x with
  code := memStore [] 0 (natLe (encodeControl (.ldD 9 3 0)).toNat 4), priv := [(0x40, 7)]
  seq := { seq1 with wait := { hold := some { va := 0xFFFF000000000040 } } } }
/-- AccessResponse: an access that is performed, one of a cell that may not answer, and one whose fault is latched. -/
theorem test_witness_AccessPerformed : decodeControl (heldLoad.codeWord 0 0) = some (.ldD 9 3 0) ∧ heldLoad.mayAnswer 0 = true
    ∧ heldLoad.halted 0 = false ∧ heldLoad.portBusy 0 0x80 = false
    ∧ next (.seqAccessResponse 0 none) heldLoad (fun t => t.seq.getG 9 == 7 && t.seq.pc == 1) = true
    ∧ keeps (.seqAccessResponse 0 none) (heldLoad.modGraph 0 1 fun g => { g with freeze := some {} }) = true := by decide +kernel
/-- Counters: an event of the write's own tick. -/
theorem test_witness_CounterTick : next (.cntw 0 1 0x45) (onCell fun x => { x with now := [(0x45, 2)] })
    (fun t => SMap.get 0 (t.cell 0).cnt 0x45 == 9) = true := by decide
/-- CopyIssue: a copy to a channel queue and one to the weight store. -/
theorem test_witness_CopyKinds : next (.copy 1 2 6 0 0 1 0 0 0 0) ((onCell fun x => { x with m := { x.m with queues := [(31, { depth := 1 })] } }).setSeqAt 0
        { seq1 with g := [(1, 0x0001000000000100), (2, 31), (6, 64)] }) (fun t => (t.eng 0).queue.map (·.queue) == [true]) = true
    ∧ next (.copy 1 2 6 1 0 0 0 0 0 0) ((onPart fun q => { q with cfg := { q.cfg with banks := 0xFFFF } }).setSeqAt 0
        { seq1 with g := [(1, 0x0001000000000100), (2, 0), (6, 64)] }) (fun t => (t.eng 0).queue.map (·.ws) == [true]) = true := by
  decide +kernel
/-- CopyBlock: the chain of an aborted task. -/
theorem test_witness_CopySuppressed : (deadTask run1).suppressed (copyWho 0 (some 5)) = true
    ∧ next (.copyPayloadBlock 0) (deadTask run1) (fun t => (t.eng 0).cur.isNone && (t.eng 0).runs.isEmpty) = true := by decide +kernel
/-- ChainEnd: a stamp in the weight store, stamps still due, and one whose slot's translation is not cached. -/
theorem test_witness_ChainStamps : (let s := fun (r : CopyRun) (k : CopyCmd) => { onEng { runs := [(0, { r with chain := [k] })], cur := some 0 } with
        mem := { refresh := 0 } }
      next (.chainPassEnd 0) (s { block := 1 } { cmd1 with ws := true, dst := 0 })
        (fun t => (t.eng 0).cur.isNone && memRead t.mem.ws 260 == 1) = true
      ∧ next (.chainPassEnd 0) (s { due := [(cmd1, 7, false)] } cmd1)
        (fun t => (t.eng 0).runs.isEmpty && memRead t.mem.hbm 0x30900 == 7) = true
      ∧ next (.chainPassEnd 0) { (s { due := [(cmd1, 7, false)] } cmd1) with bays := [] }
        (fun t => (t.eng 0).runs.any fun r => r.2.due == [(cmd1, 7, false)]) = true) := by decide +kernel
/-- FillEngine: a fill of an aborted task, and one whose blocks are all read. -/
theorem test_witness_FillSuppressed : (let k : FillCmd := { src := 0x0001000000000100, len := 512, tile := 2, span := some 5 }
      let s := (onTile { size := 16, state := 1 }).modFill 0 fun e => { e with queue := [k] }
      next (.fillComplete 0) (deadTask s) (fun t => ((t.cell 0).tile 2).state == 0 && (t.cell 0).m.scratch.isEmpty) = true
      ∧ (s.fillBlocks { fillWho 0 k.span with port := k.port } k 3).2.isNone = true
      ∧ next (.fillComplete 0) s (fun t => ((t.cell 0).tile 2).state == 2) = true) := by decide +kernel
/-- Tensor 1 with its tables and tensor 2 a shadow window of cell 0's bay; g5 an index vector, g6 the window. -/
def window1 : State :=
  { (tabled.setSeqAt 0 { seq1 with g := [(4, 0x0001000000000100), (5, 0x0001000000000200), (6, 0x0002000000000000)] }) with
    bays := [(0, { desc := [(1, desc1 ||| BitVec.ofNat 512 (2 ^ 64 * 0x1000 + 2 ^ 128)), (2, desc1 ||| 2)] })] }
/-- The same with the entry of the index vector's chunk in cell 0's cache. -/
def window2 : State := window1.modCell 0 fun x => { x with tlb := [{ tensor := 1, tr := { entry := entry1 } }] }
/-- WindowBindings: a walk that brings the index vector's entry, a binding made, one that waits for the copy engine's queue, and bindings seen by an edge and by a fence. -/
theorem test_witness_WindowBound : next (.wbind 6 4 5 63) window1 (fun t => (t.bay 0).walks.length == 1 && t.seq.pc == 0) = true
    ∧ next (.wbind 6 4 5 63) window2 (fun t => (SMap.get [] (t.part 0).windows 2).map (fun v => v.bind.map (·.row)) == [some 512]) = true
    ∧ next (.wbind 6 4 5 63) (window2.modEng 0 fun e => { e with queue := List.replicate 16 {} }) (fun t => t.seq.pc == 0) = true
    ∧ next (.wfree 6) (window1.modEng 0 fun e => { e with queue := List.replicate 16 {} }) (fun t => t.seq.pc == 0) = true
    ∧ (let s := fun (v : WinVer) => window1.modPart 0 fun q => { q with windows := [(2, [v, { edge := none }])] }
       ((s { bind := some {}, edge := some 0 }).bindingOf 0 0 { born := 1 } 2).isSome = true
       ∧ ((s { bind := some {}, edge := some 1 }).bindingOf 0 0 { born := 1 } 2).isNone = true
       ∧ ((s { bind := some {}, seen := [(0, 0)] }).bindingOf 0 0 {} 2).isSome = true) := by decide +kernel
/-- Regions: a record added from private memory whose chunk is leased. -/
theorem test_witness_RegionAdded : (let r := region1 &&& BitVec.ofNat 256 (2 ^ 105 - 1)
      let s := { (onCell fun x => { x with priv := memStore [] 0x40 (natLe r.toNat 32) }) with
        bays := [(0, { tlb := (List.range 16).map fun n => { tensor := 1, chunk := n, tr := { entry := entry1 }, leases := 1 }, desc := [(1, desc1)] })] }
      s.instRegion 0 0 (BitVec.ofNat 256 (memNat (s.cell 0).priv 0x40 32)) 0 0 = some r
      ∧ next (.regionAdd 9 3) s (fun t => t.seq.getG 9 == 1 && (t.graph 0 1).any fun g => g.tasks.all fun k => k.regions == [region1, r]) = true) := by
  decide +kernel
/-- StateTable: a STAB that goes on with what it read. -/
theorem test_witness_StateTableKept : next (.stab 3 6) (onSeq fun q => { q with g := [(3, 0xFFFF000000000040), (6, 0x400100)], wait := { stab := some [5] } })
    (fun t => SMap.get 0 (t.ms 0).table 0 == 5) = true := by decide +kernel
/-- RefreshWindows: time that passes into a window and out of it. -/
theorem test_witness_RefreshPasses : ({ base with tbase := 29999 }.elapse 1 0).mem.refresh = 0x8000
    ∧ ({ base with tbase := 30255 }.elapse 1 0).mem.refresh = 0 := by decide +kernel
/-- HashTables: a tile that is not ready, a false control value, and a hash element of an aborted task. -/
theorem test_witness_HashWaits :
    (let s := fun (t : Tile) (g : Token) => (onElem 0 1 { k := [(0, 2), (1, 0x303)], in0 := some (dat 5), in1 := some (dat 9), in2 := some g, span := some 5 }).modCell 0
         fun x => { (x.setTile 2 t) with m := { (x.setTile 2 t).m with scratch := (List.range 64).map fun i => (i, 0xFF) } }
     let ok : Tile := { size := 1, state := 2 }
     keeps (.hprobe 0x30 0x3F) (s { size := 1 } (dat 1)) = true ∧ keeps (.hins 0x30 0x3F) (s { size := 1 } (dat 0)) = true
     ∧ next (.hins 0x30 0x3F) (s ok (dat 0)) (fun t => (t.el.out.map fun e => e.1.absent) == [true]) = true
     ∧ (s ok (dat 1)).hashFirst = true ∧ (let d := deadTask (s ok (dat 1)); d.suppressed d.elWho = true ∧ d.hashFirst = true)) := by
  decide +kernel
/-- SeeksTaken: a search of the coordinates 4, 8, 12 that moves, drops and stays, and a search of a bitmap. -/
theorem test_witness_SeekSearches :
    (let s := fun (w : Instr) (g : BitVec 32) (k : List (Nat × BitVec 32)) => (onBlock 0 16 { word := encodeOp w, k := k, back := [(0, [{ kind := 8, coord := g }])] }).modCell 0
        fun x => { ((x.setTile 2 { size := 2, state := 2 }).setTile 3 { base := 2, size := 1, state := 2 }) with
          m := { ((x.setTile 2 { size := 2, state := 2 }).setTile 3 { base := 2, size := 1, state := 2 }).m with
            scratch := memStore (memStore [] 0 (natLe 0x1110 8)) 64 (natLe (4 + 2 ^ 32 * 8 + 2 ^ 64 * 12) 12)
            sc0 := { active := true, next := 0, stop := 3, win := .opened } } }
     let nx := fun (t : State) => (((t.cell 0).scanner 16).next, ((t.cell 0).scanner 16).active)
     let c := fun g => s (.scanC 2 3 0 0 1) g [(0, 16), (2, 64)]
     let b := fun g => s (.scanB 2 3 0 0 1) g [(0, 16)]
     next (.scannerSeekTaken 0 0) (c 8) (fun t => nx t == (1, true)) = true
     ∧ next (.scannerSeekTaken 0 0) (c 13) (fun t => nx t == (0, false)) = true
     ∧ next (.scannerSeekTaken 0 0) (c 4) (fun t => nx t == (0, true)) = true
     ∧ next (.scannerSeekTaken 0 0) (b 8) (fun t => nx t == (8, true)) = true
     ∧ next (.scannerSeekTaken 0 0) (b 13) (fun t => nx t == (0, false)) = true) := by decide +kernel
/-- Repeater: the tokens before the like of the driver's EOT are discarded. -/
theorem test_witness_RepeaterEnds : (let s := fun (x y : Token) => onBlock 3 20 { inq := [(0, [x]), (1, [y])], span := some 5 }
      next (.rept 0 0) (s (dat 3) { kind := 4, ref := 5 }) (fun t => (t.blk.head 0).isNone && (t.blk.head 1).isSome) = true
      ∧ next (.rept 0 0) (s { kind := 4, ref := 5 } { kind := 4, ref := 5 }) (fun t => t.rp.owed == [{ kind := 4, ref := 5 }]) = true
      ∧ next (.rept 0 0) (s { kind := 4, ref := 6 } { kind := 4, ref := 5 }) (fun t => (t.graph 0 1).any (·.freeze.isSome)) = true) := by
  decide +kernel
/-- MatrixNodes: a row that leaves the array and one that a full FIFO holds back; a DONE that waits and one that is forwarded. -/
theorem test_witness_MatrixArray :
    (let m := fun (n : Nat) => ({ stages := [[.row 0 []]], fifos := [(3, List.replicate n (.sum 0 1))] } : Matrix)
     (m 7).advance.stages = [] ∧ (m 8).advance = m 8 ∧ (m 8).colRows 3 = 8)
    ∧ (let s := fun (x : Matrix) => (mat 25 0x420E0000 tkDone x).modCell 1 fun x => { x with router := { x.router with epIn := [(0, 0xD1), (2, 0xD2)] } }
       ((s {}).cell 1).inBound 0x51 = true
       ∧ next (.matrixEot 1) (s {}) (fun t => (t.mx 1).doneX && ((t.cell 1).block 27).out.isEmpty) = true
       ∧ next (.matrixEot 1) (s { doneX := true, doneW := true, doneQ := true }) (fun t => !(t.mx 1).doneX && ((t.cell 1).block 27).out == [tkDone]) = true) := by
  decide +kernel
/-- SwitchWords: a link without a place, and a DONE that is noted at a STEER. -/
theorem test_witness_SwitchPlaces : base.linkPeer 0 1 = some 1
    ∧ keeps (.route 6 2 0) (onCell fun x => { x with router := { x.router with inb := [(18, [dat 1])], used := [(3, inbDepth 1 3 0)] } }) = true
    ∧ next (.steer 6 5 1 2) (onCell fun x => { x with router := { x.router with inb := [(18, [tkDone])] } })
      (fun t => SMap.get 0 (t.cell 0).router.arrived 0 == 1) = true := by decide +kernel
/-- TokenDelivery: a traced token at a tapped port. -/
theorem test_witness_Tapped : (let s := { ((onPart fun q => { q with trace := true, cfg := { q.cfg with traceRoom := 1 } }).modCell 0
        fun x => { x with router := { x.router with words := [0x8C05] } }) with tick := 9 }
      (s.cell 0).router.decoded = [.tap 6 5]
      ∧ ((s.tap 0 6 (dat 7)).part 0).traceBuf.map (·.2.1) = [9]) := by decide +kernel
/-- ChannelQueues: a token that enters, a full queue, a head that leaves, and a poisoned head. -/
theorem test_witness_ChannelQueues :
    (let s := fun (k : ChanQ) => onCell fun x => { x with
        m := { x.m with queues := [(3, k)] }
        router := { x.router with words := [encodeSwitch (.route 4 2 0)], epOut := [(0x63, 0x100)] } }
     (s {}).outDest 0 0x63 = some (.port 4 0)
     ∧ next (.channelQueueOffer 0 3) (s { depth := 1, toks := [dat 4] }) (fun t => (t.chanq 0 3).toks.isEmpty && SMap.get [] (t.cell 0).router.inb 12 == [dat 4]) = true
     ∧ next (.channelQueueOffer 0 3) (s { depth := 1, toks := [dat 4], poison := [0] })
       (fun t => (t.chanq 0 3).toks == [dat 4] && (t.cell 0).stopped == [0x63]) = true) := by decide +kernel
/-- Admission: a head with its bypasses used up that is placed, with the next one's count begun again, and one that blocks. -/
theorem test_witness_AdmissionBypass :
    (let s := onPart fun q => { q with bypassMax := 1, lqs := [(0, [{ queued 2 with byp := 1 }, { queued 3 with byp := 1 }])] }
     next (.admissionPass 0) s (fun t => (t.graph 0 2).isSome && ((t.part 0).lq 0).map (·.byp) == [0]) = true
     ∧ next (.admissionPass 0) (s.modPart 0 fun q => { q with cfg := { q.cfg with bays := [0] } })
       (fun t => (t.part 0).graphs.length == 1 && ((t.part 0).lq 0).length == 2) = true) := by decide +kernel
/-- PlacedGraphs: a cell record that is loaded, and a yield for which there is no room. -/
theorem test_witness_CellLoaded :
    (let img : Image := { variants := [{ cells := [{ code := [(0, 3)] }] }] }
     next (.placementLoadComplete 0 1) ((onGraph fun g => { g with loading := true }).modPart 0 fun q => { q with images := [{ img := img, state := 2 }] })
       (fun t => memRead (t.cell 0).code 0 == 3) = true
     ∧ next (.yieldGraph 0 1) { ((onGraph fun g => { g with yreq := true, tasks := [], yfor := 9 }).modPart 0 fun q => { q with images := [{ img := img, state := 2 }] }) with cells := [] }
       (fun t => (t.graph 0 1).any (!·.yreq)) = true) := by decide +kernel
/-- TaskRelease: a lease that no chunk grants. -/
theorem test_witness_LeaseRefused : (let s := { (onGraph fun g => { g with tasks := [], templates := some [region1] }) with
          bays := [(0, { desc := [(1, desc1 ||| BitVec.ofNat 512 (2 ^ 64 * 0x1000 + 2 ^ 128))] })] }
      (s.instRegions 0 ((s.graph 0 1).getD {}) 0 0).isSome = true
      ∧ ((s.tryRelease 0 ((s.graph 0 1).getD {}) 0 0 5).map fun t => (t.cell 0).leaseHeld) = some [(1, 0, 0)]) := by decide +kernel
/-- TaskCourse: the last class of a drain, and two dies with room. -/
theorem test_witness_DrainEnds : (let s := onGraph fun g => { g with tasks := [{ st := 2, span := 4, acks := 31 }] }
      s.drained graph1 { st := 2, span := 4, acks := 31 } 5 = true
      ∧ next (.taskDrainAck 0 1 0 0 5) s (fun t => (t.graph 0 1).any fun g => g.tasks.all fun k => k.acks == 63) = true)
    ∧ (base.dieCache 1).length < dieLines ∧ smHas (base.cell 0).dc 0 = false := by decide +kernel
/-- The base state with a command of VF 2. -/
def vf2 (s : State) : State := { s with focus := { s.focus with fn := 2 } }
/-- Partitions, HaltSwap, HostRegisters, HostServices, PortsAndClock: commands that a function may not give. -/
theorem test_witness_NotPermitted : (let perm := fun (i : Instr) (n : Nat) => next i (vf2 base) fun t => decide ((vf2 base).answer n 1 = t)
      perm (.partitionLoad 1 {}) 1 = true ∧ perm (.partitionUnload 0) 2 = true ∧ perm (.haltSwapCommand 0 none) 3 = true
      ∧ perm (.imageAdd 0 0 0 {}) 4 = true ∧ perm (.imageRemove 0 0) 5 = true ∧ perm (.attestationRequest (some 0) 0) 6 = true
      ∧ perm (.powerLimitSet 9) 7 = true ∧ perm (.lodeCopyService 0 0 3 1 true) 8 = true ∧ perm (.firmwareUpdateCommand true) 9 = true
      ∧ perm (.caissonDiscard 0) 12 = true ∧ perm (.registerWrite 0 .wdlim 9) 13 = true ∧ perm (.bypassMaxWrite 0 3) 14 = true
      ∧ perm (.packageIdWrite 3) 15 = true ∧ perm (.invalidationRequest 0 1 0 0) 17 = true) := by decide +kernel
/-- HaltSwap: a command that waits, and one that starts when the swap before it ends. -/
theorem test_witness_SwapQueue : next (.haltSwapCommand 0 none) { base with hf := { base.hf with swap := some {} } } (fun t => t.hf.swaps == [(0, none)]) = true
    ∧ next (.haltSwapRestore true) { base with hf := { base.hf with swap := some { p := 1, drained := true }, swaps := [(0, none)] } }
      (fun t => t.hf.swap == some { p := 0 } && t.hf.swaps.isEmpty) = true := by decide +kernel
/-- HostRegisters: a window's register, STATUS and the MSI-X table through the BARs; an expert's words, idle, after FAIL and busy. -/
theorem test_witness_HostWords : next (.registerWrite 0 (.bar0 0x3F808) 0x1085) base (fun t => ((t.part 0).adit 63).egbase == 0x1080) = true
    ∧ (base.barRead 0 (bar0Place 0x3F800)).toNat = 512
    ∧ next (.registerWrite 0 (.bar2 0x10010) 7) base (fun t => SMap.get 0 (t.part 0).msixTab 1 == 7) = true
    ∧ next (.registerWrite 0 (.ertWord 2 2) 9) (onErt (ert1 0)) (fun t => (t.ert 0 2).lode == 9) = true
    ∧ next (.registerWrite 0 (.ertWord 2 2) 9) (onErt { ert1 0 with fail := true }) (fun t => (t.part 0).xp.reqs == [2]) = true
    ∧ next (.registerWrite 0 (.ertWord 2 2) 9) (onErt (ert1 1)) (fun t => (t.part 0).xp.reqs.isEmpty) = true
    ∧ next (.registerWrite 0 (.hbmCe 7) 9) base (fun t => SMap.get 0 t.cnt 0x2807 == 9) = true := by decide +kernel
/-- HostServices: a lode copy whose address is not there, and answers to PF 0 and to a VF. -/
theorem test_witness_HostAnswers : next (.lodeCopyService 0 0x10000 3 1 true) base (fun t => t.hf.mail == [0x802]) = true
    ∧ base.answer 8 0 = { base with hf := { base.hf with mail := [0x800] } }
    ∧ (((vf2 base).modPart 0 id).answer 8 0).hf = base.hf
    ∧ ({ base with focus := { fn := 1 } }.answer 8 0).part 0 = { part1 with mail := [0x800], msix := [3] } := by decide +kernel
/-- PortsAndClock: a flit out of order whose check fits. -/
theorem test_witness_FlitOutOfOrder : (fun fl : Flit => flitCrc fl = fl.lcrc ∧ fl.seq ≠ (4 : BitVec 8))
    { seq := 5, lcrc := flitCrc { seq := 5 } } :=
  have h : ∀ (f : Flit) (x : BitVec 32), flitCrc { f with lcrc := x } = flitCrc f := fun _ _ => by unfold flitCrc; rfl
  ⟨h { seq := 5 } _, by decide⟩
/-- StepRunsDecoded: a budget that is spent at issue. -/
theorem test_witness_SpentAtIssue : (let s := { (onSeq fun q => { q with budget := 65537 }) with agenda := [{ act := .issue 0 }] }
      match step s with
      | .next t => t.seq.tr.cause == 7 && t.seq.tr.value == 65536
      | _ => false) = true := by decide +kernel

/-! ### Witnesses of clauses on what an aborted task, a memory sequencer, the edges of tasks and the host do -/

/-- Monitor: MARM and MWAIT of an aborted task, and an MWAIT whose bytes differ. -/
theorem test_witness_MonitorSuppressed : next (.marm 1 4 0) (deadTask base) (fun t => t.seq.mon.armed && t.seq.pc == 1) = true
    ∧ next (.mwait 9) (deadTask (onSeq fun q => { q with mon := { addr := 0x0001000000000100, ref := 7, armed := true } }))
      (fun t => !t.seq.mon.armed && t.seq.pc == 1) = true := by decide +kernel
/-- A dirty byte 5 at offset 1 of a line of frame 3, and the base state with it in cell 0's cache. -/
def dirty1 : Line := { data := 5 <<< 8, dirty := 2 }
def cached1 : State := onCell fun x => { x with dc := [(0xC04, dirty1)] }
/-- Fences: a release that reaches HBM, and an acquire after which a clean line of the die shows it. -/
theorem test_witness_FenceReach : next (.fenceRel 4) cached1 (fun t => memRead t.mem.hbm 0x30101 == 5) = true
    ∧ next (.fenceFull 4) ({ cached1 with mem := { hbm := [(0x30140, 9)], die := [(0, [(0xC05, {})])] } })
      (fun t => memRead t.mem.hbm 0x30101 == 5 && (t.dieCache 0).all fun e => e.1 != 0xC05 || e.2.data == 9) = true := by decide +kernel
/-- The cause and the 48 low bits of the value of the trap that an instruction takes. -/
def trapOf (i : Instr) (s : State) : Nat × Nat := match exec i s with
  | .next t => (t.seq.tr.cause.toNat, t.seq.tr.value.toNat % 2 ^ 48)
  | _ => (0, 0)
/-- CopyTraps: one command for each check, in their order. -/
theorem test_witness_CopyChecks :
    (let t := fun (s : State) (ws q : BitVec 1) (src dst len : Word) (assay : BitVec 2) (last : BitVec 1) =>
        trapOf (.copy 1 2 6 ws 0 q 0 last 0 assay) (s.setSeqAt 0 { seq1 with g := [(1, src), (2, dst), (6, len)] })
     let a : Word := 0x0001000000000100
     let b : Word := 0x0001000000000800
     (t base 0 0 a b 512 3 0).1 = 1 ∧ (t base 1 1 a 0 512 0 0).1 = 1 ∧ (t base 0 0 a b 0 0 0).1 = 1
     ∧ (t (onEng { queue := [cmd1].map fun k => { k with last := false, chain := true } }) 0 0 a b 512 2 0).1 = 1
     ∧ (t base 0 0 a 0x0001000000000180 512 0 0).1 = 1 ∧ t base 0 0 (a + 4) b 512 0 0 = (3, 0x104)
     ∧ t base 0 0 a (b + 4) 512 0 0 = (3, 0x804) ∧ t base 0 0 a b 508 0 0 = (3, 508)
     ∧ t base 0 0 0xFFFF000000000000 b 512 0 0 = (5, 0) ∧ t base 0 0 a 0xFFFF000000000008 512 0 0 = (5, 8)
     ∧ t shadow1 0 0 a 0x0002000000000008 512 0 0 = (5, 8) ∧ t base 0 1 a 32 512 0 0 = (5, 32) ∧ t base 0 1 a 3 512 0 0 = (5, 3)
     ∧ t base 1 0 a (6 * 2 ^ 28) 512 0 0 = (5, 6 * 2 ^ 28) ∧ t base 1 0 a 0xFFFFF8 512 0 0 = (5, 0xFFFFF8)
     ∧ t (onCell fun x => { x with m := { x.m with queues := [(3, { depth := 1 })] } }) 0 1 a 3 72 0 0 = (3, 72)) := by decide +kernel
/-- FillIssue: one command for each check, in their order. -/
theorem test_witness_FillChecks :
    (let t := fun (i : Instr) (a b c : Word) =>
        trapOf i ((onTile { size := 16 }).setSeqAt 0 { seq1 with g := [(1, a), (2, b), (6, c)] })
     let a : Word := 0x0001000000000100
     let f := t (.fillContiguous 1 2 2)
     let g := t (.fillGather 1 2 6 2)
     (f a 0 0).1 = 1 ∧ (f a (2 ^ 32) 0).1 = 1 ∧ f a 4 0 = (3, 4) ∧ f 0xFFFF000000000010 64 0 = (5, 16) ∧ f (a + 4) 64 0 = (5, 0x104)
     ∧ f a 1024 0 = (5, 2) ∧ (g a a 16).1 = 1 ∧ g a a 0x20004 = (3, 4) ∧ g (a + 4) a 0x20010 = (5, 0x104)
     ∧ g a (a + 2) 0x20010 = (5, 0x102) ∧ g a a 0x400010 = (5, 2)) := by decide +kernel
/-- WindowBindings: a window offset that is not 0, and a backing and an index vector in a cell-local window. -/
theorem test_witness_WindowRefused :
    (let t := fun (a b c : Word) =>
        trapOf (.wbind 6 4 5 63) (window2.setSeqAt 0 { seq1 with g := [(4, b), (5, c), (6, a)] })
     (t 0x0002000000000001 0x0001000000000100 0x0001000000000200).1 = 1
     ∧ t 0x0002000000000000 0xFFFF000000000000 0x0001000000000200 = (5, 0)
     ∧ t 0x0002000000000000 0x0001000000000100 0xFFFE000000000008 = (5, 8)
     ∧ t 0x0001000000000000 0x0001000000000100 0x0001000000000200 = (5, 0)) := by decide +kernel
/-- Regions: a read record narrowed, and SHRINK past its extent. -/
theorem test_witness_RegionNarrowed :
    (let r := region1 &&& BitVec.ofNat 256 (2 ^ 104 - 1)
     let s := fun (n : Word) => (onGraph fun g => { g with tasks := [{ st := 1, span := 5, regions := [r] }] }).setSeqAt 0 { seq1 with g := [(5, n)] }
     rgKind r = 0 ∧ rgExtent r = 2 ^ 20
     ∧ next (.regionShrink 0 5) (s 4096) (fun t => (t.graph 0 1).any fun g => g.tasks.all fun k => k.regions.map rgExtent == [4096]) = true
     ∧ next (.regionShrink 0 5) (s (2 ^ 20 + 1)) (fun t => t.seq.tr.cause == 1) = true) := by decide +kernel
/-- The base state whose memory sequencer stands in state 1 with an entry, in tile 2. -/
def onMs (e : Nat) (t : Tile) (f : MemSeq → MemSeq) : State := (onCell fun x => x.setTile 2 t).modMs 0 fun k =>
  f { k with table := [(1, BitVec.ofNat 256 (e + 0x0001000000000100 * 2 ^ 64))], cur := 1, span := some 5, halted := false }
/-- MemorySequencer: a state that is left by C0, by C1, and by neither; HALT. -/
theorem test_witness_MsTransition :
    (let s := fun (c0 c1 : Nat) => onMs (5 + 2 * 8 + c0 * 2 ^ 12 + 3 * 2 ^ 20 + c1 * 2 ^ 26 + 4 * 2 ^ 34) {} id
     next (.msTransition 0) (s 1 1) (fun t => (t.ms 0).cur == 3) = true
     ∧ next (.msTransition 0) (s 3 1) (fun t => (t.ms 0).cur == 4) = true
     ∧ keeps (.msTransition 0) (s 3 3) = true
     ∧ keeps (.msTransition 0) ((s 1 1).modMs 0 fun k => { k with halted := true }) = true) := by decide +kernel
/-- MemorySequencer: a piece and an EOR pushed, bytes accepted, a fill asked for, a tile drained, a wait ended. -/
theorem test_witness_MsActions :
    (let act := fun (n : Nat) (t : Tile) (f : MemSeq → MemSeq) =>
        onMs (n + 2 * 8 + 2 ^ 10 + 64 * 2 ^ 128 + 2 ^ 40) t fun k => f { k with busy := true }
     next (.msActionComplete 0) (act 1 { size := 2, state := 2 } id) (fun t => (t.ms 0).out.length == 1 && (t.ms 0).prog == 1) = true
     ∧ next (.msActionComplete 0) (act 1 { size := 2, state := 2 } fun k => { k with prog := 1 }) (fun t => (t.ms 0).out == [{ kind := 5 }]) = true
     ∧ next (.msActionComplete 0) (act 1 { size := 2, state := 2 } fun k => { k with prog := 2 }) (fun t => !(t.ms 0).busy && (t.ms 0).cnt0 == 1) = true
     ∧ next (.msActionComplete 0) (act 2 { size := 2 } id) (fun t => ((t.cell 0).tile 2).state == 1 && (t.ms 0).issued) = true
     ∧ next (.msActionComplete 0) (act 2 { size := 2, state := 1 } fun k => { k with issued := true, inq := [{ pl := true, lmask := 0xFFFF, payload := 9 }] })
        (fun t => ((t.cell 0).tile 2).state == 2 && (t.cell 0).tileNat 2 0 4 == 9) = true
     ∧ next (.msActionComplete 0) (act 3 { size := 2 } id) (fun t => (t.fillEng 0).queue.length == 1 && ((t.cell 0).tile 2).state == 1) = true
     ∧ next (.msActionComplete 0) (act 3 { size := 2, state := 2 } fun k => { k with issued := true }) (fun t => !(t.ms 0).busy) = true
     ∧ next (.msActionComplete 0) (act 4 { size := 2, state := 2 } id) (fun t => ((t.cell 0).tile 2).state == 3) = true
     ∧ next (.msActionComplete 0) (act 5 {} id) (fun t => !(t.ms 0).busy) = true
     ∧ next (.tileDrainComplete 0 2) (onTile { size := 2, state := 3 }) (fun t => ((t.cell 0).tile 2).state == 0) = true) := by decide +kernel
/-- Counters: a queue's count, a counter of another kind, a void-block counter, an index register named in vain. -/
theorem test_witness_CounterKinds : next (.cntr 9 1 0x10) (onCell fun x => { x with m := { x.m with queues := [(7, { depth := 2, toks := [dat 1] })] } })
      (fun t => t.seq.getG 9 == 1) = true
    ∧ next (.cntr 9 0 0x46) base (fun t => t.seq.tr.cause == 1) = true ∧ next (.cntr 9 1 0x40) base (fun t => t.seq.tr.cause == 1) = true
    ∧ next (.cntr 9 1 0x10) (onSeq fun q => { q with g := [(1, 32)] }) (fun t => t.seq.tr.value == 32) = true := by decide +kernel
/-- TaskRelease: a task that is not next; HostStreams, EdgeOfMesh: spans that begin, and an SOT that is held. -/
theorem test_witness_SpanBegins :
    (let g : Graph := { graph1 with tasks := [], templates := some [], entry := { lid := 1, lrec := 1 <<< 64 } }
     g.waiting = [(0, 0), (1, 0)] ∧ (onGraph fun _ => g).ready 0 g (0, 0) = true
     ∧ next (.taskRelease 0 1 1 0) (onGraph fun _ => g) (fun t => (t.graph 0 1).any fun g => g.tasks.isEmpty) = true)
    ∧ next (.hostSpanEntry 0 1) (host1 [] [sot5, { kind := 4, ref := 5 }]) (fun t => (t.graph 0 1).any fun g => g.tasks.all (·.begun)) = true
    ∧ (let s := fun (y : Bool) => (host1 [{ st := 1, span := 5 }] []).modGraph 0 1 fun g =>
         { g with entry := { g.entry with adit := none }, doneSent := true, srcq := [sot5], yreq := y }
       next (.aditIngressEntry 0 1 0) (s false) (fun t => (t.graph 0 1).any fun g => g.srcq.isEmpty && g.tasks.all (·.begun)) = true
       ∧ keeps (.aditIngressEntry 0 1 0) (s true) = true)
    ∧ keeps (.aditEgressWrite 0 1 0) { host1 [] [] with hf := { base.hf with toPoint := some 1 } } = true := by decide +kernel
/-- TaskCourse: a line that die 0 holds dirty and die 1 reads, at FLUSH and at FWD. -/
theorem test_witness_EdgeLine :
    (let s : State := { base with mem := { die := [(0, [(0xC04, dirty1)]), (1, [(0xC04, { data := 6 <<< 8 })])] } }
     let f := fun b => s.edgeLine graph1 [0] [0] [1] 0xC04 b
     memRead (f false).mem.hbm 0x30101 = 5 ∧ smHas ((f false).dieCache 1) 0xC04 = false ∧ ((f false).dieLine 0 0xC04).dirty = 0
     ∧ ((f true).dieLine 1 0xC04).data = 5 <<< 8 ∧ s.edgeLine graph1 [0] [0] [0] 0xC04 true = s) := by decide +kernel
/-- HomeMemory: the first, a further and the last payload block of a chain, a held frame, and a row. -/
theorem test_witness_HomeBlocks :
    (let s := fun (r : List ((Nat × Nat) × BitVec 32)) => { base with mem := { exported := [(3, 5)], homeRuns := r } }
     let b := fun (k : RemoteBlock) => Instr.remoteAccessHome 5 (.frame 3) 0 (.block { k with chain := 2, assay := 1 }) [3, 0, 0, 0]
     next (b { first := true }) (s []) (fun t => t.mem.acks == [(5, 2, 3, none)] && t.mem.homeRuns == [((5, 2), 3)]) = true
     ∧ next (b {}) (s [((5, 2), 4)]) (fun t => t.mem.acks == [(5, 2, 7, none)]) = true
     ∧ next (b { resume := some 1, last := some 4 }) (s []) (fun t => t.mem.acks == [(5, 2, 4, some true)] && t.mem.homeRuns.isEmpty) = true
     ∧ keeps (b { first := true }) { (s []) with hf := { base.hf with swap := some {} } } = true)
    ∧ (let s : State := tabled
       s.rowAt 0 1 8 0 1 = some [(8, 1)]
       ∧ next (.remoteAccessHome 5 (.row 0 1 8) 0 (.acc .write) [9]) s
         (fun t => memRead (t.settle 0x30008 8).mem.hbm 0x30008 == 9) = true) := by decide +kernel
/-- FreezesAndFences, Partitions, HaltSwap: a record that a failed cell's fence keeps, a reset that waits, a restore of a fenced
partition. -/
theorem test_witness_FenceKeeps : next (.cellFailure 0) (onGraph fun g => { g with freeze := some { w1 := 9 } }) (fun t => (t.part 0).fq.queue.contains { w1 := 9 }) = true
    ∧ keeps (.functionLevelReset 0) { base with hf := { base.hf with swap := some { p := 3, q := some 0 } } } = true
    ∧ next (.haltSwapRestore true) { base with
        parts := [(0, { part1 with swapped := true }), (1, { loaded := true, swapped := true, fenced := true, cfg := { bays := [2] } })]
        caisson := [(1, some { part := { loaded := true, cfg := { bays := [2] }, graphs := [{ graph1 with ox := 2 }] } })]
        hf := { base.hf with swap := some { p := 0, q := some 1, drained := true } } }
      (fun t => (t.part 1).fenced && ((t.part 1).graphs.map fun g => (g.frozen, g.fenced)) == [(true, true)]) = true := by decide +kernel
/-- HostRegisters: the export list as a VF and as PF 0 write it, a write before start-up, and the fault stores' commands. -/
theorem test_witness_HostPermits :
    (let v := fun (s : State) => { s with focus := { s.focus with fn := 1 } }
     next (.registerWrite 0 (.exportFrame 3 7 true) 0) (v base) (fun t => t.mem.exported == [(3, 7)]) = true
     ∧ next (.registerWrite 0 (.exportFrame 9 7 true) 0) (v base) (fun t => (t.part 0).mail == [0xD01]) = true
     ∧ next (.registerWrite 0 (.remoteExport 9 7 true) 0) base (fun t => t.mem.remExp == [(7, 9)]) = true
     ∧ next (.registerWrite 0 (.planeMember 7 true) 0) base (fun t => t.mem.domain == [7]) = true
     ∧ keeps (.registerWrite 0 .qdef 9) { base with hf := {} } = true
     ∧ next (.faultRecordRead 0) (vf2 base) (fun t => decide ((vf2 base).answer 19 1 = t)) = true
     ∧ next (.faultRingHeadAdvance 0 1) (vf2 base) (fun t => decide ((vf2 base).answer 20 1 = t)) = true
     ∧ next (.imageAdd 0 1 0 {}) base (fun t => t.hf.mail == [0x402] && (t.part 0).msix == [3]) = true) := by decide +kernel
/-- HostServices, PortsAndClock: a lode copy, power past its limit and fallen back, and a flit that is not the one expected. -/
theorem test_witness_ClockAndLode : next (.lodeCopyService 0 0x10000 3 1 true) (let s := onErt {}; { s with mem := { lode := [(0x10001, 7)] } })
      (fun t => memRead t.mem.hbm 0x30001 == 7 && t.hf.mail == [0x800]) = true
    ∧ next (.dvfsTrigger 1 (.power 2601)) { base with hf := { base.hf with watts := 2600 } } (fun t => t.hf.toPoint == some 1) = true
    ∧ keeps (.dvfsTrigger 1 (.power 2600)) { base with hf := { base.hf with watts := 2600 } } = true
    ∧ next (.dvfsTrigger 0 (.fall 2600)) { base with hf := { base.hf with watts := 2600, point := 2 } } (fun t => t.hf.toPoint == some 0) = true
    ∧ next (.linkFlitReceive 3 { seq := 9 }) { base with hf := { base.hf with links := [(3, { up := true, again := [4], expect := 4 })] } }
      (fun t => (t.link 3).again == [4, 9] && (t.link 3).fails == 0) = true
    ∧ base.reaches 7 = false := by decide +kernel
/-- CopyIssue, ChainEnd: an aborted task's COPY joins the queue, and its chain leaves with no stamp. -/
theorem test_witness_CopyAborted : next (.copy 1 2 6 0 0 0 0 0 0 0) (deadTask (copyRegs 0x0001000000000100 512)) (fun t => (t.eng 0).queue.length == 1 && t.seq.pc == 1) = true
    ∧ next (.chainPassEnd 0) (deadTask (onEng { runs := [(0, { chain := [cmd1], block := 1 })], cur := some 0 }))
      (fun t => (t.eng 0).runs.isEmpty && decide (t.mem = base.mem)) = true := by decide +kernel
/-- FillIssue: an aborted task's FILL joins the queue. -/
theorem test_witness_FillAborted : next (.fillContiguous 1 2 2) (deadTask ((onTile { size := 16 }).setSeqAt 0 { seq1 with g := [(1, 0x0001000000000100), (2, 64)] }))
    (fun t => (t.fillEng 0).queue.length == 1 && t.seq.pc == 1) = true := by decide +kernel
/-- FillEngine: a gather whose backing has no descriptor in the bay's cache. -/
theorem test_witness_FillWalks : (let k : FillCmd := { src := 0x0001000000000000, index := 0x0001000000000200, gather := true, len := 16, rows := 1, tile := 2, span := some 5 }
      let s := (onTile { size := 16, state := 1 }).modFill 0 fun e => { e with queue := [k] }
      next (.gatherFillRow 0) { s with bays := [(0, { tlb := [{ tensor := 1, tr := { entry := entry1 } }] })] }
        (fun t => (t.bay 0).walks.length == 1 && (t.fillEng 0).row == 0) = true) := by decide +kernel
/-- WindowBindings: tensors whose descriptors the bay's cache lacks, one after the other, and an index vector that another package owns. -/
theorem test_witness_WindowWalks :
    (let s := fun (l : List (Nat × BitVec 512)) => { window2 with bays := [(0, { desc := l })] }
     let w := fun (l : List (Nat × BitVec 512)) => next (.wbind 6 4 5 63) (s l) fun t => (t.bay 0).walks.map (fun w => (vaTensor w.va, w.desc)) == [(if l.isEmpty then 2 else 1, true)]
     w [] = true ∧ w [(2, desc1 ||| 2)] = true
     ∧ ((s [(2, desc1 ||| 2)]).cachedDesc 0 2).map (·.shadow) = some true ∧ (s []).cachedDesc 0 2 = none) := by decide +kernel
/-- Scanners: a DATA that comes while a STOP(0) is pending. Repeater: an SOT while one is. -/
theorem test_witness_PendingStop : (let s := onBlock 0 16 { k := [(0, 3)], inq := [(0, [dat 2])], span := some 5 }
      next (.scanD 0 0 0) (s.modCell 0 fun x => { x with m := { x.m with sc0 := { pend := true } } })
        (fun t => ((t.cell 0).scanner 16).owed == [tkStop 0] && t.blk.head 0 == some (dat 2)) = true)
    ∧ next (.rept 0 0) ((onBlock 3 20 { inq := [(0, [sot5]), (1, [sot5])], span := some 5 }).setRp { pend := true })
      (fun t => t.rp.pend && t.rp.owed == [sot5]) = true := by decide +kernel
/-- LevelWriter: a value past its tile's end after a coordinate inside its own. -/
theorem test_witness_LevelPastEnd : (let s := (onBlock 0 18 { k := [(0, 3), (3, 64)], inq := [(0, [{ coord := 2 }]), (1, [dat 0x55])], span := some 5 }).modCell 0 fun x =>
        (x.setTile 4 { size := 1, state := 2 }).setTile 5 { base := 1, size := 1, state := 2 }
      next (.lwriteC 4 5 6 1) (s.modCell 0 fun x => x.setTile 6 { base := 2, size := 1, state := 2 })
        (fun t => (t.cell 0).tileNat 4 0 4 == 2 && (t.graph 0 1).any (·.freeze.isSome)) = true) := by decide +kernel
/-- Deliveries: an output stage with one code twice, and one place. -/
theorem test_witness_TwoEqualCodes : codeDest 0 0x34 = none ∧ codeDest 0 0x33 = some (.port 7 0)
    ∧ (let s := (onElem 0 1 { out := [(dat 1, [0x33, 0x33])] }).modCell 0 fun x => { x with router := { x.router with
          words := [encodeSwitch (.route 7 2 0)], inb := [(21, List.replicate (inbDepth 0 7 0 - 1) (dat 0))] } }
       next (.outputStageDelivery 0 1) s (fun t => ((t.cell 0).elem 1).out == [(dat 1, [0x33])]) = true) := by decide +kernel
/-- Adits: a DONE that finds the queue full. -/
theorem test_witness_AditFullDone : next (.aditTokenWrite 0 63 (some (slot tkDone))) (base.modAdit 0 63 fun a => { a with queue := List.replicate 512 {}, streams := [{}] })
    (fun t => !((t.part 0).adit 63).broken && ((t.part 0).adit 63).streams == [{ left := some 512 }]) = true := by decide +kernel
/-- TaskRelease: a lease that no chunk grants while port 0x86 is stopped, in queue mode and in ring mode. -/
theorem test_witness_LeaseRinged : (let s := fun (r : Bool) => { ((onGraph fun g => { g with tasks := [], templates := some [region1] }).modPart 0 fun q =>
          { q with fq := { ring := r, ringSize := 4 } }).modCell 0 fun x => { x with stopped := [0x86] } with
          bays := [(0, { desc := [(1, desc1 ||| BitVec.ofNat 512 (2 ^ 64 * 0x1000 + 2 ^ 128))] })] }
      let r := fun (b : Bool) => ((s b).tryRelease 0 (((s b).graph 0 1).getD {}) 0 0 5).map fun t => ((t.part 0).fq.queue.length, (t.part 0).fq.ringOut.length)
      r false = some (0, 0) ∧ r true = some (0, 1)) := by decide +kernel
/-- TaskCourse: tasks of experts that retire and abort, a read record at the last class of the drain, and FWD onto a line with dirty bytes. -/
theorem test_witness_ExpertTask :
    (let s := fun (k : Task) => onGraph fun g => { g with entry := { g.entry with ragged := some 0 }, tasks := [k] }
     let k : Task := { st := 2, span := 4, acks := 63, regions := [region1 &&& BitVec.ofNat 256 (2 ^ 104 - 1)] }
     next (.taskDrainAck 0 1 0 0 5) (s { k with acks := 31 }) (fun t => (t.graph 0 1).any fun g => g.tasks.all fun k => k.regions.all fun w => rgCur w == rgEnd w) = true
     ∧ next (.taskRetire 0 1 0 0) (s { k with regions := [] }) (fun t => (t.graph 0 1).any (·.tasks.isEmpty)) = true
     ∧ next (.taskAbort 0 1 0 0 0) (s { k with st := 1 }) (fun t => (t.graph 0 1).any fun g => g.aborted == 1) = true)
    ∧ (let s : State := { base with mem := { die := [(0, [(0xC04, dirty1)]), (1, [(0xC04, { data := 6 <<< 16, dirty := 4 })])] } }
       let t := s.edgeLine graph1 [0] [0] [1] 0xC04 true
       (t.dieLine 0 0xC04).dirty = 2 ∧ (t.dieLine 1 0xC04).dirty = 0 ∧ memRead t.mem.hbm 0x30102 = 6) := by decide +kernel
/-- FreezesAndFences, TranslationEvents: a release and a resume that find nothing to do, and those of another function. -/
theorem test_witness_Refused : next (.graphRelease 0 1) base (fun t => decide (base.answer 10 2 = t)) = true
    ∧ next (.graphRelease 0 1) (vf2 base) (fun t => decide ((vf2 base).answer 10 1 = t)) = true
    ∧ next (.portResume 0 0x81) base (fun t => decide (base.answer 16 2 = t)) = true
    ∧ next (.portResume 0 0x81) (vf2 base) (fun t => decide ((vf2 base).answer 16 1 = t)) = true
    ∧ next (.registerWrite 5 .fmode 1) base (fun t => decide (base.answer 13 2 = t)) = true := by decide +kernel
/-- HostRegisters: a write of a FAIL entry while the partition is swapped out. -/
theorem test_witness_ErtSwapped : (let s := (onErt { ert1 0 with fail := true }).modPart 0 fun q => { q with swapped := true }
      next (.registerWrite 0 (.ertWord 2 2) 9) { s with caisson := [(0, some {})] }
        (fun t => (t.part 0).xp.reqs.isEmpty && (SMap.get none t.caisson 0).any fun k => k.part.xp.reqs == [2]) = true) := by decide +kernel
/-- PortsAndClock: a completion word that waits for a path, one that goes out when it comes, and events that wait for the clock. -/
theorem test_witness_Held : next (.packageIdWrite 3) { base with hf := { base.hf with owed := [{ part := 0 }] } } (fun t => t.hf.owed.isEmpty) = true
    ∧ keeps (.placementLoadComplete 0 1) ((onGraph fun g => { g with loading := true }).modPart 0 id |> fun s => { s with hf := { base.hf with toPoint := some 1 } }) = true
    ∧ keeps (.translationWalkComplete (0, 0)) { walk1 0x0001000000000100 0x80 with hf := { base.hf with toPoint := some 1 } } = true := by
  decide +kernel

end Sys2Proof.Tests
end

section
/-! Counters (R322, R324, R325): what the checks of CNTR and CNTW refuse, what the two instructions do where the checks
pass, and the ILLOP trap of a control word that decodes to nothing (R65). -/

namespace Sys2Proof.Machine

/-! ### A word that is no control word -/

@[simp] theorem State.issued_focus (s : State) (c : Nat) : (s.issued c).focus = s.focus := by
  simp only [State.issued]
  split
  · rfl
  · split <;> rfl

/-- Counting an instruction as issued leaves the trap registers of its sequencer. -/
@[simp] theorem State.issued_tr (s : State) (c : Nat) : ((s.issued c).seqAt c).tr = (s.seqAt c).tr := by
  have hbump : (s.bump c 0x040 1).seqAt c = s.seqAt c := by simp [State.bump, State.seqAt]
  simp only [State.issued]
  split
  · rfl
  · split <;> simp [hbump]

theorem OnlySeq.focus_eq {s t : State} (h : OnlySeq s t) : t.focus = s.focus :=
  have e := congrArg State.focus h.rest
  e

/-- A sequencer that takes traps takes ILLOP at a word that is no control word (R65, R107). -/
theorem trapsIllop_of_decodeControl_eq_none {s : State} {w : BitVec 32} (hw : decodeControl w = none)
    (ht : TakesTraps s) : TrapsIllop s w := by
  let t := s.trapOn s.focus.cell 0x01 (w.setWidth 64) s.seq.pc s.seq.loopst (w.setWidth 64)
  have htrap : TrapsTo s t 0x01 (w.setWidth 64) s.seq.pc s.seq.loopst := s.trapOn_takes ht ..
  have hissue : s.issueWord s.focus.cell w = .next (t.issued s.focus.cell) := by
    simp only [State.issueWord, hw]; rfl
  have htr : (t.issued s.focus.cell).seq.tr = t.seq.tr := by
    simp only [State.seq, State.issued_focus, htrap.only.focus_eq, State.issued_tr]
  refine ⟨hw, _, hissue, ?_⟩
  rw [htr]
  exact ⟨htrap.trapc, htrap.trapv, htrap.trappc, htrap.saved, htrap.mode⟩

/-- The words of CNTR and CNTW with a bit of sel15[14:7] set are no control words (R65, R324). -/
theorem decodeControl_counter_eq_none {w : BitVec 32} (hop : w.extractLsb' 25 7 = 0x49 ∨ w.extractLsb' 25 7 = 0x4A)
    (hsel : w.extractLsb' 7 8 ≠ 0) : decodeControl w = none := by
  rcases hop with hop | hop <;> simpa [decodeControl, rawControl, hop] using hsel

/-! ### The checks of CNTR and CNTW -/

/-- The number names a counter that takes its index from a register (R322). -/
def CntIndexed (k : Nat) : Prop :=
  (0x10 ≤ k ∧ k ≤ 0x13) ∨ k = 0x18 ∨ k = 0x1D ∨ k = 0x1F ∨ (0x28 ≤ k ∧ k ≤ 0x2A)

/-- A window id that names a shadow window, by its descriptor as the cell's bay holds it (R324). -/
def NamesShadow (s : State) (c : Nat) (v : Word) : Prop :=
  let e := s.desc ((s.partOf c).getD 0) (bayOf c) v.toNat
  v.toNat < 0xFFFE ∧ e.v = true ∧ e.ok = true ∧ e.shadow = true

/-- The index lies in the range of the counter (R322, R324); an unindexed counter has none. -/
def CntInRange (s : State) (c k : Nat) (v : Word) : Prop :=
  (0x10 ≤ k ∧ k ≤ 0x12 → v.toNat < 32) ∧ ((k = 0x13 ∨ k = 0x1D) → v.toNat < 16)
    ∧ (k = 0x18 → NamesShadow s c v) ∧ (k = 0x1F → v.toNat < 64) ∧ ((k = 0x28 ∨ k = 0x29) → v.toNat < 8)
    ∧ (k = 0x2A → v.toNat < 18)

theorem cntAssigned_iff (kind k : Nat) : cntAssigned kind k = true ↔
    k ≤ 0x04 ∨ (kind = 0 ∧ (0x08 ≤ k ∧ k ≤ 0x0D ∨ k = 0x10)) ∨ (0x11 ≤ k ∧ k ≤ 0x14) ∨ (0x18 ≤ k ∧ k ≤ 0x21)
      ∨ (0x28 ≤ k ∧ k ≤ 0x2A) ∨ (0x40 ≤ k ∧ k ≤ 0x45) ∨ (kind = 2 ∧ (k = 0x46 ∨ k = 0x47)) := by
  simp only [cntAssigned, Bool.or_eq_true, Bool.and_eq_true, decide_eq_true_eq, beq_iff_eq]
  omega

theorem cntSys_iff (k : Nat) : cntSys k = true ↔ k = 0x04 ∨ (0x28 ≤ k ∧ k ≤ 0x2A) := by
  simp [cntSys]

theorem cntRange_eq_none_iff (k : Nat) : cntRange k = none ↔ ¬ CntIndexed k := by
  simp only [cntRange, CntIndexed, Bool.or_eq_true, beq_iff_eq]
  repeat' split
  all_goals simp only [reduceCtorEq, true_iff, false_iff]
  all_goals omega

theorem cntInRange_of_not_indexed (s : State) (c : Nat) {k : Nat} (v : Word) (h : ¬ CntIndexed k) : CntInRange s c k v := by
  unfold CntIndexed at h
  refine ⟨?_, ?_, ?_, ?_, ?_, ?_⟩ <;> intro hk <;> omega

/-- The index check as the ranges of R322 and R324 give it. -/
theorem cntIndexOk_iff (s : State) (c k : Nat) (v : Word) : s.cntIndexOk c k v = true ↔ CntInRange s c k v := by
  by_cases hi : CntIndexed k
  · unfold CntIndexed at hi
    by_cases htail : k = 0x18
    · subst htail
      have hsmall : v.toNat < 0xFFFE → v.toNat < 0x10000 := fun h => by omega
      simpa [State.cntIndexOk, cntRange, CntInRange, NamesShadow, and_assoc] using fun h _ _ _ => hsmall h
    · have hk : k = 0x10 ∨ k = 0x11 ∨ k = 0x12 ∨ k = 0x13 ∨ k = 0x1D ∨ k = 0x1F ∨ k = 0x28 ∨ k = 0x29 ∨ k = 0x2A := by omega
      rcases hk with rfl | rfl | rfl | rfl | rfl | rfl | rfl | rfl | rfl <;>
        simp [State.cntIndexOk, cntRange, CntInRange]
  · have hr : cntRange k = none := (cntRange_eq_none_iff k).mpr hi
    simp [State.cntIndexOk, hr, cntInRange_of_not_indexed s c v hi]

/-- A counter named rightly: assigned, with no index register unless it is indexed, and the index in its range (R324). -/
theorem cntBad_eq_none {s : State} (i : Instr) {n : BitVec 7} {r : BitVec 5}
    (ha : cntAssigned (kindOf s.focus.cell) n.toNat = true) (hr : ¬ CntIndexed n.toNat → r = 0)
    (hv : CntInRange s s.focus.cell n.toNat (s.seq.getG r)) : s.cntBad i n r = none := by
  have hnone : cntRange n.toNat = none → r = 0#5 := fun h => hr ((cntRange_eq_none_iff _).mp h)
  simpa [State.cntBad, ha, (cntIndexOk_iff ..).mpr hv] using hnone

/-- An unassigned number, or an index register named in vain, is refused with the word (R324). -/
theorem cntBad_eq_word {s : State} (i : Instr) {n : BitVec 7} {r : BitVec 5}
    (h : ¬ cntAssigned (kindOf s.focus.cell) n.toNat = true ∨ (¬ CntIndexed n.toNat ∧ r ≠ 0)) :
    s.cntBad i n r = some (wordOf i) := by
  unfold State.cntBad
  split
  · rfl
  · rename_i ha
    obtain ⟨hi, hr⟩ := h.resolve_left (by simpa using ha)
    rw [if_pos (by simpa [(cntRange_eq_none_iff _).mpr hi] using hr)]

/-- An index out of the counter's range is refused with the index (R324). -/
theorem cntBad_eq_index {s : State} (i : Instr) {n : BitVec 7} {r : BitVec 5}
    (ha : cntAssigned (kindOf s.focus.cell) n.toNat = true) (hi : CntIndexed n.toNat)
    (hv : ¬ CntInRange s s.focus.cell n.toNat (s.seq.getG r)) : s.cntBad i n r = some (s.seq.getG r) := by
  have hr : cntRange n.toNat ≠ none := fun h => (cntRange_eq_none_iff _).mp h hi
  have hv' : s.cntIndexOk s.focus.cell n.toNat (s.seq.getG r) = false := by simpa using mt (cntIndexOk_iff ..).mp hv
  simp [State.cntBad, ha, hr, hv']

/-! ### CNTR and CNTW (R324, R325) -/

theorem exec_cntr (d a : BitVec 5) (n : BitVec 7) (s : State) : exec (.cntr d a n) s = execCntr d a n s := rfl
theorem exec_cntw (d a : BitVec 5) (n : BitVec 7) (s : State) : exec (.cntw d a n) s = execCntw d a n s := rfl

section
variable {s : State} {d a : BitVec 5} {n : BitVec 7}

theorem cntr_reads (h : s.cntBad (.cntr d a n) n a = none) :
    Gives (.cntr d a n) s (WritesReg s · d (s.cntValue s.focus.cell n.toNat (s.seq.getG a).toNat)) := by
  simp only [Gives, exec_cntr, execCntr, h]
  exact s.doneG_gives _ _ _ rfl

theorem cntr_traps {v : Word} (h : s.cntBad (.cntr d a n) n a = some v) (ht : TakesTraps s) :
    Gives (.cntr d a n) s (TrapsTo s · 0x01 v s.seq.pc s.seq.loopst) := by
  simp only [Gives, exec_cntr, execCntr, h]
  exact s.trapSelf_gives ht ..

theorem cntw_traps {v : Word} (h : s.cntBad (.cntw d a n) n d = some v) (ht : TakesTraps s) :
    Gives (.cntw d a n) s (TrapsTo s · 0x01 v s.seq.pc s.seq.loopst) := by
  simp only [Gives, exec_cntw, execCntw, h]
  exact s.trapSelf_gives ht ..

/-- A P counter is written, with the events of the write's own tick counted after it (R325). -/
theorem cntw_writes (h : s.cntBad (.cntw d a n) n d = none) (hp : 0x40 ≤ n.toNat) :
    Gives (.cntw d a n) s fun t => t = (s.modCell s.focus.cell fun x =>
      { x with cnt := SMap.set x.cnt n.toNat (s.seq.getG a + SMap.get 0 x.now n.toNat) }).setSeq s.seq.stepPc := by
  have hsys : ¬ cntSys n.toNat = true := by rw [cntSys_iff]; omega
  refine ⟨_, ?_, rfl⟩
  simp only [exec_cntw, execCntw, h, if_neg hsys, if_pos hp]
  rfl

/-- A C or H counter is left (R3, R324). -/
theorem cntw_leaves (h : s.cntBad (.cntw d a n) n d = none) (hp : n.toNat < 0x40) (hsys : ¬ cntSys n.toNat = true) :
    Gives (.cntw d a n) s (WritesReg s · 0 0) := by
  simp only [Gives, exec_cntw, execCntw, h, if_neg hsys, if_neg (Nat.not_le.mpr hp)]
  exact s.done_gives

/-- A write of an S counter traps PRIV (R3, R324). -/
theorem cntw_traps_priv (h : s.cntBad (.cntw d a n) n d = none) (hsys : cntSys n.toNat = true) (ht : TakesTraps s) :
    Gives (.cntw d a n) s (TrapsTo s · 0x02 (BitVec.ofNat 64 n.toNat) s.seq.pc s.seq.loopst) := by
  have hv : n.zeroExtend 64 = BitVec.ofNat 64 n.toNat := (BitVec.ofNat_toNat ..).symm
  simp only [Gives, exec_cntw, execCntw, h, if_pos hsys, hv]
  exact s.trapSelf_gives ht ..

end

/-! ### The values read (R322) -/

section
variable (s : State) (c i : Nat)

theorem cntValue_tbase : s.cntValue c 0x00 i = s.tbase := rfl
theorem cntValue_copySeq : s.cntValue c 0x08 i = (s.cell c).m.copy.seq.setWidth 64 := rfl
theorem cntValue_fillSeq : s.cntValue c 0x09 i = (s.cell c).m.fill.seq.setWidth 64 := rfl
theorem cntValue_queueTokens :
    s.cntValue c 0x10 i = BitVec.ofNat 64 (SMap.get {} (s.cell c).m.queues i).toks.length := rfl

/-- The counters from 0x40 on are those of the cell, 64 bits wide. -/
theorem cntValue_cell {k : Nat} (hlo : 0x40 ≤ k) (hhi : k ≤ 0x47) : s.cntValue c k i = SMap.get 0 (s.cell c).cnt k := by
  have hk : k = 0x40 ∨ k = 0x41 ∨ k = 0x42 ∨ k = 0x43 ∨ k = 0x44 ∨ k = 0x45 ∨ k = 0x46 ∨ k = 0x47 := by omega
  rcases hk with rfl | rfl | rfl | rfl | rfl | rfl | rfl | rfl <;> rfl

end

/-- Settles O25: the clauses on refusals from the checks of R324, those on effects from what CNTR and CNTW do where the
checks pass. -/
theorem counters : Obligations.Counters := by
  intro s d a n w c k x assigned indexed window inRange ok rd wr
  have hA : cntAssigned (kindOf s.focus.cell) n.toNat = true ↔ assigned := cntAssigned_iff ..
  have passes : ∀ (i : Instr) (r : BitVec 5), ok r → s.cntBad i n r = none := fun i r ⟨ha, hr, hv⟩ =>
    cntBad_eq_none i (hA.mpr ha) hr hv
  have refused : ∀ (i : Instr) (r : BitVec 5), (¬ assigned ∨ (¬ indexed ∧ r ≠ 0)) → s.cntBad i n r = some (wordOf i) :=
    fun i r h => cntBad_eq_word i (h.imp_left (mt hA.mp))
  have outside : ∀ (i : Instr) (r : BitVec 5), assigned → indexed → ¬ inRange (s.seq.getG r) →
      s.cntBad i n r = some (s.seq.getG r) := fun i r ha hi hv => cntBad_eq_index i (hA.mpr ha) hi hv
  refine ⟨fun h => cntr_reads (passes _ _ h), fun h => ?_, cntValue_cell s c 0, fun q h => ?_, fun h => ?_, fun h => ?_,
    fun h hp => cntw_writes (passes _ _ h) hp, fun h hp h4 hs => ?_, fun ht h hs => ?_,
    fun ht h => cntr_traps (refused _ _ h) ht, fun ht h => cntw_traps (refused _ _ h) ht,
    fun ht ha hi hv => cntr_traps (outside _ _ ha hi hv) ht, fun ht ha hi hv => cntw_traps (outside _ _ ha hi hv) ht,
    fun hop hsel ht => trapsIllop_of_decodeControl_eq_none (decodeControl_counter_eq_none hop hsel) ht⟩
  · rw [h, cntValue_tbase]
  · rw [h, cntValue_queueTokens]
  · rw [h, cntValue_copySeq]
  · rw [h, cntValue_fillSeq]
  · exact cntw_leaves (passes _ _ h) hp fun hsys => ((cntSys_iff _).mp hsys).elim h4 hs
  · exact cntw_traps_priv (passes _ _ h) ((cntSys_iff _).mpr hs) ht

end Sys2Proof.Machine
end

section
/-! Fences that the host asks for (R338) and start-up (R357). -/

namespace Sys2Proof.Machine

/-- Before start-up the host writes no register (R357). -/
theorem registerWrite_before_startup {s : State} (p : Nat) (r : HostReg) (v : BitVec 64) (h : s.hf.booted = false) :
    exec (.registerWrite p r v) s = .next s := by
  change execRegisterWrite p r v s = .next s
  simp only [execRegisterWrite, h, Bool.not_false, if_true]

/-- A package that has not started, with launch 1 placed in its partition 0: what the clause on FENCE_GRAPH allows, since it
asks for a loaded partition and not for a started package. -/
def unstartedWithGraph : State :=
  { parts := [(0, { loaded := true, graphs := [{ lid := 1, entry := { lid := 1 } }] })] }

/-- Refutes O58: the clause on system software's fence does not ask that the package has started. Before start-up the write is
ignored (R357), so it adds no dump to those of the state, where the clause claims one more. -/
theorem not_freezesAndFences : ¬ Obligations.FreezesAndFences := by
  intro h
  obtain ⟨hplaced, -⟩ := h unstartedWithGraph 0 1 0 0 { lid := 1, entry := { lid := 1 } } {} 0
  obtain ⟨-, -, -, -, -, hfence, -⟩ := hplaced rfl
  obtain ⟨t, hstep, -, -, hdumps, -⟩ :=
    hfence ⟨by decide, by decide, by decide, by decide⟩ rfl rfl (.inl rfl) rfl rfl rfl
  rw [registerWrite_before_startup _ _ _ rfl] at hstep
  injection hstep with hsame
  subst hsame
  exact absurd hdumps (by decide)

end Sys2Proof.Machine
end

section
/-! Integer arithmetic, logic and shifts (R48, R95, R96): the value of each instruction over the exact integers that its
operands stand for. -/

namespace Sys2Proof.Machine

/-- An instruction that completes with one register written does only that, whatever term stands for the value (R94). -/
theorem gives_writesReg {i : Instr} {s : State} {d : BitVec 5} {v w : Word} (hexec : exec i s = s.doneG d w)
    (hval : w = v) : Gives i s (WritesReg s · d v) := by
  rw [Gives, hexec]
  exact s.doneG_gives d v w hval

section
variable (x y : Word) (n : Nat)

/-! ### Sums, products and quotients -/

theorem sub_eq_ofInt : x - y = BitVec.ofInt 64 (x.toInt - y.toInt) := by
  rw [BitVec.sub_eq_add_neg, Int.sub_eq_add_neg, BitVec.ofInt_add, BitVec.ofInt_neg, BitVec.ofInt_toInt, BitVec.ofInt_toInt]

theorem add_immS15_eq (imm : BitVec 15) : x + immS15 imm = BitVec.ofInt 64 (x.toInt + imm.toInt) := by
  rw [BitVec.ofInt_add, BitVec.ofInt_toInt]
  rfl

theorem extractLsb'_high_ofInt (z : Int) : (BitVec.ofInt 128 z).extractLsb' 64 64 = BitVec.ofInt 64 (z / 2 ^ 64) := by
  apply BitVec.eq_of_toNat_eq
  simp only [BitVec.extractLsb'_toNat, BitVec.toNat_ofInt, Nat.shiftRight_eq_div_pow]
  omega

theorem mulHighS_eq : mulHighS x y = BitVec.ofInt 64 (x.toInt * y.toInt / 2 ^ 64) := by
  rw [← extractLsb'_high_ofInt, BitVec.ofInt_mul]
  rfl

theorem mulHighU_eq : mulHighU x y = BitVec.ofNat 64 (x.toNat * y.toNat / 2 ^ 64) := by
  have hcast : ((x.toNat * y.toNat / 2 ^ 64 : Nat) : Int) = (x.toNat : Int) * y.toNat / 2 ^ 64 := by norm_cast
  rw [← BitVec.ofInt_natCast, hcast, ← extractLsb'_high_ofInt, BitVec.ofInt_mul]
  simp only [BitVec.ofInt_natCast, BitVec.ofNat_toNat]
  rfl

theorem divSV_eq : divSV x y = if y = 0 then 0xFFFFFFFFFFFFFFFF#64 else BitVec.ofInt 64 (x.toInt.tdiv y.toInt) := by
  have hdiv : x.sdiv y = BitVec.ofInt 64 (x.toInt.tdiv y.toInt) :=
    BitVec.eq_of_toInt_eq (by rw [BitVec.toInt_sdiv, BitVec.toInt_ofInt])
  simp only [divSV, beq_iff_eq, hdiv]
  rfl

theorem divUV_eq : divUV x y = if y = 0 then 0xFFFFFFFFFFFFFFFF#64 else BitVec.ofNat 64 (x.toNat / y.toNat) := by
  simp only [divUV, beq_iff_eq, BitVec.udiv_def]
  rfl

theorem remSV_eq : remSV x y = if y = 0 then x else BitVec.ofInt 64 (x.toInt.tmod y.toInt) := by
  rw [← BitVec.toInt_srem, BitVec.ofInt_toInt]
  simp only [remSV, beq_iff_eq]

theorem remUV_eq : remUV x y = if y = 0 then x else BitVec.ofNat 64 (x.toNat % y.toNat) := by
  simp only [remUV, beq_iff_eq, BitVec.umod_def]

/-! ### Lesser and greater -/

theorem minS_eq : (if y.slt x then y else x) = if x.toInt ≤ y.toInt then x else y := by
  simp only [BitVec.slt_iff_toInt_lt, ← Int.not_lt, ite_not]

theorem minU_eq : (if y.ult x then y else x) = if x.toNat ≤ y.toNat then x else y := by
  simp only [BitVec.ult_iff_lt, BitVec.lt_def, ← Nat.not_lt, ite_not]

/-- The two tests differ on equal operands alone, and the greater of those is either. -/
theorem maxS_eq : (if x.slt y then y else x) = if x.toInt ≤ y.toInt then y else x := by
  by_cases heq : x.toInt = y.toInt
  · rw [BitVec.eq_of_toInt_eq heq, ite_self, ite_self]
  · simp only [BitVec.slt_iff_toInt_lt, Int.lt_iff_le_and_ne, heq, ne_eq, not_false_eq_true, and_true]

theorem maxU_eq : (if x.ult y then y else x) = if x.toNat ≤ y.toNat then y else x := by
  by_cases heq : x.toNat = y.toNat
  · rw [BitVec.eq_of_toNat_eq heq, ite_self, ite_self]
  · simp only [BitVec.ult_iff_lt, BitVec.lt_def, Nat.lt_iff_le_and_ne, heq, ne_eq, not_false_eq_true, and_true]

/-! ### Shifts -/

theorem shiftLeft_eq_ofNat : x <<< n = BitVec.ofNat 64 (x.toNat * 2 ^ n) := by
  rw [← Nat.shiftLeft_eq]
  rfl

theorem shiftLeft_eq_ofInt : x <<< n = BitVec.ofInt 64 (x.toInt * 2 ^ n) := by
  have hcast : (2 : Int) ^ n = ((2 ^ n : Nat) : Int) := by norm_cast
  have hpow : BitVec.ofInt 64 (2 ^ n) = BitVec.twoPow 64 n :=
    BitVec.eq_of_toNat_eq (by rw [hcast, BitVec.ofInt_natCast, BitVec.toNat_ofNat, BitVec.toNat_twoPow])
  rw [BitVec.shiftLeft_eq_mul_twoPow, BitVec.ofInt_mul, BitVec.ofInt_toInt, hpow]

theorem ushiftRight_eq_ofNat : x >>> n = BitVec.ofNat 64 (x.toNat / 2 ^ n) := by
  rw [← Nat.shiftRight_eq_div_pow, ← BitVec.toNat_ushiftRight, BitVec.ofNat_toNat, BitVec.setWidth_eq]

/-- An arithmetic shift to the right floors. -/
theorem sshiftRight_eq_ofInt : x.sshiftRight n = BitVec.ofInt 64 (x.toInt / 2 ^ n) := by
  rw [BitVec.sshiftRight, Int.shiftRight_eq_div_pow]
  norm_cast

end

/-- Settles O8: every instruction completes with one register written, so each clause is the equation of its value. -/
theorem integerAndLogic : Obligations.IntegerAndLogic :=
  ⟨fun s _ _ _ => ⟨
    s.done_gives,
    gives_writesReg rfl (BitVec.add_def ..),
    gives_writesReg rfl (sub_eq_ofInt ..),
    gives_writesReg rfl rfl,
    gives_writesReg rfl (mulHighS_eq ..),
    gives_writesReg rfl (mulHighU_eq ..),
    gives_writesReg rfl (divSV_eq ..),
    gives_writesReg rfl (divUV_eq ..),
    gives_writesReg rfl (remSV_eq ..),
    gives_writesReg rfl (remUV_eq ..),
    gives_writesReg rfl (minS_eq ..),
    gives_writesReg rfl (minU_eq ..),
    gives_writesReg rfl (maxS_eq ..),
    gives_writesReg rfl (maxU_eq ..)⟩,
  fun _ _ _ _ _ _ => ⟨
    gives_writesReg rfl rfl,
    gives_writesReg rfl rfl,
    gives_writesReg rfl rfl,
    gives_writesReg rfl (add_immS15_eq ..),
    gives_writesReg rfl rfl,
    gives_writesReg rfl rfl,
    gives_writesReg rfl rfl,
    gives_writesReg rfl (shiftLeft_eq_ofNat ..),
    gives_writesReg rfl (shiftLeft_eq_ofNat ..),
    gives_writesReg rfl (ushiftRight_eq_ofNat ..),
    gives_writesReg rfl (ushiftRight_eq_ofNat ..),
    gives_writesReg rfl (sshiftRight_eq_ofInt ..),
    gives_writesReg rfl (sshiftRight_eq_ofInt ..)⟩⟩

end Sys2Proof.Machine
end

section
/-! Fields, addresses and bit counts (R99, R100): the values that LDI, EXTR, INSR, IXA and BITC write, and the field past
bit 63 that EXTR and INSR refuse. -/

namespace Sys2Proof.Machine

/-! ### Immediates and scaled indices -/

theorem immLdi_eq (imm : BitVec 20) : immLdi imm = BitVec.ofInt 64 (imm.toInt * 2 ^ 12) := by
  rw [immLdi, shiftLeft_eq_ofInt, BitVec.toInt_signExtend_of_le (by decide)]

theorem toInt_ixaOperand (y : Word) (w : BitVec 1) :
    (ixaOperand y w).toInt = if w = 1 then (y.setWidth 32).toInt else y.toInt := by
  simp only [ixaOperand, beq_iff_eq, apply_ite BitVec.toInt]
  rw [BitVec.toInt_signExtend_of_le (by decide)]

theorem add_ixaOperand_shiftLeft_eq (x y : Word) (w : BitVec 1) (n : Nat) : x + (ixaOperand y w <<< n)
    = x + BitVec.ofInt 64 ((if w = 1 then (y.setWidth 32).toInt else y.toInt) * 2 ^ n) := by
  rw [shiftLeft_eq_ofInt, toInt_ixaOperand]

/-! ### Fields -/

theorem toNat_mask {m : Nat} (hm : m ≤ 64) : (BitVec.ofNat 64 (2 ^ m - 1)).toNat = 2 ^ m - 1 := by
  have hpow : 2 ^ m ≤ 2 ^ 64 := Nat.pow_le_pow_right (by decide) hm
  rw [BitVec.toNat_ofNat, Nat.mod_eq_of_lt (Nat.sub_one_lt_of_le (Nat.two_pow_pos m) hpow)]

theorem getLsbD_mask (m k : Nat) : (BitVec.ofNat 64 (2 ^ m - 1)).getLsbD k = decide (k < 64 ∧ k < m) := by
  simp [BitVec.getLsbD_ofNat, Nat.testBit_two_pow_sub_one]

theorem extractField_eq (x : Word) {l m : Nat} (hm : m ≤ 64) :
    extractField x l m = BitVec.ofNat 64 (x.toNat / 2 ^ l % 2 ^ m) := by
  rw [← BitVec.setWidth_eq (extractField x l m), ← BitVec.ofNat_toNat, extractField, BitVec.toNat_and, toNat_mask hm,
    Nat.and_two_pow_sub_one_eq_mod, BitVec.toNat_ushiftRight, Nat.shiftRight_eq_div_pow]

theorem getLsbD_insertField (v x : Word) (l m : Nat) {k : Nat} (hk : k < 64) : (insertField v x l m).getLsbD k =
    if l ≤ k ∧ k < l + m then x.getLsbD (k - l) else v.getLsbD k := by
  simp only [insertField, BitVec.getLsbD_or, BitVec.getLsbD_and, BitVec.getLsbD_not, BitVec.getLsbD_shiftLeft,
    getLsbD_mask, hk, decide_true, Bool.true_and]
  by_cases hbelow : k < l
  · simp [hbelow, Nat.not_le.mpr hbelow]
  · have hinside : (k - l < 64 ∧ k - l < m) ↔ k < l + m := by omega
    by_cases hend : k < l + m <;> simp [hbelow, hinside, hend, Nat.not_lt.mp hbelow]

section
variable {s : State} {d a : BitVec 5} {lsb wid : BitVec 6}

theorem exec_extr_of_fits (hfits : lsb.toNat + (wid.toNat + 1) ≤ 64) : exec (.extr d a lsb wid) s
    = s.doneG d (extractField (s.seq.getG a) lsb.toNat (wid.toNat + 1)) := if_neg (Nat.not_lt.mpr hfits)

theorem exec_insr_of_fits (hfits : lsb.toNat + (wid.toNat + 1) ≤ 64) : exec (.insr d a lsb wid) s
    = s.doneG d (insertField (s.seq.getG d) (s.seq.getG a) lsb.toNat (wid.toNat + 1)) := if_neg (Nat.not_lt.mpr hfits)

theorem exec_extr_of_exceeds (hexceeds : 64 < lsb.toNat + (wid.toNat + 1)) :
    exec (.extr d a lsb wid) s = s.illop (.extr d a lsb wid) := if_pos hexceeds

theorem exec_insr_of_exceeds (hexceeds : 64 < lsb.toNat + (wid.toNat + 1)) :
    exec (.insr d a lsb wid) s = s.illop (.insr d a lsb wid) := if_pos hexceeds

end

/-- An instruction that refuses itself traps ILLOP with its own word (R65). -/
theorem gives_trapsTo_illop {i : Instr} {s : State} (hexec : exec i s = s.illop i) (ht : TakesTraps s) :
    Gives i s (TrapsTo s · 0x01 (wordOf i) s.seq.pc s.seq.loopst) := by
  rw [Gives, hexec]
  exact s.illop_gives ht i

/-! ### Bit counts -/

section
variable (x : Word)

/-- Leading zeros counted from bit `n - 1` down: they see the low `n` bits alone. -/
theorem clzGo_eq (n : Nat) : clzGo x n = if x.toNat % 2 ^ n = 0 then 64 else 63 - (x.toNat % 2 ^ n).log2 := by
  induction n with
  | zero => simp [clzGo, Nat.mod_one]
  | succ n ih =>
    rw [clzGo, ih, BitVec.getLsbD, Nat.mod_pow_succ, ← Nat.toNat_testBit]
    cases x.toNat.testBit n with
    | false => simp
    | true =>
      have hpos : 0 < 2 ^ n := Nat.two_pow_pos n
      have hlog : (x.toNat % 2 ^ n + 2 ^ n).log2 = n := by
        have hlt : x.toNat % 2 ^ n < 2 ^ n := Nat.mod_lt _ hpos
        rw [Nat.log2_eq_iff (by omega), Nat.pow_succ]
        omega
      simp [hlog]

theorem clzGo_word_eq : clzGo x 64 = if x = 0 then 64 else 63 - x.toNat.log2 := by
  have hzero : x.toNat = 0 ↔ x = 0 := BitVec.toNat_inj (y := 0)
  simp only [clzGo_eq, Nat.mod_eq_of_lt x.isLt, hzero]

/-- Trailing zeros counted from bit `i` up: the bits passed are 0, and the bit found is 1. -/
theorem ctzGo_finds {i n : Nat} (hin : i + n = 64) : ctzGo x i n ≤ 64
    ∧ (∀ k, i ≤ k → k < ctzGo x i n → x.getLsbD k = false) ∧ (ctzGo x i n < 64 → x.getLsbD (ctzGo x i n) = true) := by
  induction n generalizing i with
  | zero =>
    exact ⟨Nat.le_refl _, fun k hik _ => BitVec.getLsbD_of_ge x k (by omega), fun h => absurd h (Nat.lt_irrefl 64)⟩
  | succ n ih =>
    obtain ⟨hle, hzero, hone⟩ := ih (i := i + 1) (by omega)
    rw [ctzGo]
    split
    next hbit => exact ⟨by omega, fun k hik hk => absurd hk (by omega), fun _ => hbit⟩
    next hbit =>
      refine ⟨hle, fun k hik hk => ?_, hone⟩
      obtain rfl | hlt := Nat.eq_or_lt_of_le hik
      · simpa using hbit
      · exact hzero k hlt hk

theorem popGo_eq_countP (n : Nat) : popGo x n = (List.range n).countP fun k => x.getLsbD k := by
  induction n with
  | zero => rfl
  | succ n ih => rw [popGo, ih, List.range_succ, List.countP_append, List.countP_singleton, Nat.add_comm]

end

/-- Settles O10: each clause from the value that its instruction writes; EXTR and INSR by whether the field fits. -/
theorem fieldsAndCounts : Obligations.FieldsAndCounts := by
  intro s d a b imm lsb wid w sh x y l m
  refine ⟨gives_writesReg rfl (immLdi_eq imm), fun hfits => ⟨?extr, ?insr⟩, fun hexceeds ht => ?refused,
    gives_writesReg rfl (add_ixaOperand_shiftLeft_eq ..), gives_writesReg rfl (congrArg (BitVec.ofNat 64) (clzGo_word_eq x)),
    ?ctz, gives_writesReg rfl (congrArg (BitVec.ofNat 64) (popGo_eq_countP x 64)), gives_writesReg rfl rfl,
    gives_writesReg rfl rfl, gives_writesReg rfl rfl⟩
  case extr => exact gives_writesReg (exec_extr_of_fits hfits) (extractField_eq x (by omega))
  case insr =>
    obtain ⟨t, hstep, hwrites⟩ := gives_writesReg (exec_insr_of_fits (s := s) (d := d) (a := a) hfits) rfl
    exact ⟨t, hstep, _, hwrites, fun k hk => getLsbD_insertField _ _ l m hk⟩
  case refused =>
    exact ⟨gives_trapsTo_illop (exec_extr_of_exceeds hexceeds) ht, gives_trapsTo_illop (exec_insr_of_exceeds hexceeds) ht⟩
  case ctz =>
    obtain ⟨hle, hzero, hone⟩ := ctzGo_finds x (i := 0) (n := 64) rfl
    obtain ⟨t, hstep, hwrites⟩ := gives_writesReg (i := .bitcCtz d a) (s := s) rfl rfl
    exact ⟨t, hstep, _, hle, hwrites, fun k hk => hzero k (Nat.zero_le k) hk, hone⟩

end Sys2Proof.Machine
end

section
/-! Atomics on the window 0xFFFF (R153, R171, R172): the little-endian numbers in a byte memory, what a write of the window
changes, and each atomic from its new value. -/

namespace Sys2Proof.Machine

/-! ### Little-endian numbers in a byte memory (R2) -/

@[simp] theorem natLe_length (v n : Nat) : (natLe v n).length = n := by
  induction n generalizing v with
  | zero => rfl
  | succ n ih => rw [natLe, List.length_cons, ih]

theorem natLe_getElem? (v : Nat) {n i : Nat} (hi : i < n) : (natLe v n)[i]? = some (BitVec.ofNat 8 (v / 256 ^ i)) := by
  induction n generalizing v i with
  | zero => exact absurd hi (Nat.not_lt_zero i)
  | succ n ih =>
    cases i with
    | zero => simp [natLe]
    | succ i => rw [natLe, List.getElem?_cons_succ, ih _ (Nat.lt_of_succ_lt_succ hi), Nat.div_div_eq_div_mul, Nat.pow_succ']

theorem memNat_succ (m : Mem) (a n : Nat) : memNat m a (n + 1) = (memRead m a).toNat + 256 * memNat m (a + 1) n := rfl

theorem memNat_lt (m : Mem) (a n : Nat) : memNat m a n < 256 ^ n := by
  induction n generalizing a with
  | zero => exact Nat.one_pos
  | succ n ih =>
    have hbyte : (memRead m a).toNat < 256 := (memRead m a).isLt
    have hrest := ih (a + 1)
    rw [memNat_succ, Nat.pow_succ']
    omega

/-- A byte of the number that stands in memory. -/
theorem ofNat_memNat_div (m : Mem) (a : Nat) {n i : Nat} (hi : i < n) :
    BitVec.ofNat 8 (memNat m a n / 256 ^ i) = memRead m (a + i) := by
  induction n generalizing a i with
  | zero => exact absurd hi (Nat.not_lt_zero i)
  | succ n ih =>
    have hbyte : (memRead m a).toNat < 256 := (memRead m a).isLt
    rw [memNat_succ]
    cases i with
    | zero =>
      have hlow : BitVec.ofNat 8 ((memRead m a).toNat + 256 * memNat m (a + 1) n) = memRead m a :=
        BitVec.eq_of_toNat_eq (by rw [BitVec.toNat_ofNat]; omega)
      rwa [Nat.pow_zero, Nat.div_one]
    | succ i =>
      have hdiv : ((memRead m a).toNat + 256 * memNat m (a + 1) n) / 256 = memNat m (a + 1) n := by omega
      rw [Nat.pow_succ', ← Nat.div_div_eq_div_mul, hdiv, ih _ (Nat.lt_of_succ_lt_succ hi), Nat.add_right_comm, Nat.add_assoc]

/-! ### Writes of the window -/

/-- The focused cell with the low `n` bytes of a number written at `o` of its window. -/
def State.storePriv (s : State) (o n v : Nat) : State :=
  s.modCell s.focus.cell fun x => { x with priv := memStore x.priv o (natLe v n) }

@[simp] theorem State.storePriv_seq (s : State) (o n v : Nat) : (s.storePriv o n v).seq = s.seq := by
  simp [State.storePriv, State.seq, State.seqAt]

theorem writesPriv_storePriv (s : State) (o n v : Nat) : WritesPriv s (s.storePriv o n v) o n v := by
  refine ⟨fun a => ?_, fun c hc => State.cell_modCell_ne s _ (Ne.symm hc), ?_, rfl⟩
  · rw [State.storePriv, State.cell_modCell, memRead_memStore, natLe_length]
    split
    next h => rw [natLe_getElem? v (by omega : a - o < n), Option.getD_some]
    next => rfl
  · simp [State.storePriv, State.seq, State.seqAt]

theorem writesPriv_unchanged (s : State) (o n : Nat) : WritesPriv s s o n (memNat (s.cell s.focus.cell).priv o n) := by
  refine ⟨fun a => ?_, fun c _ => rfl, rfl, rfl⟩
  split
  next h => rw [ofNat_memNat_div _ _ (by omega : a - o < n), Nat.add_sub_cancel' h.1]
  next => rfl

theorem WritesPriv.focus_eq {s t : State} {o n v : Nat} (h : WritesPriv s t o n v) : t.focus = s.focus :=
  have e := congrArg State.focus h.rest
  e

/-- A change of the sequencer alone after a write of the window is no more than that write. -/
theorem WritesPriv.then_onlySeq {s s' t : State} {o n v : Nat} (h : WritesPriv s s' o n v) (honly : OnlySeq s' t) :
    WritesPriv s t o n v := by
  have hcell : t.cell s.focus.cell = { s'.cell s.focus.cell with seq := t.seq } := h.focus_eq ▸ honly.cell
  have hpriv : (t.cell s.focus.cell).priv = (s'.cell s.focus.cell).priv := by rw [hcell]
  refine ⟨fun a => hpriv ▸ h.priv a, fun c hc => ?_, ?_, ?_⟩
  · rw [honly.others c (h.focus_eq.symm ▸ hc), h.others c hc]
  · rw [hpriv, hcell, h.cell]
  · exact (congrArg (fun z : State => { z with cells := s.cells }) honly.rest).trans h.rest

/-- An atomic is a write of the window and then of a register, both from the old bytes. -/
theorem WritesPriv.then_writesReg {s s' t : State} {d : BitVec 5} {o n : Nat} {new : Nat → Option Nat} {ret : Nat → Word}
    (h : WritesPriv s s' o n
      ((new (memNat (s.cell s.focus.cell).priv o n)).getD (memNat (s.cell s.focus.cell).priv o n)))
    (hseq : s'.seq = s.seq) (hreg : WritesReg s' t d (ret (memNat (s.cell s.focus.cell).priv o n))) :
    AtomicPriv s t d o n new ret :=
  ⟨h.then_onlySeq hreg.only, hseq ▸ hreg.reg, by rw [GoesOn, ← hseq]; exact hreg.next, hseq ▸ hreg.seq⟩

/-! ### Where an access of the window lies, and what an atomic does there -/

theorem toNat_eq_vaTensor_vaOff (va : Word) : va.toNat = vaTensor va * 2 ^ 48 + vaOff va := by
  have hlt := va.isLt
  simp only [vaTensor, vaOff, BitVec.extractLsb'_toNat, Nat.shiftRight_eq_div_pow]
  omega

/-- The window begins at a multiple of every access size. -/
theorem vaPlus_mod_eq {base : Word} {off : BitVec 48} {n o : Nat} (hat : PrivAt base off n o) (hsize : n ∣ 2 ^ 48) :
    (vaPlus base off).toNat % n = o % n := by
  obtain ⟨htensor, hoff, -⟩ := hat
  rw [toNat_eq_vaTensor_vaOff, htensor, hoff, Nat.add_mod,
    Nat.mod_eq_zero_of_dvd (Nat.dvd_mul_left_of_dvd hsize 0xFFFF), Nat.zero_add, Nat.mod_mod]

section
variable {s : State} {base : Word} {n o : Nat}

theorem locate_privAt {off : BitVec 48} (hat : PrivAt base off n o) (hlive : s.suppressed (s.seqWho s.focus.cell) = false)
    (need : Need) : s.locate (s.seqWho s.focus.cell) need (vaPlus base off) n = .ok (.priv o, 0) := by
  obtain ⟨htensor, hoff, hin⟩ := hat
  have hseq : (s.seqWho s.focus.cell).cls = .seq := rfl
  simp [State.locate, State.undeclared, State.whereIs, State.window, htensor, hoff, hin, hlive, hseq, Except.map]

/-- The state that an atomic of the window leaves: its bytes are written where there is a new value. -/
def State.atomicPriv (s : State) (o n : Nat) (new : Option Nat) : State := new.elim s (s.storePriv o n)

@[simp] theorem State.atomicPriv_seq (s : State) (o n : Nat) (new : Option Nat) : (s.atomicPriv o n new).seq = s.seq := by
  cases new with
  | none => rfl
  | some v => exact s.storePriv_seq o n v

theorem writesPriv_atomicPriv (s : State) (o n : Nat) (new : Option Nat) :
    WritesPriv s (s.atomicPriv o n new) o n (new.getD (memNat (s.cell s.focus.cell).priv o n)) := by
  cases new with
  | none => exact writesPriv_unchanged s o n
  | some v => exact writesPriv_storePriv s o n v

theorem atomicVa_privAt (hat : PrivAt base 0 n o) (hlive : s.suppressed (s.seqWho s.focus.cell) = false) (need : Need)
    (f : Nat → Option Nat) : s.atomicVa (s.seqWho s.focus.cell) need (vaPlus base 0) n f
      = .ok (memNat (s.cell s.focus.cell).priv o n, s.atomicPriv o n (f (memNat (s.cell s.focus.cell).priv o n))) := by
  have hold : leNat (memBytes (s.cell (s.seqWho s.focus.cell).cell).priv o n) = memNat (s.cell s.focus.cell).priv o n := rfl
  simp only [State.atomicVa, locate_privAt hat hlive, State.partPoison, State.readLoc, hold]
  cases f (memNat (s.cell s.focus.cell).priv o n) <;> rfl

variable {i : Instr} {need : Need} {d a b : BitVec 5}

/-- An atomic on aligned bytes of the window: its new value need agree with the one claimed on numbers of its size alone. -/
theorem gives_atomicPriv {f new : Nat → Option Nat} {ret : Nat → Word} (hexec : exec i s = s.atom i need d a n f ret)
    (hsize : n ∣ 2 ^ 48) (hat : PrivAt (s.seq.getG a) 0 n o) (halign : o % n = 0)
    (hlive : s.suppressed (s.seqWho s.focus.cell) = false) (hnew : ∀ x < 256 ^ n, f x = new x) :
    Gives i s (AtomicPriv s · d o n new ret) := by
  have hold := hnew _ (memNat_lt (s.cell s.focus.cell).priv o n)
  have hmod : ((vaPlus (s.seq.getG a) 0).toNat % n != 0) = false := by
    rw [vaPlus_mod_eq hat hsize, halign]
    rfl
  have hexec' : exec i s = (s.atomicPriv o n (new (memNat (s.cell s.focus.cell).priv o n))).doneG d
      (ret (memNat (s.cell s.focus.cell).priv o n)) := by
    rw [hexec, State.atom, hmod, ← hold]
    simp only [Bool.false_eq_true, if_false, atomicVa_privAt hat hlive]
  obtain ⟨t, hstep, hwrites⟩ := State.doneG_gives _ d _ _ rfl
  exact ⟨t, hexec'.trans hstep, (writesPriv_atomicPriv ..).then_writesReg (s.atomicPriv_seq ..) hwrites⟩

/-- An 8-byte atomic that writes a function of the old value and g[b], and returns the old value. -/
theorem gives_atomicPriv_atomD {f : Word → Word → Word} {new : Nat → Option Nat}
    (hexec : exec i s = s.atomD i need d a b f) (hat : PrivAt (s.seq.getG a) 0 8 o) (halign : o % 8 = 0)
    (hlive : s.suppressed (s.seqWho s.focus.cell) = false)
    (hnew : ∀ x : Word, some (f x (s.seq.getG b)).toNat = new x.toNat) :
    Gives i s (AtomicPriv s · d o 8 new fun x => BitVec.ofNat 64 x) := by
  refine gives_atomicPriv hexec (by decide) hat halign hlive fun x hx => ?_
  have hword : (BitVec.ofNat 64 x).toNat = x := Nat.mod_eq_of_lt hx
  rw [hnew, hword]

end

/-! ### The atomics (R172) -/

section
variable (s : State) (d a b : BitVec 5)

theorem exec_aaddD : exec (.aaddD d a b) s = s.atomD (.aaddD d a b) .add d a b fun x y => x + y := rfl
theorem exec_aminS : exec (.aminS d a b) s
    = s.atomD (.aminS d a b) .rmw d a b fun x y => if y.slt x then y else x := rfl
theorem exec_aminU : exec (.aminU d a b) s
    = s.atomD (.aminU d a b) .rmw d a b fun x y => if y.ult x then y else x := rfl
theorem exec_amaxS : exec (.amaxS d a b) s
    = s.atomD (.amaxS d a b) .rmw d a b fun x y => if x.slt y then y else x := rfl
theorem exec_amaxU : exec (.amaxU d a b) s
    = s.atomD (.amaxU d a b) .rmw d a b fun x y => if x.ult y then y else x := rfl
theorem exec_alogAnd : exec (.alogAnd d a b) s = s.atomD (.alogAnd d a b) .add d a b fun x y => x &&& y := rfl
theorem exec_alogOr : exec (.alogOr d a b) s = s.atomD (.alogOr d a b) .add d a b fun x y => x ||| y := rfl
theorem exec_alogXor : exec (.alogXor d a b) s = s.atomD (.alogXor d a b) .add d a b fun x y => x ^^^ y := rfl
theorem exec_axch : exec (.axch d a b) s = s.atomD (.axch d a b) .rmw d a b fun _ y => y := rfl
theorem exec_acas : exec (.acas d a b) s = s.atom (.acas d a b) .rmw d a 8
    (fun x => if BitVec.ofNat 64 x == s.seq.getG d then some (s.seq.getG b).toNat else none) (BitVec.ofNat 64) := rfl
theorem exec_aaddW : exec (.aaddW d a b) s = s.atom (.aaddW d a b) .add d a 4
    (fun x => some ((x + (s.seq.getG b).toNat) % 2 ^ 32)) sext32 := rfl
theorem exec_afaddF32 : exec (.afaddF32 d a b) s = s.atom (.afaddF32 d a b) .add d a 4
    (fun x => some (f32add (BitVec.ofNat 32 x) ((s.seq.getG b).setWidth 32)).toNat) (BitVec.ofNat 64) := rfl
theorem exec_afaddBf16x2 : exec (.afaddBf16x2 d a b) s = s.atom (.afaddBf16x2 d a b) .add d a 4
    (fun x => some ((bf16add (BitVec.ofNat 16 (x / 65536)) ((s.seq.getG b).extractLsb' 16 16)).toNat * 65536
      + (bf16add (BitVec.ofNat 16 x) ((s.seq.getG b).extractLsb' 0 16)).toNat)) (BitVec.ofNat 64) := rfl

end

/-- ACAS's comparison of the old bytes with a register, as words and as numbers. -/
theorem ofNat_beq_iff {x : Nat} (hx : x < 2 ^ 64) (y : Word) : (BitVec.ofNat 64 x == y) = true ↔ x = y.toNat := by
  rw [beq_iff_eq, ← BitVec.toNat_inj, BitVec.toNat_ofNat, Nat.mod_eq_of_lt hx]

/-- Settles O16: an atomic of the window from its new value (`gives_atomicPriv`), then for each form the equation of that
value. -/
theorem privateAtomics : Obligations.PrivateAtomics := by
  refine ⟨fun s d a b o => ?eightBytes, fun s d a b o => ?fourBytes⟩
  case eightBytes =>
    intro y w hat halign hlive
    have hw : ∀ x : Word, w x.toNat = x := fun x => BitVec.eq_of_toNat_eq (Nat.mod_eq_of_lt x.isLt)
    have atomD : ∀ {i need f new}, exec i s = s.atomD i need d a b f → (∀ x : Word, some (f x y).toNat = new x.toNat) →
        Gives i s (AtomicPriv s · d o 8 new w) := fun hexec hnew => gives_atomicPriv_atomD hexec hat halign hlive hnew
    exact ⟨
      atomD (exec_aaddD ..) fun x => by rw [BitVec.toNat_add],
      atomD (exec_aminS ..) fun x => by rw [minS_eq, apply_ite BitVec.toNat, hw],
      atomD (exec_aminU ..) fun x => by rw [minU_eq, apply_ite BitVec.toNat],
      atomD (exec_amaxS ..) fun x => by rw [maxS_eq, apply_ite BitVec.toNat, hw],
      atomD (exec_amaxU ..) fun x => by rw [maxU_eq, apply_ite BitVec.toNat],
      atomD (exec_alogAnd ..) fun x => by rw [BitVec.toNat_and],
      atomD (exec_alogOr ..) fun x => by rw [BitVec.toNat_or],
      atomD (exec_alogXor ..) fun x => by rw [BitVec.toNat_xor],
      atomD (exec_axch ..) fun x => rfl,
      gives_atomicPriv (exec_acas ..) (by decide) hat halign hlive
        fun x hx => by simp only [ofNat_beq_iff hx, y]⟩
  case fourBytes =>
    intro y hat halign hlive
    have atom4 : ∀ {i need f new ret}, exec i s = s.atom i need d a 4 f ret → (∀ x, f x = new x) →
        Gives i s (AtomicPriv s · d o 4 new ret) := fun hexec hnew =>
      gives_atomicPriv hexec (by decide) hat halign hlive fun x _ => hnew x
    have hlow : y.extractLsb' 0 16 = y.setWidth 16 := by ext; simp
    have hhigh : y.extractLsb' 16 16 = (y >>> 16).setWidth 16 := by ext; simp
    exact ⟨
      atom4 (exec_aaddW ..) fun _ => rfl,
      atom4 (exec_afaddF32 ..) fun _ => rfl,
      atom4 (exec_afaddBf16x2 ..) fun x => by rw [hlow, hhigh, Nat.mul_comm, Nat.add_comm]⟩

end Sys2Proof.Machine
end

section
/-! The clause of LOOP (R104, R105): the fields of LOOPST as the header sets them and as the end of the body leaves them, what
the header does with its count, and where an instruction that transfers no control leaves PC and LOOPST. -/

namespace Sys2Proof.Machine

/-- A change of the focused sequencer alone, from the state that the instruction answers. -/
theorem gives_setSeq {i : Instr} {s : State} {q : Seq} (hexec : exec i s = .next (s.setSeq q)) :
    Gives i s fun t => t.seq = q ∧ OnlySeq s t :=
  ⟨_, hexec, s.seq_setSeq q, OnlySeq.of_setSeq s q⟩

/-! ### The fields of LOOPST as numbers (R89) -/

section
variable (ls : Word)

theorem toNat_lsRemain : (lsRemain ls).toNat = ls.toNat % 2 ^ 32 := by
  rw [lsRemain, BitVec.extractLsb'_toNat, Nat.shiftRight_zero]

theorem lsStart_eq : lsStart ls = ls.toNat / 2 ^ 32 % 2 ^ 12 := by
  rw [lsStart, BitVec.extractLsb'_toNat, Nat.shiftRight_eq_div_pow]

theorem lsLen_eq : lsLen ls = ls.toNat / 2 ^ 44 % 2 ^ 6 := by
  rw [lsLen, BitVec.extractLsb'_toNat, Nat.shiftRight_eq_div_pow]

theorem lsActive_iff : lsActive ls = true ↔ 2 ^ 63 ≤ ls.toNat := by
  have hmsb : lsActive ls = ls.msb := (BitVec.msb_eq_getLsbD_last ls).symm
  rw [hmsb, BitVec.msb_eq_decide, decide_eq_true_iff]

theorem toNat_lsMake (n : BitVec 32) (start : BitVec 12) (len : BitVec 6) :
    (lsMake n start len).toNat = 2 ^ 63 + len.toNat * 2 ^ 44 + start.toNat * 2 ^ 32 + n.toNat := by
  have happend : (lsMake n start len).toNat = ((2 ^ 13 <<< 6 ||| len.toNat) <<< 12 ||| start.toNat) <<< 32 ||| n.toNat := by
    simp only [lsMake, BitVec.toNat_append]
    rfl
  rw [happend, ← Nat.shiftLeft_add_eq_or_of_lt n.isLt, ← Nat.shiftLeft_add_eq_or_of_lt start.isLt,
    ← Nat.shiftLeft_add_eq_or_of_lt len.isLt]
  simp only [Nat.shiftLeft_eq]
  omega

/-- LOOPST after an iteration that is not the last: one fewer is left (R105). -/
def lsIterated (ls : Word) : Word := (ls &&& 0xFFFFFFFF00000000#64) ||| (lsRemain ls - 1).zeroExtend 64

theorem lsIterated_eq_append : lsIterated ls = ls.extractLsb' 32 32 ++ (lsRemain ls - 1) := by
  have hmask : 0xFFFFFFFF00000000#64 = BitVec.allOnes 32 ++ 0#32 := by decide
  apply BitVec.eq_of_getLsbD_eq
  intro k hk
  rw [lsIterated, hmask, BitVec.getLsbD_or, BitVec.getLsbD_and, BitVec.getLsbD_append, BitVec.getLsbD_append,
    BitVec.getLsbD_setWidth]
  by_cases hlow : k < 32
  · simp [hlow, hk]
  · have hhigh : k - 32 < 32 := by omega
    have hle := Nat.not_lt.mp hlow
    rw [if_neg hlow, if_neg hlow, BitVec.getLsbD_allOnes, BitVec.getLsbD_extractLsb', BitVec.getLsbD_of_ge _ _ hle]
    simp [hhigh, Nat.add_sub_cancel' hle]

theorem toNat_lsIterated : (lsIterated ls).toNat = ls.toNat / 2 ^ 32 * 2 ^ 32 + (lsRemain ls - 1).toNat := by
  have hlt := ls.isLt
  rw [lsIterated_eq_append, BitVec.toNat_append, ← Nat.shiftLeft_add_eq_or_of_lt (BitVec.isLt _), BitVec.extractLsb'_toNat,
    Nat.shiftLeft_eq, Nat.shiftRight_eq_div_pow]
  omega

@[simp] theorem lsActive_lsIterated : lsActive (lsIterated ls) = lsActive ls := by
  rw [Bool.eq_iff_iff, lsActive_iff, lsActive_iff, toNat_lsIterated]
  omega

@[simp] theorem lsStart_lsIterated : lsStart (lsIterated ls) = lsStart ls := by
  rw [lsStart_eq, lsStart_eq, toNat_lsIterated]
  omega

@[simp] theorem lsLen_lsIterated : lsLen (lsIterated ls) = lsLen ls := by
  rw [lsLen_eq, lsLen_eq, toNat_lsIterated]
  omega

@[simp] theorem lsRemain_lsIterated : lsRemain (lsIterated ls) = lsRemain ls - 1 := by
  apply BitVec.eq_of_toNat_eq
  rw [toNat_lsRemain, toNat_lsIterated]
  omega

end

/-! ### The end of an instruction that transfers no control (R105) -/

/-- The word address is that of the last word of the active body. -/
def AtBodyEnd (pc : BitVec 12) (ls : Word) : Prop := lsActive ls = true ∧ pc.toNat + 1 = lsStart ls + lsLen ls

section
variable {pc : BitVec 12} {ls : Word}

theorem nextPc_of_iterations_left (h : AtBodyEnd pc ls) (hleft : 1 < (lsRemain ls).toNat) :
    nextPc pc ls = (BitVec.ofNat 12 (lsStart ls), lsIterated ls) := by
  obtain ⟨hact, hend⟩ := h
  simp [nextPc, lsIterated, hact, hend, hleft]

theorem nextPc_of_last_iteration (h : AtBodyEnd pc ls) (hlast : (lsRemain ls).toNat = 1) : nextPc pc ls = (pc + 1, 0) := by
  obtain ⟨hact, hend⟩ := h
  simp [nextPc, hact, hend, hlast]

theorem nextPc_of_not_body_end (h : ¬ AtBodyEnd pc ls) : nextPc pc ls = (pc + 1, ls) := by
  simpa [nextPc, AtBodyEnd] using fun hact hend => absurd ⟨hact, hend⟩ h

end

theorem Gives.imp {i : Instr} {s : State} {P Q : State → Prop} (h : Gives i s P) (hPQ : ∀ t, P t → Q t) : Gives i s Q :=
  let ⟨t, hstep, hP⟩ := h
  ⟨t, hstep, hPQ t hP⟩

/-- NOP only goes on (R95, R105). -/
theorem nop_goesOn {s : State} {pc : BitVec 12} {ls : Word} (h : nextPc s.seq.pc s.seq.loopst = (pc, ls)) :
    Gives .nop s fun t => t.seq.pc = pc ∧ t.seq.loopst = ls :=
  Gives.imp s.done_gives fun _ hnop => Prod.mk.inj (hnop.next.trans h)

/-! ### The header (R104) -/

/-- The sequencer past a body that is skipped (log 38: PC wraps). -/
def Seq.skipBody (q : Seq) (len : BitVec 6) : Seq :=
  { q with pc := BitVec.ofNat 12 (q.pc.toNat + len.toNat + 1), wait := {} }

/-- The sequencer at the first word of a body that the header activates. -/
def Seq.enterBody (q : Seq) (count : Word) (len : BitVec 6) : Seq :=
  { q with
    loopst := lsMake (count.setWidth 32) (BitVec.ofNat 12 (q.pc.toNat + 1)) len
    pc := BitVec.ofNat 12 (q.pc.toNat + 1)
    wait := {} }

/-- LOOP, with its checks in the order of R104. -/
theorem exec_loopH (a : BitVec 5) (len : BitVec 6) (s : State) : exec (.loopH a len) s =
    if len = 0 ∨ lsActive s.seq.loopst = true then s.illop (.loopH a len)
    else if 2 ^ 32 ≤ (s.seq.getG a).toNat then s.trapSelf 0x01 (s.seq.getG a) (wordOf (.loopH a len))
    else if 4095 < s.seq.pc.toNat + len.toNat then s.illop (.loopH a len)
    else if s.seq.getG a = 0 then .next (s.setSeq (s.seq.skipBody len))
    else .next (s.setSeq (s.seq.enterBody (s.seq.getG a) len)) := by
  have hwide : (s.seq.getG a).extractLsb' 32 32 ≠ 0 ↔ 2 ^ 32 ≤ (s.seq.getG a).toNat := by
    have hlt := (s.seq.getG a).isLt
    rw [ne_eq, ← BitVec.toNat_inj, BitVec.extractLsb'_toNat, Nat.shiftRight_eq_div_pow]
    change ¬ _ = 0 ↔ _
    omega
  have hnext : s.seq.pc + 1 = BitVec.ofNat 12 (s.seq.pc.toNat + 1) := by
    rw [BitVec.ofNat_add, BitVec.ofNat_toNat, BitVec.setWidth_eq]
    rfl
  have hskip : s.seq.pc + len.zeroExtend 12 + 1 = BitVec.ofNat 12 (s.seq.pc.toNat + len.toNat + 1) := by
    rw [BitVec.ofNat_add, BitVec.ofNat_add, BitVec.ofNat_toNat, BitVec.ofNat_toNat, BitVec.setWidth_eq]
    rfl
  have hlow : (s.seq.getG a).extractLsb' 0 32 = (s.seq.getG a).setWidth 32 := by
    ext; simp
  change execLoopH a len s = _
  simp only [execLoopH, hskip, hnext, hlow, Bool.or_eq_true, beq_iff_eq, bne_iff_ne, hwide]
  rfl

section
variable {s : State} {a : BitVec 5} {len : BitVec 6}

/-- The count of iterations fits REMAIN, and the body the code store (R104). -/
structure LoopFits (s : State) (a : BitVec 5) (len : BitVec 6) : Prop where
  words : len ≠ 0
  idle  : lsActive s.seq.loopst = false
  count : (s.seq.getG a).toNat < 2 ^ 32
  body  : s.seq.pc.toNat + len.toNat ≤ 4095

theorem LoopFits.exec_eq (h : LoopFits s a len) : exec (.loopH a len) s =
    if s.seq.getG a = 0 then .next (s.setSeq (s.seq.skipBody len))
    else .next (s.setSeq (s.seq.enterBody (s.seq.getG a) len)) := by
  rw [exec_loopH, if_neg (not_or.mpr ⟨h.words, by simp [h.idle]⟩), if_neg (Nat.not_le.mpr h.count),
    if_neg (Nat.not_lt.mpr h.body)]

/-- A body of no more words than follow the header begins inside the code store. -/
theorem LoopFits.start_lt (h : LoopFits s a len) : s.seq.pc.toNat + 1 < 2 ^ 12 := by
  have hlen : len.toNat ≠ 0 := fun h0 => h.words (BitVec.eq_of_toNat_eq h0)
  have hbody := h.body
  omega

/-- A count of zero skips the body. -/
theorem loopH_skips (h : LoopFits s a len) (hzero : s.seq.getG a = 0) : Gives (.loopH a len) s fun t =>
    t.seq = { s.seq with pc := BitVec.ofNat 12 (s.seq.pc.toNat + len.toNat + 1), wait := {} } ∧ OnlySeq s t :=
  gives_setSeq (h.exec_eq.trans (if_pos hzero))

theorem loopH_activates (h : LoopFits s a len) (hcount : s.seq.getG a ≠ 0) : Gives (.loopH a len) s fun t =>
    t.seq = { s.seq with pc := BitVec.ofNat 12 (s.seq.pc.toNat + 1), loopst := t.seq.loopst, wait := {} } ∧ OnlySeq s t
    ∧ lsActive t.seq.loopst = true ∧ lsLen t.seq.loopst = len.toNat ∧ lsStart t.seq.loopst = s.seq.pc.toNat + 1
    ∧ (lsRemain t.seq.loopst).toNat = (s.seq.getG a).toNat := by
  refine (gives_setSeq (h.exec_eq.trans (if_neg hcount))).imp fun t ⟨hseq, honly⟩ => ?_
  have hls := toNat_lsMake ((s.seq.getG a).setWidth 32) (BitVec.ofNat 12 (s.seq.pc.toNat + 1)) len
  rw [BitVec.toNat_setWidth, BitVec.toNat_ofNat, Nat.mod_eq_of_lt h.count, Nat.mod_eq_of_lt h.start_lt] at hls
  have hcount := h.count
  have hstart := h.start_lt
  have hlen := len.isLt
  refine ⟨by rw [hseq]; rfl, honly, ?_⟩
  rw [hseq, Seq.enterBody, lsActive_iff, lsLen_eq, lsStart_eq, toNat_lsRemain, hls]
  omega

theorem loopH_traps_count (ht : TakesTraps s) (hlen : len ≠ 0) (hidle : lsActive s.seq.loopst = false)
    (hwide : 2 ^ 32 ≤ (s.seq.getG a).toNat) :
    Gives (.loopH a len) s (TrapsTo s · 0x01 (s.seq.getG a) s.seq.pc s.seq.loopst) := by
  rw [Gives, exec_loopH, if_neg (not_or.mpr ⟨hlen, by simp [hidle]⟩), if_pos hwide]
  exact s.trapSelf_gives ht ..

theorem exec_loopH_illop (h : len = 0 ∨ lsActive s.seq.loopst = true ∨
    ((s.seq.getG a).toNat < 2 ^ 32 ∧ 4095 < s.seq.pc.toNat + len.toNat)) :
    exec (.loopH a len) s = s.illop (.loopH a len) := by
  rw [exec_loopH]
  split
  next => rfl
  next hpass =>
    obtain ⟨hcount, hbody⟩ := (or_assoc.mpr h).resolve_left hpass
    rw [if_neg (Nat.not_le.mpr hcount), if_pos hbody]

end

/-- Settles O12: the header from its checks (`exec_loopH`), the end of an instruction from the three cases of `nextPc`, and the
fields of LOOPST as numbers. -/
theorem clauses : Obligations.Clauses := by
  constructor
  case left =>
    intro s a len v h i legal
    have fits : legal → v.toNat < 2 ^ 32 → LoopFits s a len := fun ⟨hlen, hidle, hbody⟩ hcount => ⟨hlen, hidle, hcount, hbody⟩
    exact ⟨fun hlegal hzero => loopH_skips (fits hlegal (by rw [hzero]; decide)) hzero,
      fun hlegal hcount hlt => loopH_activates (fits hlegal hlt) hcount,
      loopH_traps_count, fun ht hbad => gives_trapsTo_illop (exec_loopH_illop hbad) ht⟩
  case right =>
    intro s ls h last
    refine ⟨fun hlast hleft => ?loops, fun hlast hone => nop_goesOn (nextPc_of_last_iteration hlast hone),
      fun hnot => nop_goesOn (nextPc_of_not_body_end hnot)⟩
    refine (nop_goesOn (nextPc_of_iterations_left hlast hleft)).imp fun t ⟨hpc, hls⟩ => ?_
    obtain ⟨hact, -⟩ := hlast
    have hstart : (BitVec.ofNat 12 (lsStart ls)).toNat = lsStart ls := Nat.mod_eq_of_lt (BitVec.isLt _)
    have hone : (lsRemain ls - 1).toNat = (lsRemain ls).toNat - 1 := BitVec.toNat_sub_of_le (Nat.le_of_lt hleft)
    rw [hpc, hls, lsRemain_lsIterated, lsActive_lsIterated, lsStart_lsIterated, lsLen_lsIterated]
    exact ⟨hstart, hone, hact, rfl, rfl⟩

end Sys2Proof.Machine
end

section
/-! Comparisons and predicates (R97, R98): the words of CMP, SEL and PLOG, and what they write. -/

namespace Sys2Proof.Machine

/-- An instruction that completes with one predicate written does only that, whatever term stands for the value (R94). -/
theorem gives_writesPred {i : Instr} {s : State} {d : BitVec 3} {v w : Bool}
    (hexec : exec i s = s.done (s.seq.setP d w)) (hval : w = v) : Gives i s (WritesPred s · d v) := by
  rw [Gives, hexec]
  exact s.doneP_gives d v w hval

/-! ### Values -/

theorem predTrue_iff (p : Bool) (n : BitVec 1) : predTrue p n = true ↔ p = (n == 0) := by
  revert p n
  decide

/-! ### Words (R65, R97, R98) -/

/-- A predicate's number in a field of five bits: the high two are zero. -/
theorem extractLsb'_five_eq {w : BitVec 32} {i : Nat} {x : BitVec 3} (h : w.extractLsb' i 5 = x.setWidth 5) :
    w.extractLsb' (i + 3) 2 = 0 ∧ w.extractLsb' i 3 = x := by
  have hnum := congrArg BitVec.toNat h
  have hx := x.isLt
  simp only [BitVec.extractLsb'_toNat, BitVec.toNat_setWidth, Nat.shiftRight_eq_div_pow] at hnum
  constructor
  · apply BitVec.eq_of_toNat_eq
    rw [BitVec.extractLsb'_toNat, Nat.shiftRight_eq_div_pow, Nat.pow_add, ← Nat.div_div_eq_div_mul]
    change _ = 0
    omega
  · apply BitVec.eq_of_toNat_eq
    rw [BitVec.extractLsb'_toNat, Nat.shiftRight_eq_div_pow]
    omega

/-- The forms of CMP by FN (R97). -/
def cmpForm (fn : BitVec 10) (p : BitVec 3) (a b : BitVec 5) : Option Instr :=
  if fn = 0 then some (.cmpEq p a b)
  else if fn = 1 then some (.cmpNe p a b)
  else if fn = 2 then some (.cmpLt p a b)
  else if fn = 3 then some (.cmpLe p a b)
  else if fn = 4 then some (.cmpLtu p a b)
  else if fn = 5 then some (.cmpLeu p a b)
  else none

/-- The forms of PLOG by FN (R98). -/
def plogForm (fn : BitVec 10) (p x y : BitVec 3) : Option Instr :=
  if fn = 0 then some (.plogAnd p x y)
  else if fn = 1 then some (.plogOr p x y)
  else if fn = 2 then some (.plogXor p x y)
  else if fn = 3 then some (.plogAndn p x y)
  else none

section
variable {w : BitVec 32}

theorem decodeControl_cmp (hop : w.extractLsb' 25 7 = 0x12) : decodeControl w = if w.extractLsb' 23 2 = 0 then
    cmpForm (w.extractLsb' 0 10) (w.extractLsb' 20 3) (w.extractLsb' 15 5) (w.extractLsb' 10 5) else none := by
  simp only [decodeControl, rawControl, hop, ← beq_iff_eq (b := (0 : BitVec 2))]
  cases w.extractLsb' 23 2 == 0 <;> simp [cmpForm]

theorem decodeControl_sel (hop : w.extractLsb' 25 7 = 0x14) :
    decodeControl w = if w.extractLsb' 8 2 = 0 ∧ w.extractLsb' 0 4 = 0 then
      some (.sel (w.extractLsb' 20 5) (w.extractLsb' 15 5) (w.extractLsb' 10 5) (w.extractLsb' 7 1) (w.extractLsb' 4 3))
    else none := by
  simp [decodeControl, rawControl, hop]

theorem decodeControl_plog (hop : w.extractLsb' 25 7 = 0x1A) : decodeControl w =
    if w.extractLsb' 23 2 = 0 ∧ w.extractLsb' 18 2 = 0 ∧ w.extractLsb' 13 2 = 0 then
      plogForm (w.extractLsb' 0 10) (w.extractLsb' 20 3) (w.extractLsb' 15 3) (w.extractLsb' 10 3) else none := by
  simp only [decodeControl, rawControl, hop, ← beq_iff_eq (b := (0 : BitVec 2)), ← Bool.and_eq_true, ← Bool.and_assoc]
  cases w.extractLsb' 23 2 == 0 && w.extractLsb' 18 2 == 0 && w.extractLsb' 13 2 == 0 <;> simp [plogForm]

end

/-- Settles O9: each form from the predicate or register that it writes, and each word from the table of its opcode. -/
theorem comparisonsAndPredicates : Obligations.ComparisonsAndPredicates := by
  constructor
  case left =>
    intro s p a b w is x y
    have form : ∀ {fn i}, cmpForm fn p a b = some i → is fn i := fun hform ⟨hop, hd, hp, ha, hb, hfn⟩ => by
      rw [decodeControl_cmp hop, if_pos hd, hp, ha, hb, hfn, hform]
    have hne : (x != y) = decide (x ≠ y) := (decide_not ..).symm
    exact ⟨gives_writesPred rfl rfl, gives_writesPred rfl hne, gives_writesPred rfl rfl, gives_writesPred rfl rfl,
      gives_writesPred rfl rfl, gives_writesPred rfl rfl, form rfl, form rfl, form rfl, form rfl, form rfl, form rfl,
      fun hop hd ht => trapsIllop_of_decodeControl_eq_none ((decodeControl_cmp hop).trans (if_neg hd)) ht⟩
  case right =>
    intro s d a b n p x y w plog wide
    have form : ∀ {fn i}, plogForm fn p x y = some i → plog fn i := fun hform ⟨hop, hp, hx, hy, hfn⟩ => by
      obtain ⟨hd, hp⟩ := extractLsb'_five_eq hp
      obtain ⟨ha, hx⟩ := extractLsb'_five_eq hx
      obtain ⟨hb, hy⟩ := extractLsb'_five_eq hy
      rw [decodeControl_plog hop, if_pos ⟨hd, ha, hb⟩, hp, hx, hy, hfn, hform]
    have hsel : (if predTrue (s.seq.getP p) n = true then s.seq.getG a else s.seq.getG b)
        = if s.seq.getP p = (n == 0) then s.seq.getG a else s.seq.getG b := by simp only [predTrue_iff]
    refine ⟨gives_writesReg rfl hsel, gives_writesPred rfl rfl, gives_writesPred rfl rfl, gives_writesPred rfl rfl,
      gives_writesPred rfl rfl, gives_writesPred rfl (Bool.bne_true _), gives_writesPred rfl rfl,
      fun hop hd ha hb hp hn hhigh hlow => ?selWord, fun hop hhigh ht => ?selRefused, form rfl, form rfl, form rfl, form rfl,
      fun hop hwide ht => ?plogRefused⟩
    case selWord => rw [decodeControl_sel hop, if_pos ⟨hhigh, hlow⟩, hd, ha, hb, hp, hn]
    case selRefused =>
      have hnone := (decodeControl_sel hop).trans (if_neg fun ⟨h, _⟩ => hhigh h)
      exact trapsIllop_of_decodeControl_eq_none hnone ht
    case plogRefused =>
      have hnot : ¬ (w.extractLsb' 23 2 = 0 ∧ w.extractLsb' 18 2 = 0 ∧ w.extractLsb' 13 2 = 0) :=
        fun ⟨hd, ha, hb⟩ => hwide.elim (· hd) fun h => h.elim (· ha) (· hb)
      exact trapsIllop_of_decodeControl_eq_none ((decodeControl_plog hop).trans (if_neg hnot)) ht

end Sys2Proof.Machine
end

section
/-! Traps as instructions and the return from them (R65, R107-R111): ILL, TRAP, BRK and TRET, and a trap that nothing handles
(R109, R337). -/

namespace Sys2Proof.Machine

/-! ### Words -/

section
variable {w : BitVec 32}

theorem decodeControl_trapI (hop : w.extractLsb' 25 7 = 0x52) :
    decodeControl w = if w.extractLsb' 20 5 = 0 then some (.trapI (w.extractLsb' 0 20)) else none := by
  simp [decodeControl, rawControl, hop]

theorem decodeControl_brk (hop : w.extractLsb' 25 7 = 0x54) :
    decodeControl w = if w.extractLsb' 20 5 = 0 then some (.brk (w.extractLsb' 0 20)) else none := by
  simp [decodeControl, rawControl, hop]

theorem decodeControl_tret (hop : w.extractLsb' 25 7 = 0x53) :
    decodeControl w = if w.extractLsb' 0 25 = 0 then some .tret else none := by
  simp [decodeControl, rawControl, hop]

/-- The word of ILL is the number of its unused bits, its OP being 0 (R65). -/
theorem wordOf_ill (r : BitVec 25) : wordOf (.ill r) = BitVec.ofNat 64 r.toNat := by
  have hword : encode (.ill r) = (0#7 ++ r).toNat := rfl
  rw [wordOf, hword, BitVec.toNat_append, BitVec.toNat_ofNat]
  simp

end

/-! ### Freezes (R337) -/

/-- A change that keeps the test is a change of the element that the test finds. -/
theorem find?_modFirst {α : Type} (p : α → Bool) (f : α → α) (hf : ∀ x, p x = true → p (f x) = true) (l : List α) :
    (modFirst p f l).find? p = (l.find? p).map f := by
  induction l with
  | nil => rfl
  | cons x l ih =>
    rw [modFirst]
    cases hx : p x with
    | true => simp [hx, hf x hx]
    | false => simp [hx, ih]

/-- The graph of a launch after a change of it that keeps its number. -/
theorem graph_modGraph (s : State) (p lid : Nat) {f : Graph → Graph} (hf : ∀ g, (f g).lid = g.lid) :
    (s.modGraph p lid f).graph p lid = (s.graph p lid).map f := by
  simp only [State.graph, State.modGraph, State.part_modPart]
  exact find?_modFirst _ _ (fun g hg => by rwa [hf]) _

/-- A graph with a freeze raised: the first record raised stands. -/
def Graph.raised (g : Graph) (r : FaultRec) : Graph := if g.freeze.isNone then { g with freeze := some r } else g

@[simp] theorem Graph.raised_lid (g : Graph) (r : FaultRec) : (g.raised r).lid = g.lid := by
  unfold Graph.raised; split <;> rfl

theorem Graph.raised_freeze_ne_none (g : Graph) (r : FaultRec) : (g.raised r).freeze ≠ none := by
  cases h : g.freeze <;> simp [Graph.raised, h]

theorem graph_freezeGraph {s : State} {p lid : Nat} {g : Graph} (hg : s.graph p lid = some g) (r : FaultRec) :
    (s.freezeGraph p lid r).graph p lid = some (g.raised r) := by
  change (s.modGraph p lid fun g => g.raised r).graph p lid = _
  rw [graph_modGraph s p lid fun g => g.raised_lid r, hg, Option.map_some]

/-- The placed graph over a cell is one of its partition's graphs, so its launch names a graph there. -/
theorem exists_graph_of_graphAt {s : State} {c p : Nat} {g : Graph} (h : s.graphAt c = some (p, g)) :
    ∃ g', s.graph p g.lid = some g' := by
  unfold State.graphAt at h
  split at h
  next => cases h
  next q _ =>
    obtain ⟨g', hfind, hpair⟩ := Option.map_eq_some_iff.mp h
    obtain ⟨rfl, rfl⟩ := Prod.mk.inj hpair
    exact Option.isSome_iff_exists.mp (List.find?_isSome.mpr ⟨g', List.mem_of_find?_eq_some hfind, by simp⟩)

theorem unitFault_eq_freezeGraph {s : State} {c p : Nat} {g : Graph} (hg : s.graphAt c = some (p, g)) (type cause : Nat)
    (sp : Option Word) (value pc port : Nat) (d0 d1 : Word) :
    ∃ r, s.unitFault c type cause sp value pc port d0 d1 = s.freezeGraph p g.lid r := by
  simp only [State.unitFault, hg]
  exact ⟨_, rfl⟩

/-! ### Trap entry (R109) -/

/-- A sequencer that a trap has stopped, nothing handling it (R109). -/
def Seq.stopped (q : Seq) : Seq := { q with stuck := true, wait := {} }

/-- A trap that nothing handles stops the sequencer and raises a freeze in the cell's placed graph (R109, R337). -/
theorem trapOn_unhandled {s : State} {p : Nat} {g : Graph} (h : s.seq.tr.tm = true ∨ s.seq.tr.vec.getLsbD 0 = false)
    (hg : s.graphAt s.focus.cell = some (p, g)) (cause : BitVec 8) (v : Word) (r : BitVec 12) (ls w : Word) :
    ∃ f, s.trapOn s.focus.cell cause v r ls w = (s.setSeq s.seq.stopped).freezeGraph p g.lid f := by
  have hno : (s.seq.tr.tm || !s.seq.tr.vec.getLsbD 0) = true := by simpa using h
  have hplaced : (s.setSeq s.seq.stopped).graphAt s.focus.cell = some (p, g) := hg
  obtain ⟨f, hf⟩ := unitFault_eq_freezeGraph hplaced 1 cause.toNat _ _ _ _ w 0
  exact ⟨f, (if_pos hno).trans hf⟩

section
variable {s : State}

theorem exec_trapI (s : State) (imm : BitVec 20) : exec (.trapI imm) s = .next (s.trapOn s.focus.cell 0x09 (imm.zeroExtend 64)
    (nextPc s.seq.pc s.seq.loopst).1 (nextPc s.seq.pc s.seq.loopst).2 (wordOf (.trapI imm))) := rfl

theorem ill_traps (ht : TakesTraps s) (r : BitVec 25) :
    Gives (.ill r) s (TrapsTo s · 0x01 (BitVec.ofNat 64 r.toNat) s.seq.pc s.seq.loopst) :=
  wordOf_ill r ▸ gives_trapsTo_illop rfl ht

/-- TRAP resumes after itself, with its step of the clause counted (R108). -/
theorem trapI_traps (ht : TakesTraps s) (imm : BitVec 20) : Gives (.trapI imm) s (TrapsTo s · 0x09 (BitVec.ofNat 64 imm.toNat)
    (nextPc s.seq.pc s.seq.loopst).1 (nextPc s.seq.pc s.seq.loopst).2) :=
  ⟨_, exec_trapI s imm, BitVec.ofNat_toNat 64 imm ▸ s.trapOn_takes ht ..⟩

theorem trapI_unhandled {p : Nat} {g : Graph} (h : s.seq.tr.tm = true ∨ s.seq.tr.vec.getLsbD 0 = false)
    (hg : s.graphAt s.focus.cell = some (p, g)) (imm : BitVec 20) : Gives (.trapI imm) s fun t =>
      t.seq = s.seq.stopped ∧ t.mem = s.mem ∧ ∃ g', t.graph p g.lid = some g' ∧ g'.freeze ≠ none := by
  obtain ⟨f, hf⟩ := trapOn_unhandled h hg 0x09 (imm.zeroExtend 64) (nextPc s.seq.pc s.seq.loopst).1
    (nextPc s.seq.pc s.seq.loopst).2 (wordOf (.trapI imm))
  obtain ⟨g', hg'⟩ := exists_graph_of_graphAt hg
  have hplaced : (s.setSeq s.seq.stopped).graph p g.lid = some g' := hg'
  exact ⟨_, (exec_trapI s imm).trans (congrArg _ hf), s.seq_setSeq _, rfl, g'.raised f, graph_freezeGraph hplaced f,
    g'.raised_freeze_ne_none f⟩

theorem brk_traps (ht : TakesTraps s) (hbe : s.seq.tr.be = true) (imm : BitVec 20) :
    Gives (.brk imm) s (TrapsTo s · 0x0A (BitVec.ofNat 64 imm.toNat) s.seq.pc s.seq.loopst) := by
  have hexec : exec (.brk imm) s = s.trapSelf 0x0A (imm.zeroExtend 64) (wordOf (.brk imm)) := if_pos hbe
  rw [Gives, hexec, BitVec.ofNat_toNat]
  exact s.trapSelf_gives ht ..

theorem brk_nop (hbe : s.seq.tr.be = false) (imm : BitVec 20) : Gives (.brk imm) s (WritesReg s · 0 0) := by
  have hexec : exec (.brk imm) s = s.done s.seq := if_neg (by simp [hbe])
  rw [Gives, hexec]
  exact s.done_gives

end

/-- Settles O13: the causes and values from what each instruction does, the words from the tables of their opcodes. -/
theorem trapsTaken : Obligations.TrapsTaken := by
  constructor
  case left =>
    intro s r imm w n
    refine ⟨fun ht => ⟨ill_traps ht r, trapI_traps ht imm, fun hbe => brk_traps ht hbe imm⟩, fun hbe => brk_nop hbe imm,
      fun hd himm => ⟨fun hop => ?_, fun hop => ?_⟩, fun hop hd ht => ?_⟩
    · rw [decodeControl_trapI hop, if_pos hd, himm]
    · rw [decodeControl_brk hop, if_pos hd, himm]
    · have hnone : decodeControl w = none :=
        hop.elim (fun h => (decodeControl_trapI h).trans (if_neg hd)) fun h => (decodeControl_brk h).trans (if_neg hd)
      exact trapsIllop_of_decodeControl_eq_none hnone ht
  case right => exact fun s imm p g h hg => trapI_unhandled h hg imm

/-! ### TRET (R110) -/

theorem lsHolds_eq_false_iff (ls : Word) (pc : BitVec 12) :
    lsHolds ls pc = false ↔ pc.toNat < lsStart ls ∨ lsStart ls + lsLen ls ≤ pc.toNat := by
  rw [lsHolds, Bool.and_eq_false_iff, decide_eq_false_iff_not, decide_eq_false_iff_not, Nat.not_le, Nat.not_lt]

/-- The clause that TRET restores is left where the resume address lies in its body, or where none is active. -/
theorem trapReturn_loopst (q : Seq) : q.trapReturn.loopst =
    if lsActive (lsMask q.tr.ls) = true ∧ (q.tr.pc.toNat < lsStart (lsMask q.tr.ls)
      ∨ lsStart (lsMask q.tr.ls) + lsLen (lsMask q.tr.ls) ≤ q.tr.pc.toNat) then 0 else lsMask q.tr.ls := by
  simp only [Seq.trapReturn, Bool.and_eq_true, Bool.not_eq_true', lsHolds_eq_false_iff]

theorem trapReturn_budget (q : Seq) : q.trapReturn.budget = if q.tr.cause = 0x07 then 0 else q.budget := by
  simp [Seq.trapReturn]

theorem tret_returns {s : State} (htm : s.seq.tr.tm = true) : Gives .tret s fun t => t.seq = s.seq.trapReturn ∧ OnlySeq s t :=
  gives_setSeq (if_neg (by simp [htm]))

theorem exec_tret_outside {s : State} (htm : s.seq.tr.tm = false) : exec .tret s = s.illop .tret := if_pos (by simp [htm])

/-- Settles O14: the return itself from `Seq.trapReturn`, the refusals from the mode and the word. -/
theorem trapReturn : Obligations.TrapReturn := by
  intro s w ls outside
  refine ⟨fun htm => ?returns, fun ht => gives_trapsTo_illop (exec_tret_outside ht.left) ht, by decide, fun hop hzero ht =>
    trapsIllop_of_decodeControl_eq_none ((decodeControl_tret hop).trans (if_neg hzero)) ht⟩
  refine (tret_returns htm).imp fun t ⟨hseq, honly⟩ => ?_
  rw [hseq]
  exact ⟨rfl, rfl, fun h => (trapReturn_loopst _).trans (if_pos h), fun h => (trapReturn_loopst _).trans (if_neg h),
    fun h => (trapReturn_budget _).trans (if_pos h), fun h => (trapReturn_budget _).trans (if_neg h), rfl, honly⟩

end Sys2Proof.Machine
end

section
/-! System registers (R88-R90): the value of every assigned number, and what SRW writes. -/

namespace Sys2Proof.Machine

/-! ### Values (R89) -/

theorem byteAddr_eq (pc : BitVec 12) : byteAddr pc = BitVec.ofNat 64 (4 * pc.toNat) := by
  have hpc : (pc ++ 0#2).toNat = 4 * pc.toNat := by
    rw [BitVec.toNat_append, ← Nat.shiftLeft_add_eq_or_of_lt (BitVec.isLt _), Nat.shiftLeft_eq, Nat.mul_comm]
    rfl
  rw [← hpc, BitVec.ofNat_toNat]
  rfl

theorem statusOf_eq (q : Seq) : statusOf q =
    BitVec.ofNat 64 (q.tr.tm.toNat + 2 * (q.loopst.getLsbD 63).toNat + 256 * q.tr.lastc.toNat) := by
  have hbits : (q.tr.lastc ++ 0#6 ++ BitVec.ofBool (lsActive q.loopst) ++ BitVec.ofBool q.tr.tm).toNat
      = q.tr.tm.toNat + 2 * (q.loopst.getLsbD 63).toNat + 256 * q.tr.lastc.toNat := by
    rw [BitVec.toNat_append, BitVec.toNat_append, BitVec.toNat_append, ← Nat.shiftLeft_add_eq_or_of_lt (BitVec.isLt _),
      ← Nat.shiftLeft_add_eq_or_of_lt (BitVec.isLt _), ← Nat.shiftLeft_add_eq_or_of_lt (BitVec.isLt _)]
    simp only [Nat.shiftLeft_eq, BitVec.toNat_ofBool, BitVec.toNat_ofNat, lsActive]
    omega
  rw [← hbits, BitVec.ofNat_toNat]
  rfl

theorem Seq.modeReg_eq (q : Seq) : q.modeReg = BitVec.ofNat 64 (q.tr.be.toNat + 2 * q.tr.ss.toNat) := by
  rw [Seq.modeReg]
  cases q.tr.be <;> cases q.tr.ss <;> rfl

theorem zeroExtend_ofBool (b : Bool) : (BitVec.ofBool b).zeroExtend 64 = BitVec.ofNat 64 b.toNat := by
  cases b <;> rfl

theorem extractLsb'_eq_shiftRight (v : Word) : v.extractLsb' 2 12 = (v >>> 2).setWidth 12 := by
  ext; simp

/-! ### Numbers (R88) -/

theorem sysRead_actor (s : State) {n : Nat} (hlo : 0x20 ≤ n) (hhi : n < 0x30) :
    s.sysRead n = some (SMap.get 0 s.runSlot.a (n - 0x20)) := by
  have hne : ∀ k < 0x20, (n == k) = false := fun k hk => beq_false_of_ne (by omega)
  simp [State.sysRead, hne, hlo, hhi]

theorem ite_some_eq_none_iff {α : Type} {p : Prop} [Decidable p] {v : α} {o : Option α} :
    (if p then some v else o) = none ↔ ¬ p ∧ o = none := by
  by_cases h : p <;> simp [h]

theorem sysRead_eq_none_iff (s : State) (n : Nat) :
    s.sysRead n = none ↔ n = 0x06 ∨ n = 0x07 ∨ (0x13 ≤ n ∧ n < 0x20) ∨ 0x30 ≤ n := by
  simp only [State.sysRead, beq_iff_eq, Bool.and_eq_true, decide_eq_true_eq, ite_some_eq_none_iff, and_true]
  omega

/-! ### SRR and SRW (R90) -/

section
variable {s : State} {d a : BitVec 5} {sel : BitVec 15}

theorem exec_srr_unassigned (h : s.sysRead sel.toNat = none) : exec (.srr d sel) s = s.illop (.srr d sel) := by
  change execSrr d sel s = _
  rw [execSrr, h]

theorem srr_reads {k : Nat} {v : Word} (hread : s.sysRead k = some v) (hn : sel.toNat = k) :
    Gives (.srr d sel) s (WritesReg s · d v) := by
  subst hn
  have hexec : exec (.srr d sel) s = s.doneG d v := by
    change execSrr d sel s = _
    rw [execSrr, hread]
  exact gives_writesReg hexec rfl

/-- The sequencer after SRW of a register of its own: its P fields take the value, TRAPPC, TRAPV and TRAPLS only in trap
mode. -/
def Seq.sysWritten (q : Seq) (n : Nat) (v : Word) : Seq :=
  if n = 0x08 then { q with tr := { q.tr with vec := v &&& 0x3FFD } }
  else if n = 0x0A then if q.tr.tm then { q with tr := { q.tr with pc := (v >>> 2).setWidth 12 } } else q
  else if n = 0x0B then if q.tr.tm then { q with tr := { q.tr with value := v } } else q
  else if n = 0x0C then if q.tr.tm then { q with tr := { q.tr with ls := lsMask v } } else q
  else if n = 0x0E then { q with tr := { q.tr with be := v.getLsbD 0 } }
  else if n = 0x11 then { q with lk := v }
  else q

theorem exec_srw_unassigned (h : s.sysRead sel.toNat = none) : exec (.srw a sel) s = s.illop (.srw a sel) := by
  change execSrw a sel s = _
  rw [execSrw, h, Option.isNone_none, if_pos rfl]

theorem exec_srw_fmode (hn : sel.toNat = 0x10) :
    exec (.srw a sel) s = s.trapSelf 0x02 (sel.zeroExtend 64) (wordOf (.srw a sel)) := by
  change execSrw a sel s = _
  simp only [execSrw, hn]
  rfl

theorem exec_srw_actor (hlo : 0x20 ≤ sel.toNat) (hhi : sel.toNat < 0x30) : exec (.srw a sel) s =
    (s.modRunSlot fun sl => { sl with a := SMap.set sl.a (sel.toNat - 0x20) (s.seq.getG a) }).done s.seq := by
  have hne : ∀ k < 0x20, (sel.toNat == k) = false := fun k hk => beq_false_of_ne (by omega)
  change execSrw a sel s = _
  simp [execSrw, sysRead_actor s hlo hhi, hne, hlo, hhi]

/-- The numbers of the registers that a sequencer holds itself, and of the read-only ones beside them (R88). -/
abbrev OwnNumber (n : Nat) : Prop := n ≤ 0x05 ∨ (0x08 ≤ n ∧ n ≤ 0x0F) ∨ n = 0x11 ∨ n = 0x12

theorem exec_srw_own (h : OwnNumber sel.toNat) :
    exec (.srw a sel) s = s.done (s.seq.sysWritten sel.toNat (s.seq.getG a)) := by
  unfold OwnNumber at h
  have hassigned : s.sysRead sel.toNat ≠ none := by rw [ne_eq, sysRead_eq_none_iff]; omega
  have hfmode : sel.toNat ≠ 0x10 := by omega
  have hactor : ¬ (0x20 ≤ sel.toNat ∧ sel.toNat < 0x30) := by omega
  change execSrw a sel s = _
  simp only [execSrw, Seq.sysWritten, Option.isNone_iff_eq_none, hassigned, hfmode, hactor, if_false, beq_iff_eq,
    Bool.and_eq_true, decide_eq_true_eq, extractLsb'_eq_shiftRight, apply_ite s.done]

theorem srw_writes {k : Nat} {q : Seq} (hq : s.seq.sysWritten k (s.seq.getG a) = q) (hk : OwnNumber k) (hn : sel.toNat = k) :
    Gives (.srw a sel) s fun t => t.seq = q.stepPc ∧ OnlySeq s t := by
  subst hn
  rw [← hq]
  exact gives_setSeq (exec_srw_own hk)

/-- A write of FMODE traps PRIV with its number. -/
theorem srw_traps_priv (ht : TakesTraps s) (hn : sel.toNat = 0x10) :
    Gives (.srw a sel) s (TrapsTo s · 0x02 0x10 s.seq.pc s.seq.loopst) := by
  have hsel : sel = 0x10 := BitVec.eq_of_toNat_eq hn
  rw [Gives, exec_srw_fmode hn, hsel]
  exact s.trapSelf_gives ht ..

theorem srw_keeps (hq : s.seq.sysWritten sel.toNat (s.seq.getG a) = s.seq) (hn : OwnNumber sel.toNat) :
    Gives (.srw a sel) s (WritesReg s · 0 0) := by
  rw [Gives, exec_srw_own hn, hq]
  exact s.done_gives

end

/-! ### What SRW writes and leaves (R90) -/

section
variable (q : Seq) (v : Word)

theorem Seq.sysWritten_trappc (htm : q.tr.tm = true) :
    q.sysWritten 0x0A v = { q with tr := { q.tr with pc := (v >>> 2).setWidth 12 } } := by
  simp [Seq.sysWritten, htm]

theorem Seq.sysWritten_trapv (htm : q.tr.tm = true) : q.sysWritten 0x0B v = { q with tr := { q.tr with value := v } } := by
  simp [Seq.sysWritten, htm]

theorem Seq.sysWritten_trapls (htm : q.tr.tm = true) :
    q.sysWritten 0x0C v = { q with tr := { q.tr with ls := lsMask v } } := by
  simp [Seq.sysWritten, htm]

theorem Seq.sysWritten_outside_trapMode {n : Nat} (htm : q.tr.tm = false) (hn : n = 0x0A ∨ n = 0x0B ∨ n = 0x0C) :
    q.sysWritten n v = q := by
  rcases hn with rfl | rfl | rfl <;> simp [Seq.sysWritten, htm]

/-- A register of C or H fields keeps its value, and so does each of the three outside trap mode. -/
theorem Seq.sysWritten_eq_self {n : Nat} (hn : n ≤ 0x05 ∨ n = 0x09 ∨ n = 0x0D ∨ n = 0x0F ∨ n = 0x12
    ∨ (q.tr.tm = false ∧ (n = 0x0A ∨ n = 0x0B ∨ n = 0x0C))) : q.sysWritten n v = q := by
  obtain hle | rfl | rfl | rfl | rfl | ⟨htm, hn⟩ := hn
  · unfold Seq.sysWritten
    repeat rw [if_neg (by omega)]
  · rfl
  · rfl
  · rfl
  · rfl
  · exact q.sysWritten_outside_trapMode v htm hn

end

/-- Settles O22: SRR from the value at each number, SRW from what it writes there (`Seq.sysWritten`). -/
theorem systemRegisters : Obligations.SystemRegisters := by
  constructor
  case left =>
    intro s d sel c q sl n reads
    exact ⟨srr_reads rfl, srr_reads rfl, srr_reads rfl, srr_reads rfl, srr_reads rfl, srr_reads rfl, srr_reads rfl,
      srr_reads rfl, srr_reads (congrArg some (byteAddr_eq _)), srr_reads rfl, srr_reads rfl,
      srr_reads (congrArg some (statusOf_eq _)), srr_reads (congrArg some q.modeReg_eq), srr_reads rfl,
      srr_reads (congrArg some (zeroExtend_ofBool _)), srr_reads rfl, srr_reads rfl,
      fun hlo hhi => srr_reads (sysRead_actor s hlo hhi) rfl,
      fun ht hn => gives_trapsTo_illop (exec_srr_unassigned ((sysRead_eq_none_iff s n).mpr hn)) ht⟩
  case right =>
    intro s a sel q v n i sets
    exact ⟨srw_writes rfl (by decide),
      fun hn htm => srw_writes (q.sysWritten_trappc v htm) (by decide) hn,
      fun hn htm => srw_writes (q.sysWritten_trapv v htm) (by decide) hn,
      fun hn htm => srw_writes (q.sysWritten_trapls v htm) (by decide) hn,
      srw_writes rfl (by decide), srw_writes rfl (by decide),
      fun hn => srw_keeps (q.sysWritten_eq_self v hn) (by omega),
      fun hlo hhi => ⟨_, exec_srw_actor hlo hhi, rfl⟩,
      fun ht hn => srw_traps_priv ht hn,
      fun ht hn => gives_trapsTo_illop (exec_srw_unassigned ((sysRead_eq_none_iff s n).mpr hn)) ht⟩

end Sys2Proof.Machine
end

section
/-! Loads and stores (R153, R166-R170): where an access of the window 0xFFFF lies, what a load and a store answer for each
outcome of their access, and the refusals of atomics and MARM. -/

namespace Sys2Proof.Machine

/-! ### Values loaded (R168) -/

@[simp] theorem memBytes_length (m : Mem) (a n : Nat) : (memBytes m a n).length = n := by
  induction n generalizing a with
  | zero => rfl
  | succ n ih => rw [memBytes, List.length_cons, ih]

theorem loadValue_unsigned (bs : List Byte) : loadValue bs false = BitVec.ofNat 64 (leNat bs) := by
  simp [loadValue]

theorem loadValue_signed {bs : List Byte} {n : Nat} (hlen : bs.length = n) (hpos : 0 < n) (hshort : n < 8)
    (hlt : leNat bs < 2 ^ (8 * n)) : loadValue bs true = (BitVec.ofNat (8 * n) (leNat bs)).signExtend 64 := by
  have hpow : 2 ^ (8 * n) ≤ 2 ^ 64 := Nat.pow_le_pow_right (by decide) (by omega)
  apply BitVec.eq_of_toNat_eq
  rw [BitVec.toNat_signExtend, BitVec.msb_eq_decide, BitVec.toNat_setWidth, BitVec.toNat_ofNat, Nat.mod_eq_of_lt hlt]
  by_cases hneg : 2 ^ (8 * n - 1) ≤ leNat bs
  · simp [loadValue, hlen, hpos, hshort, hneg]
    omega
  · simp [loadValue, hlen, hneg]

/-! ### Where an access of the window lies (R153, R170) -/

theorem partsOf_within_chunk {va : Word} {n : Nat} (h : vaOff va % 65536 + n ≤ 65536) : partsOf va n = [(va, n)] := by
  have hroom : n ≤ 65536 - vaOff va % 65536 := by omega
  rw [partsOf, accParts, if_pos hroom]

/-- A window is never cut at rows. -/
theorem shardParts_window (s : State) (w : Who) {va : Word} (htensor : 0xFFFE ≤ vaTensor va) (n : Nat) :
    s.shardParts w [(va, n)] = [(va, n)] := by
  rw [State.shardParts]
  cases s.taskFor w with
  | none => rfl
  | some t => simp [htensor]

section
variable {s : State} {w : Who} {need : Need} {va : Word} {n : Nat}

theorem locateAll_window (htensor : 0xFFFE ≤ vaTensor va) (hchunk : vaOff va % 65536 + n ≤ 65536)
    (hlive : s.suppressed w = false) :
    s.locateAll w need (partsOf va n) = (s.window w va n).map fun l => [(va, n, l, 0)] := by
  rw [State.locateAll, partsOf_within_chunk hchunk, shardParts_window s w htensor]
  cases hwin : s.window w va n <;>
    simp [State.undeclared, State.locateList, State.whereIs, htensor, hlive, hwin, Except.map]

theorem locateAll_window_suppressed (htensor : 0xFFFE ≤ vaTensor va) (hchunk : vaOff va % 65536 + n ≤ 65536)
    (hdead : s.suppressed w = true) : s.locateAll w need (partsOf va n) = .error .supp := by
  simp [State.locateAll, partsOf_within_chunk hchunk, State.undeclared, htensor, hdead]

end

theorem window_privAt (s : State) {base : Word} {off : BitVec 48} {n o : Nat} (hat : PrivAt base off n o) :
    s.window (s.seqWho s.focus.cell) (vaPlus base off) n = .ok (.priv o) := by
  obtain ⟨htensor, hoff, hin⟩ := hat
  have hseq : (s.seqWho s.focus.cell).cls = .seq := rfl
  simp [State.window, htensor, hoff, hin, hseq]

/-- An access of the sequencer that leaves the window is refused with its address. -/
theorem window_leaving (s : State) (w : Who) {va : Word} {n : Nat} (htensor : vaTensor va = 0xFFFF)
    (hout : 0x4000 < vaOff va + n) : s.window w va n = .error (.bad 0x05 va) := by
  simp [State.window, htensor, hout]

section
variable {s : State} {base : Word} {off : BitVec 48} {n o : Nat}

theorem PrivAt.tensor_le (hat : PrivAt base off n o) : 0xFFFE ≤ vaTensor (vaPlus base off) := by
  obtain ⟨htensor, -, -⟩ := hat
  omega

theorem PrivAt.within_chunk (hat : PrivAt base off n o) : vaOff (vaPlus base off) % 65536 + n ≤ 65536 := by
  obtain ⟨-, hoff, hin⟩ := hat
  omega

theorem PrivAt.mono {m : Nat} (hat : PrivAt base off n o) (hmn : m ≤ n) : PrivAt base off m o :=
  let ⟨htensor, hoff, hin⟩ := hat
  ⟨htensor, hoff, by omega⟩

theorem readVa_privAt (hat : PrivAt base off n o) (hlive : s.suppressed (s.seqWho s.focus.cell) = false) :
    s.readVa (s.seqWho s.focus.cell) (vaPlus base off) n = .ok (memBytes (s.cell s.focus.cell).priv o n, s) := by
  have hcell : (s.seqWho s.focus.cell).cell = s.focus.cell := rfl
  simp [State.readVa, locateAll_window hat.tensor_le hat.within_chunk hlive, window_privAt s hat, Except.map,
    State.firstPoison, State.partPoison, State.readParts, State.readLoc, hcell]

theorem readVa_privAt_suppressed (hat : PrivAt base off n o) (hdead : s.suppressed (s.seqWho s.focus.cell) = true) :
    s.readVa (s.seqWho s.focus.cell) (vaPlus base off) n = .ok (s.freeBytes n) := by
  rw [State.readVa, locateAll_window_suppressed hat.tensor_le hat.within_chunk hdead]

theorem writeVa_privAt (hat : PrivAt base off n o) (hlive : s.suppressed (s.seqWho s.focus.cell) = false) (v : Nat) :
    s.writeVa (s.seqWho s.focus.cell) (vaPlus base off) (natLe v n) = .ok (s.storePriv o n v) := by
  have hcell : (s.seqWho s.focus.cell).cell = s.focus.cell := rfl
  have htake : (natLe v n).take n = natLe v n := List.take_of_length_le (by simp)
  simp [State.writeVa, locateAll_window hat.tensor_le hat.within_chunk hlive, window_privAt s hat, Except.map,
    joinParts, State.writeParts, State.writeLoc, State.storePriv, hcell, htake]

theorem writeVa_privAt_suppressed (hat : PrivAt base off n o) (hdead : s.suppressed (s.seqWho s.focus.cell) = true)
    (v : Nat) : s.writeVa (s.seqWho s.focus.cell) (vaPlus base off) (natLe v n) = .ok s := by
  rw [State.writeVa, natLe_length, locateAll_window_suppressed hat.tensor_le hat.within_chunk hdead]

end

/-! ### What an instruction answers for each outcome of its access (R167-R170) -/

section
variable {s : State} {i : Instr} {need : Need} {va v : Word} {cause : BitVec 8}

theorem gives_trapsTo_trapSelf {w : Word} (hexec : exec i s = s.trapSelf cause v w) (ht : TakesTraps s) :
    Gives i s (TrapsTo s · cause v s.seq.pc s.seq.loopst) := by
  rw [Gives, hexec]
  exact s.trapSelf_gives ht ..

/-- A check that refuses the access traps with its cause and address, poison apart. -/
theorem gives_trapsTo_of_refused (hexec : exec i s = s.seqFail i need va (.bad cause v)) (ht : TakesTraps s)
    (hcause : cause ≠ 0x06) : Gives i s (TrapsTo s · cause v s.seq.pc s.seq.loopst) := by
  have htrap : s.seqFail i need va (.bad cause v) = s.trapSelf cause v (wordOf i) := by
    unfold State.seqFail
    exact if_neg (by simpa using hcause)
  exact gives_trapsTo_trapSelf (hexec.trans htrap) ht

theorem gives_waits {q : Seq} (hexec : exec i s = .next (s.setSeq q)) (hq : { q with wait := s.seq.wait } = s.seq) :
    Gives i s fun t => t.seq.wait = q.wait ∧ Waits s t := by
  refine (gives_setSeq hexec).imp fun t ⟨hseq, honly⟩ => ⟨congrArg Seq.wait hseq, ?_, honly⟩
  rw [hseq, hq]

end

section
variable {s s' : State} {i : Instr} {d b : BitVec 5} {off : BitVec 12} {n : Nat} {signed : Bool} {bs : List Byte}

theorem exec_of_load_refused {f : AccFail} (hexec : exec i s = s.load i d b off n signed)
    (hread : s.readVa (s.seqWho s.focus.cell) (vaPlus (s.seq.getG b) (off.signExtend 48)) n = .error f) :
    exec i s = s.seqFail i .rd (vaPlus (s.seq.getG b) (off.signExtend 48)) f := by
  rw [hexec, State.load, offS12]
  simp only [hread]

theorem exec_of_store_refused {f : AccFail} (hexec : exec i s = s.store i d b off n)
    (hwrite : s.writeVa (s.seqWho s.focus.cell) (vaPlus (s.seq.getG b) (off.signExtend 48))
      (natLe (s.seq.getG d).toNat n) = .error f) :
    exec i s = s.seqFail i .wr (vaPlus (s.seq.getG b) (off.signExtend 48)) f := by
  rw [hexec, State.store, offS12]
  simp only [hwrite]

theorem load_performed (hexec : exec i s = s.load i d b off n signed)
    (hread : s.readVa (s.seqWho s.focus.cell) (vaPlus (s.seq.getG b) (off.signExtend 48)) n = .ok (bs, s')) :
    Gives i s (WritesReg s' · d (loadValue bs signed)) := by
  have hdone : exec i s = s'.doneG d (loadValue bs signed) := by
    rw [hexec, State.load, offS12]
    simp only [hread]
  rw [Gives, hdone]
  exact s'.doneG_gives _ _ _ rfl

theorem exec_of_store_performed (hexec : exec i s = s.store i d b off n)
    (hwrite : s.writeVa (s.seqWho s.focus.cell) (vaPlus (s.seq.getG b) (off.signExtend 48))
      (natLe (s.seq.getG d).toNat n) = .ok s') : exec i s = s'.done s'.seq := by
  rw [hexec, State.store, offS12]
  simp only [hwrite]

theorem store_performed (hexec : exec i s = s.store i d b off n)
    (hwrite : s.writeVa (s.seqWho s.focus.cell) (vaPlus (s.seq.getG b) (off.signExtend 48))
      (natLe (s.seq.getG d).toNat n) = .ok s') : Gives i s (WritesReg s' · 0 0) := by
  rw [Gives, exec_of_store_performed hexec hwrite]
  exact s'.done_gives

/-- A load that meets poison is held until the response, which brings the trap (R159, R167). -/
theorem load_poisoned {v : Word} (hexec : exec i s = s.load i d b off n signed) (hmwait : ∀ r, i ≠ .mwait r)
    (hread : s.readVa (s.seqWho s.focus.cell) (vaPlus (s.seq.getG b) (off.signExtend 48)) n = .error (.bad 0x06 v)) :
    Gives i s fun t =>
      t.seq.wait = { hold := some { va := v, kind := .read, trap := some (0x06, v) }, stall := 1 } ∧ Waits s t := by
  refine gives_waits (q := { s.seq with
    wait := { hold := some { va := v, kind := .read, trap := some (0x06, v) }, stall := 1 } }) ?_ rfl
  rw [exec_of_load_refused hexec hread]
  unfold State.seqFail
  refine (if_pos rfl).trans ?_
  split
  next r => exact absurd rfl (hmwait r)
  next => rfl

/-! ### Loads and stores of the window -/

variable {o : Nat}

theorem load_privAt_unsigned (hexec : exec i s = s.load i d b off n false)
    (hat : PrivAt (s.seq.getG b) (off.signExtend 48) n o) (hlive : s.suppressed (s.seqWho s.focus.cell) = false) :
    Gives i s (WritesReg s · d (BitVec.ofNat 64 (memNat (s.cell s.focus.cell).priv o n))) :=
  loadValue_unsigned _ ▸ load_performed hexec (readVa_privAt hat hlive)

theorem load_privAt_signed (hexec : exec i s = s.load i d b off n true)
    (hat : PrivAt (s.seq.getG b) (off.signExtend 48) n o) (hlive : s.suppressed (s.seqWho s.focus.cell) = false)
    (hpos : 0 < n) (hshort : n < 8) : Gives i s (WritesReg s · d
      ((BitVec.ofNat (8 * n) (memNat (s.cell s.focus.cell).priv o n)).signExtend 64)) := by
  have hlt : memNat (s.cell s.focus.cell).priv o n < 2 ^ (8 * n) := by
    rw [Nat.pow_mul]
    exact memNat_lt ..
  rw [memNat, ← loadValue_signed (memBytes_length ..) hpos hshort hlt]
  exact load_performed hexec (readVa_privAt hat hlive)

/-- A load of an aborted task's sequencer gives a free value (R295, log 23). -/
theorem load_privAt_suppressed (hexec : exec i s = s.load i d b off n signed)
    (hat : PrivAt (s.seq.getG b) (off.signExtend 48) n o) (hdead : s.suppressed (s.seqWho s.focus.cell) = true) :
    Gives i s fun t => ∃ v, WritesReg { s with freeCtr := t.freeCtr } t d v := by
  refine (load_performed hexec (readVa_privAt_suppressed hat hdead)).imp fun t hwrites => ?_
  have hctr : t.freeCtr = s.freeCtr + n := congrArg State.freeCtr hwrites.only.rest
  exact ⟨_, hctr.symm ▸ hwrites⟩

theorem store_privAt (hexec : exec i s = s.store i d b off n) (hat : PrivAt (s.seq.getG b) (off.signExtend 48) n o)
    (hlive : s.suppressed (s.seqWho s.focus.cell) = false) : Gives i s fun t =>
      WritesPriv s t o n (s.seq.getG d).toNat ∧ GoesOn s t
      ∧ { t.seq with pc := s.seq.pc, loopst := s.seq.loopst, wait := s.seq.wait } = s.seq := by
  refine ⟨_, exec_of_store_performed hexec (writeVa_privAt hat hlive _),
    (writesPriv_storePriv ..).then_onlySeq (OnlySeq.of_setSeq _ _), ?_, ?_⟩
  · simp [GoesOn, Seq.stepPc]
  · rw [State.seq_setSeq, State.storePriv_seq]
    rfl

theorem store_privAt_suppressed (hexec : exec i s = s.store i d b off n)
    (hat : PrivAt (s.seq.getG b) (off.signExtend 48) n o) (hdead : s.suppressed (s.seqWho s.focus.cell) = true) :
    Gives i s (WritesReg s · 0 0) :=
  store_performed hexec (writeVa_privAt_suppressed hat hdead _)

end

section
variable (s : State) (d v b : BitVec 5) (off : BitVec 12)

theorem exec_ldB : exec (.ldB d b off) s = s.load (.ldB d b off) d b off 1 true := rfl
theorem exec_ldBu : exec (.ldBu d b off) s = s.load (.ldBu d b off) d b off 1 false := rfl
theorem exec_ldH : exec (.ldH d b off) s = s.load (.ldH d b off) d b off 2 true := rfl
theorem exec_ldHu : exec (.ldHu d b off) s = s.load (.ldHu d b off) d b off 2 false := rfl
theorem exec_ldW : exec (.ldW d b off) s = s.load (.ldW d b off) d b off 4 true := rfl
theorem exec_ldWu : exec (.ldWu d b off) s = s.load (.ldWu d b off) d b off 4 false := rfl
theorem exec_ldD : exec (.ldD d b off) s = s.load (.ldD d b off) d b off 8 false := rfl
theorem exec_stB : exec (.stB v b off) s = s.store (.stB v b off) v b off 1 := rfl
theorem exec_stH : exec (.stH v b off) s = s.store (.stH v b off) v b off 2 := rfl
theorem exec_stW : exec (.stW v b off) s = s.store (.stW v b off) v b off 4 := rfl
theorem exec_stD : exec (.stD v b off) s = s.store (.stD v b off) v b off 8 := rfl

end

/-- Settles O15: each load and store from its access of the window, performed or suppressed. -/
theorem privateMemory : Obligations.PrivateMemory := by
  constructor
  case left =>
    intro s d b off o m dead at' free
    refine ⟨fun hdead hat => ?suppressed, fun ⟨hat, hlive⟩ => ?oneByte, fun ⟨hat, hlive⟩ => ?twoBytes,
      fun ⟨hat, hlive⟩ => ?fourBytes, fun ⟨hat, hlive⟩ => load_privAt_unsigned (exec_ldD ..) hat hlive⟩
    case suppressed =>
      have freeValue : ∀ {i n signed}, exec i s = s.load i d b off n signed → n ≤ 8 → free i := fun hexec hn =>
        load_privAt_suppressed hexec (hat.mono hn) hdead
      exact ⟨freeValue (exec_ldB ..) (by decide), freeValue (exec_ldBu ..) (by decide), freeValue (exec_ldH ..) (by decide),
        freeValue (exec_ldHu ..) (by decide), freeValue (exec_ldW ..) (by decide), freeValue (exec_ldWu ..) (by decide),
        freeValue (exec_ldD ..) (by decide)⟩
    case oneByte =>
      exact ⟨load_privAt_signed (exec_ldB ..) hat hlive (by decide) (by decide),
        load_privAt_unsigned (exec_ldBu ..) hat hlive⟩
    case twoBytes =>
      exact ⟨load_privAt_signed (exec_ldH ..) hat hlive (by decide) (by decide),
        load_privAt_unsigned (exec_ldHu ..) hat hlive⟩
    case fourBytes =>
      exact ⟨load_privAt_signed (exec_ldW ..) hat hlive (by decide) (by decide),
        load_privAt_unsigned (exec_ldWu ..) hat hlive⟩
  case right =>
    intro s v b off o dead at' none' does
    refine ⟨fun hdead hat => ?nothing, fun ⟨hat, hlive⟩ => store_privAt (exec_stB ..) hat hlive,
      fun ⟨hat, hlive⟩ => store_privAt (exec_stH ..) hat hlive,
      fun ⟨hat, hlive⟩ => store_privAt (exec_stW ..) hat hlive,
      fun ⟨hat, hlive⟩ => store_privAt (exec_stD ..) hat hlive⟩
    case nothing =>
      have nothing : ∀ {i n}, exec i s = s.store i v b off n → n ≤ 8 → none' i := fun hexec hn =>
        store_privAt_suppressed hexec (hat.mono hn) hdead
      exact ⟨nothing (exec_stB ..) (by decide), nothing (exec_stH ..) (by decide), nothing (exec_stW ..) (by decide),
        nothing (exec_stD ..) (by decide)⟩

/-! ### Addresses refused at issue (R153, R171, R189) -/

theorem vaPlus_zero (va : Word) : vaPlus va 0 = va := by
  have hoff : va.extractLsb' 0 48 + 0 = va.extractLsb' 0 48 := BitVec.add_zero _
  have hwhole : va.extractLsb' 48 16 ++ va.extractLsb' 0 48 = va.extractLsb' 0 64 :=
    BitVec.extractLsb'_append_extractLsb'_eq_extractLsb' rfl
  rw [vaPlus, hoff, hwhole, BitVec.extractLsb'_eq_self]

section
variable {s : State} {w : Who} {va : Word} {n : Nat}

theorem readVa_leaving_window (htensor : vaTensor va = 0xFFFF) (hout : 0x4000 < vaOff va + n)
    (hchunk : vaOff va % 65536 + n ≤ 65536) (hlive : s.suppressed w = false) :
    s.readVa w va n = .error (.bad 0x05 va) := by
  rw [State.readVa, locateAll_window (by omega) hchunk hlive, window_leaving s w htensor hout]
  rfl

theorem writeVa_leaving_window {bs : List Byte} (htensor : vaTensor va = 0xFFFF) (hout : 0x4000 < vaOff va + bs.length)
    (hchunk : vaOff va % 65536 + bs.length ≤ 65536) (hlive : s.suppressed w = false) :
    s.writeVa w va bs = .error (.bad 0x05 va) := by
  rw [State.writeVa, locateAll_window (by omega) hchunk hlive, window_leaving s w htensor hout]
  rfl

end

/-- An atomic off its alignment traps MISALIGN before any other check (R171, log 29). -/
theorem atom_misaligned {s : State} {i : Instr} {need : Need} {d a : BitVec 5} {n : Nat} {f : Nat → Option Nat}
    {ret : Nat → Word} (hexec : exec i s = s.atom i need d a n f ret) (ht : TakesTraps s)
    (hmis : (s.seq.getG a).toNat % n ≠ 0) : Gives i s (TrapsTo s · 0x03 (s.seq.getG a) s.seq.pc s.seq.loopst) := by
  have htrap : exec i s = s.trapSelf 0x03 (s.seq.getG a) (wordOf i) := by
    rw [hexec, State.atom, vaPlus_zero, if_pos (bne_iff_ne.mpr hmis)]
  exact gives_trapsTo_trapSelf htrap ht

/-- So does MARM (R189). -/
theorem marm_misaligned {s : State} {v b : BitVec 5} {off : BitVec 12} (ht : TakesTraps s)
    (hmis : (vaPlus (s.seq.getG b) (off.signExtend 48)).toNat % 8 ≠ 0) : Gives (.marm v b off) s
      (TrapsTo s · 0x03 (vaPlus (s.seq.getG b) (off.signExtend 48)) s.seq.pc s.seq.loopst) :=
  gives_trapsTo_trapSelf (if_pos (bne_iff_ne.mpr hmis)) ht

/-- Settles O17: each load and store from the outcome of its access, atomics and MARM from their alignment. -/
theorem accessFates : Obligations.AccessFates := by
  constructor
  case left =>
    intro s d b off va w ld st
    refine ⟨fun bs s' => ?loaded, fun s' => ?stored, fun cause v ht hcause => ?refused⟩
    case loaded =>
      exact ⟨fun h => ⟨load_performed (exec_ldB ..) h, load_performed (exec_ldBu ..) h⟩,
        fun h => ⟨load_performed (exec_ldH ..) h, load_performed (exec_ldHu ..) h⟩,
        fun h => ⟨load_performed (exec_ldW ..) h, load_performed (exec_ldWu ..) h⟩, load_performed (exec_ldD ..)⟩
    case stored =>
      exact ⟨store_performed (exec_stB ..), store_performed (exec_stH ..), store_performed (exec_stW ..),
        store_performed (exec_stD ..)⟩
    case refused =>
      intro traps bad
      have load : ∀ {i n signed}, exec i s = s.load i d b off n signed → ld n = .error bad → traps i := fun hexec h =>
        gives_trapsTo_of_refused (exec_of_load_refused hexec h) ht hcause
      have store : ∀ {i n}, exec i s = s.store i d b off n → st n = .error bad → traps i := fun hexec h =>
        gives_trapsTo_of_refused (exec_of_store_refused hexec h) ht hcause
      exact ⟨fun h => ⟨load (exec_ldB ..) h, load (exec_ldBu ..) h⟩,
        fun h => ⟨load (exec_ldH ..) h, load (exec_ldHu ..) h⟩,
        fun h => ⟨load (exec_ldW ..) h, load (exec_ldWu ..) h⟩, load (exec_ldD ..), store (exec_stB ..),
        store (exec_stH ..), store (exec_stW ..), store (exec_stD ..)⟩
  case right =>
    intro s d a b off v va x mis poison held
    have hold : ∀ {i n signed}, exec i s = s.load i d b off n signed → (∀ r, i ≠ .mwait r) → poison n → held i :=
      fun hexec hmwait h => load_poisoned hexec hmwait h
    refine ⟨fun h => ⟨hold (exec_ldB ..) nofun h, hold (exec_ldBu ..) nofun h⟩,
      fun h => ⟨hold (exec_ldH ..) nofun h, hold (exec_ldHu ..) nofun h⟩,
      fun h => ⟨hold (exec_ldW ..) nofun h, hold (exec_ldWu ..) nofun h⟩, hold (exec_ldD ..) nofun, fun ht =>
      ⟨fun htensor hout hchunk hlive => ?leaves, marm_misaligned ht, fun hmis => ?eightBytes, fun hmis => ?fourBytes⟩⟩
    case leaves =>
      have hread := exec_of_load_refused (exec_ldD s d b off) (readVa_leaving_window htensor hout hchunk hlive)
      have hwrite := exec_of_store_refused (exec_stD s d b off) (writeVa_leaving_window htensor hout hchunk hlive)
      exact ⟨gives_trapsTo_of_refused hread ht (by decide), gives_trapsTo_of_refused hwrite ht (by decide)⟩
    case eightBytes =>
      exact ⟨atom_misaligned (exec_aaddD ..) ht hmis, atom_misaligned (exec_aminS ..) ht hmis,
        atom_misaligned (exec_aminU ..) ht hmis, atom_misaligned (exec_amaxS ..) ht hmis,
        atom_misaligned (exec_amaxU ..) ht hmis, atom_misaligned (exec_alogAnd ..) ht hmis,
        atom_misaligned (exec_alogOr ..) ht hmis, atom_misaligned (exec_alogXor ..) ht hmis,
        atom_misaligned (exec_axch ..) ht hmis, atom_misaligned (exec_acas ..) ht hmis⟩
    case fourBytes =>
      exact ⟨atom_misaligned (exec_aaddW ..) ht hmis, atom_misaligned (exec_afaddF32 ..) ht hmis,
        atom_misaligned (exec_afaddBf16x2 ..) ht hmis⟩

end Sys2Proof.Machine
end

section
/-! Memory at home (R159, R161, R269, R333, R398): accesses that come over the link, blocks poisoned by an error, and the
refresh windows of the bank groups. -/

namespace Sys2Proof.Machine

/-! ### What bringing bytes home leaves alone (R198, R205) -/

/-- Of the whole state only HBM, the die caches and the poisoned blocks may differ. -/
def ChangesHome (s t : State) : Prop :=
  ∃ hbm die poison, t = { s with mem := { s.mem with hbm := hbm, die := die, poison := poison } }

theorem ChangesHome.refl (s : State) : ChangesHome s s := ⟨_, _, _, rfl⟩

theorem ChangesHome.trans {s t u : State} (hst : ChangesHome s t) (htu : ChangesHome t u) : ChangesHome s u := by
  obtain ⟨_, _, _, rfl⟩ := hst
  obtain ⟨_, _, _, rfl⟩ := htu
  exact ⟨_, _, _, rfl⟩

theorem changesHome_foldl {α : Type} {f : State → α → State} (hf : ∀ s x, ChangesHome s (f s x)) (l : List α)
    (s : State) : ChangesHome s (l.foldl f s) := by
  induction l generalizing s with
  | nil => exact .refl s
  | cons x l ih => exact (hf s x).trans (ih _)

theorem changesHome_dieDrop (s : State) (d ln : Nat) : ChangesHome s (s.dieDrop d ln) := by
  rw [State.dieDrop]
  split
  next => exact .refl s
  next => exact ⟨_, _, _, rfl⟩

theorem changesHome_lineOut (s : State) (d ln : Nat) : ChangesHome s (s.lineOut d ln) :=
  (changesHome_foldl (fun s e => changesHome_dieDrop s e ln) _ s).trans (changesHome_dieDrop ..)

theorem changesHome_settle (s : State) (pa n : Nat) : ChangesHome s (s.settle pa n) :=
  changesHome_foldl (fun s ln => changesHome_lineOut s _ ln) _ s

theorem changesHome_settleStore (s : State) (pa : Nat) (bs : List Byte) : ChangesHome s (s.settleStore pa bs) :=
  (changesHome_settle s pa bs.length).trans ⟨_, _, _, rfl⟩

section
variable {s t : State} (h : ChangesHome s t)
include h

theorem ChangesHome.cells_eq : t.cells = s.cells := by obtain ⟨_, _, _, rfl⟩ := h; rfl
theorem ChangesHome.parts_eq : t.parts = s.parts := by obtain ⟨_, _, _, rfl⟩ := h; rfl
theorem ChangesHome.acks_eq : t.mem.acks = s.mem.acks := by obtain ⟨_, _, _, rfl⟩ := h; rfl
theorem ChangesHome.homeRuns_eq : t.mem.homeRuns = s.mem.homeRuns := by obtain ⟨_, _, _, rfl⟩ := h; rfl

end

theorem memRead_settleStore (s : State) (pa a : Nat) (bs : List Byte) : memRead (s.settleStore pa bs).mem.hbm a =
    if pa ≤ a ∧ a < pa + bs.length then bs.getD (a - pa) 0 else memRead (s.settle pa bs.length).mem.hbm a := by
  rw [List.getD_eq_getElem?_getD]
  exact memRead_memStore ..

/-! ### Accesses to an exported frame (R269, R333) -/

theorem homeHeld_iff (s : State) (f : Nat) : s.homeHeld f = true ↔
    ∃ e ∈ s.parts, e.2.loaded = true ∧ e.2.ownsFrame f = true ∧ s.swapping e.1 = true := by
  simp [State.homeHeld, and_assoc]

section
variable {s : State} {pkg f off : Nat} {data : List Byte}

theorem exec_home_refused (kind : RemoteKind) (h : (f, pkg) ∉ s.mem.exported ∨ s.homeHeld f = true) :
    exec (.remoteAccessHome pkg (.frame f) off kind data) s = .next s :=
  if_pos (by rcases h with h | h <;> simp [h])

section
variable (hexp : (f, pkg) ∈ s.mem.exported) (hin : off + data.length ≤ 65536) (hfree : ¬ s.homeHeld f = true)
include hexp hin hfree

theorem home_open : ¬ (!s.mem.exported.contains (f, pkg) || off + data.length > 65536 || s.homeHeld f) = true := by
  simp [hexp, hin, hfree]

theorem exec_home_reads {k : AccKind} (hk : k = .read ∨ k = .gather) :
    exec (.remoteAccessHome pkg (.frame f) off (.acc k) data) s = .next (s.settle (f * 65536 + off) data.length) := by
  rcases hk with rfl | rfl
  · exact if_neg (home_open hexp hin hfree)
  · exact if_neg (home_open hexp hin hfree)

theorem exec_home_stores {k : AccKind} (hk : k = .write ∨ k = .atomic) :
    exec (.remoteAccessHome pkg (.frame f) off (.acc k) data) s = .next (s.settleStore (f * 65536 + off) data) := by
  rcases hk with rfl | rfl
  · exact if_neg (home_open hexp hin hfree)
  · exact if_neg (home_open hexp hin hfree)

theorem exec_home_block (b : RemoteBlock) : exec (.remoteAccessHome pkg (.frame f) off (.block b) data) s
    = .next ((s.settleStore (f * 65536 + off) data).homeAck pkg b data) := if_neg (home_open hexp hin hfree)

end

/-! ### The running assay of a chain (R398) -/

/-- A block that is not its chain's last is acknowledged with the running assay, which the home keeps. -/
def AcksRunning (s t : State) (pkg : Nat) (b : RemoteBlock) (v : BitVec 32) : Prop :=
  t.mem.acks = s.mem.acks ++ [(pkg, b.chain, v, none)] ∧ ((pkg, b.chain), v) ∈ t.mem.homeRuns

variable {b : RemoteBlock}

theorem homeAck_first (hfirst : b.first = true) (hresume : b.resume = none) (hlast : b.last = none) :
    AcksRunning s (s.homeAck pkg b data) pkg b (assayBytes b.assay (assayInit b.assay) data (data.length / 4)) := by
  simp [AcksRunning, State.homeAck, hfirst, hresume, hlast]

theorem homeAck_further {v : BitVec 32} (hfirst : b.first = false) (hresume : b.resume = none) (hlast : b.last = none)
    (hrun : s.mem.homeRuns.find? (fun e => e.1 == (pkg, b.chain)) = some ((pkg, b.chain), v)) :
    AcksRunning s (s.homeAck pkg b data) pkg b (assayBytes b.assay v data (data.length / 4)) := by
  simp [AcksRunning, State.homeAck, hfirst, hresume, hlast, hrun]

/-- The last block is acknowledged with the chain's result, and the chain's run ends. -/
theorem homeAck_last {v x : BitVec 32} (hresume : b.resume = some v) (hlast : b.last = some x) :
    (s.homeAck pkg b data).mem.acks = s.mem.acks ++ [(pkg, b.chain,
        assayFinal b.assay (assayBytes b.assay v data (data.length / 4)),
        some (assayFinal b.assay (assayBytes b.assay v data (data.length / 4)) == x))]
      ∧ ∀ y ∈ (s.homeAck pkg b data).mem.homeRuns, y.1 ≠ (pkg, b.chain) := by
  simp [State.homeAck, hresume, hlast]

end

/-! ### Accesses to a row that this package owns (R269, log 109) -/

section
variable {s : State} {pkg p tensor row off : Nat} {data : List Byte}

theorem exec_home_row_refused (kind : RemoteKind)
    (h : s.rowAt p tensor row off data.length = none ∨ s.swapping p = true) :
    exec (.remoteAccessHome pkg (.row p tensor row) off kind data) s = .next s := by
  change execRemoteAccessHome pkg (.row p tensor row) off kind data s = _
  simp only [execRemoteAccessHome]
  split
  next => rfl
  next hopen =>
    have hrow := h.resolve_right fun hswap => hopen (by simp [hswap])
    rw [hrow]

variable {ps : List (Nat × Nat)} {s1 : State} (hloaded : (s.part p).loaded = true) (hswap : s.swapping p = false)
  (hrow : s.rowAt p tensor row off data.length = some ps)
include hloaded hswap hrow

theorem exec_home_row_stores {k : AccKind} (hk : k = .write ∨ k = .atomic)
    (hwrite : s.rowWrite p tensor ps data = some s1) :
    exec (.remoteAccessHome pkg (.row p tensor row) off (.acc k) data) s = .next s1 := by
  change execRemoteAccessHome pkg (.row p tensor row) off (.acc k) data s = _
  rcases hk with rfl | rfl <;> simp [execRemoteAccessHome, hloaded, hswap, hrow, hwrite]

theorem exec_home_row_read {bs : List Byte} (hread : s.rowRead p tensor ps = some (bs, s1)) :
    exec (.remoteAccessHome pkg (.row p tensor row) off (.acc .read) data) s = .next s1 := by
  change execRemoteAccessHome pkg (.row p tensor row) off (.acc .read) data s = _
  simp [execRemoteAccessHome, hloaded, hswap, hrow, hread]

end

/-! ### Uncorrectable errors (R159, R322, R339) -/

/-- The state with the block of 256 bytes that holds an address poisoned, and counted for its stack where it was not. -/
def State.poisonBlock (s : State) (pa : Nat) : State :=
  if s.mem.poison.contains (pa / 256) then s
  else ({ s with mem := { s.mem with poison := s.mem.poison ++ [pa / 256] } }).bumpPkg (0x029 * 256 + pa / 2 ^ 36 % 8) 1

section
variable (s : State) (pa : Nat)

@[simp] theorem State.poisonBlock_parts : (s.poisonBlock pa).parts = s.parts := by
  rw [State.poisonBlock]; split <;> rfl

@[simp] theorem State.poisonBlock_hbm : (s.poisonBlock pa).mem.hbm = s.mem.hbm := by
  rw [State.poisonBlock]; split <;> rfl

theorem State.poisonBlock_poison : (s.poisonBlock pa).mem.poison =
    if pa / 256 ∈ s.mem.poison then s.mem.poison else s.mem.poison ++ [pa / 256] := by
  by_cases h : pa / 256 ∈ s.mem.poison <;> simp [State.poisonBlock, h]

theorem State.poisonBlock_count : SMap.get 0 (s.poisonBlock pa).cnt (0x029 * 256 + pa / 2 ^ 36 % 8) =
    SMap.get 0 s.cnt (0x029 * 256 + pa / 2 ^ 36 % 8) + if pa / 256 ∈ s.mem.poison then 0 else 1 := by
  by_cases h : pa / 256 ∈ s.mem.poison <;> simp [State.poisonBlock, State.bumpPkg, h]

end

/-- An error that fences the partition whose tables hold the block, if one's do. -/
theorem exec_hbmError (s : State) {pa : Nat} (hpa : pa < 2 ^ 39) : exec (.hbmUncorrectableError pa none) s = .next
    ((s.parts.find? fun e => e.2.loaded && inTable e.2.cfg (pa / 65536)).elim (s.poisonBlock pa)
      fun e => (s.poisonBlock pa).fencePart e.1) := by
  rw [← s.poisonBlock_parts pa]
  refine (if_neg (Nat.not_le.mpr hpa)).trans ?_
  change (match (s.poisonBlock pa).parts.find? fun e => e.2.loaded && inTable e.2.cfg (pa / 65536) with
    | none => (.next (s.poisonBlock pa) : Out)
    | some e => .next ((s.poisonBlock pa).fencePart e.1)) = _
  cases (s.poisonBlock pa).parts.find? fun e => e.2.loaded && inTable e.2.cfg (pa / 65536) <;> rfl

/-! ### Refresh windows (R161) -/

theorem inWindow_iff (t : Word) (grp : Nat) :
    inWindow t grp = true ↔ 2000 * grp ≤ t.toNat % 32000 ∧ t.toNat % 32000 < 2000 * grp + 256 := by
  simp [inWindow]

section
variable {s : State} {grp : Nat}

theorem exec_refreshWindowOpen (hgrp : grp < 16) (hwin : inWindow s.tbase grp = true) : exec (.refreshWindowOpen grp) s
    = .next { s with mem := { s.mem with refresh := s.mem.refresh ||| (1#16 <<< grp) } } :=
  if_pos (by simp [hgrp, hwin])

theorem exec_refreshWindowClose (hgrp : grp < 16) (hwin : inWindow s.tbase grp = false) : exec (.refreshWindowClose grp) s
    = .next { s with mem := { s.mem with refresh := s.mem.refresh &&& ~~~(1#16 <<< grp) } } :=
  if_pos (by simp [hgrp, hwin])

theorem getLsbD_one_shiftLeft {j : Nat} (hgrp : grp < 16) : (1#16 <<< grp).getLsbD j = decide (j = grp) := by
  rw [← BitVec.twoPow_eq, BitVec.getLsbD_twoPow]
  obtain rfl | h := Decidable.em (j = grp)
  · simp [hgrp]
  · simp [h, Ne.symm h]

end

/-- A number added up from the powers of two that meet a test has the bits that meet it. -/
theorem testBit_foldl_two_pow (p : Nat → Bool) (n j : Nat) :
    ((List.range n).foldl (fun m g => if p g then m + 2 ^ g else m) 0).testBit j = (decide (j < n) && p j) := by
  induction n generalizing j with
  | zero => simp
  | succ n ih =>
    rw [List.range_succ, List.foldl_append, List.foldl_cons, List.foldl_nil]
    generalize (List.range n).foldl (fun m g => if p g then m + 2 ^ g else m) 0 = m at ih ⊢
    have hlt : m < 2 ^ n := Nat.lt_pow_two_of_testBit m fun i hi => by simp [ih, Nat.not_lt.mpr hi]
    have hor : m + 2 ^ n = m ||| 2 ^ n := by
      rw [Nat.add_comm, Nat.or_comm]
      simpa using Nat.two_pow_add_eq_or_of_lt hlt 1
    rw [apply_ite (Nat.testBit · j), hor, Nat.testBit_or, Nat.testBit_two_pow, ih]
    obtain rfl | hne := Decidable.em (n = j)
    · cases hp : p n <;> simp
    · have hiff : j < n + 1 ↔ j < n := by omega
      simp [hne, hiff]

theorem getLsbD_refreshAt (t : Word) {grp : Nat} (hgrp : grp < 16) : (refreshAt t).getLsbD grp = inWindow t grp := by
  rw [refreshAt, BitVec.getLsbD_ofNat, testBit_foldl_two_pow (inWindow t)]
  simp [hgrp]

theorem elapse_refresh (s : State) {ns ticks : Nat} (h : ns + ticks ≠ 0) :
    (s.elapse ns ticks).mem.refresh = refreshAt (s.elapse ns ticks).tbase := by
  have hpass : ¬ (ns == 0 && ticks == 0) = true := by simp; omega
  rw [State.elapse, if_neg hpass]

/-- Settles O57: each access at home from what its kind does there, the error from the block it poisons, and the refresh
windows bit by bit. -/
theorem homeMemory : Obligations.HomeMemory := by
  constructor
  case left =>
    intro s s1 pkg frame off pa p tensor row data bs e b ps a0 before stored table poisoned held at_ own run key
    have hheld : s.homeHeld frame = true ↔ held := homeHeld_iff s frame
    have hhome : ChangesHome s (s.settleStore a0 data) := changesHome_settleStore ..
    have hstored : stored (s.settleStore a0 data) := ⟨fun a => memRead_settleStore .., hhome.cells_eq, hhome.parts_eq⟩
    have hpoisoned : poisoned (s.poisonBlock pa) :=
      ⟨s.poisonBlock_poison pa, s.poisonBlock_hbm pa, s.poisonBlock_count pa⟩
    have herror : pa < 2 ^ 39 → exec (.hbmUncorrectableError pa none) s
        = .next (table.elim (s.poisonBlock pa) fun e => (s.poisonBlock pa).fencePart e.1) := exec_hbmError s
    refine ⟨fun hexp hin hnot => ?exported, fun kind h => ⟨s, exec_home_refused kind (h.imp_right hheld.mpr), rfl⟩,
      fun hloaded hswap hrow => ⟨fun hwrite => ?rowStored,
        fun hread => ⟨_, exec_home_row_read hloaded hswap hrow hread, rfl⟩⟩,
      fun kind h => ⟨s, exec_home_row_refused kind h, rfl⟩, fun hpa htable => ?outsideTables, fun hpa htable => ?inTable⟩
    case exported =>
      have hfree : ¬ s.homeHeld frame = true := mt hheld.mp hnot
      have block := exec_home_block hexp hin hfree b
      refine ⟨⟨_, exec_home_stores hexp hin hfree (.inl rfl), hstored⟩,
        ⟨_, exec_home_stores hexp hin hfree (.inr rfl), hstored⟩, ⟨_, block, hstored⟩,
        ⟨_, exec_home_reads hexp hin hfree (.inl rfl), rfl⟩, ⟨_, exec_home_reads hexp hin hfree (.inr rfl), rfl⟩,
        fun hfirst hresume hlast => ⟨_, block, ?_⟩, fun v hfirst hresume hlast hrun => ⟨_, block, ?_⟩,
        fun v x hresume hlast => ⟨_, block, ?_⟩⟩
      · rw [← hhome.acks_eq]
        exact homeAck_first hfirst hresume hlast
      · rw [← hhome.acks_eq]
        exact homeAck_further hfirst hresume hlast (hhome.homeRuns_eq.symm ▸ hrun)
      · rw [← hhome.acks_eq]
        exact homeAck_last hresume hlast
    case rowStored =>
      exact ⟨⟨_, exec_home_row_stores hloaded hswap hrow (.inl rfl) hwrite, rfl⟩,
        _, exec_home_row_stores hloaded hswap hrow (.inr rfl) hwrite, rfl⟩
    case outsideTables =>
      rw [htable] at herror
      exact ⟨_, herror hpa, hpoisoned, s.poisonBlock_parts pa⟩
    case inTable =>
      rw [htable] at herror
      exact ⟨_, herror hpa, _, hpoisoned, s.poisonBlock_parts pa, rfl⟩
  case right =>
    intro s grp hgrp
    refine ⟨fun hlo hhi => ⟨_, exec_refreshWindowOpen hgrp ((inWindow_iff ..).mpr ⟨hlo, hhi⟩), ?_, fun j hj => ?_, rfl⟩,
      fun hout => ⟨_, exec_refreshWindowClose hgrp ?_, ?_, fun j hj => ?_, rfl⟩, fun ns ticks h => ?_⟩
    · simp [getLsbD_one_shiftLeft hgrp]
    · simp [getLsbD_one_shiftLeft hgrp, hj]
    · rw [Bool.eq_false_iff, ne_eq, inWindow_iff]
      omega
    · simp [getLsbD_one_shiftLeft hgrp]
    · simpa [getLsbD_one_shiftLeft hgrp, hj] using BitVec.lt_of_getLsbD
    · intro u
      rw [elapse_refresh s h, getLsbD_refreshAt _ hgrp, inWindow_iff]

end Sys2Proof.Machine
end

section
/-! Bindings of shadow windows (R165, R175, R187, R188): the checks of WBIND and WFREE, what they add to the partition's
bindings, and the binding that a task's gathers use. -/

namespace Sys2Proof.Machine

theorem partOf_of_graphAt {s : State} {c p : Nat} {g : Graph} (h : s.graphAt c = some (p, g)) : s.partOf c = some p := by
  unfold State.graphAt at h
  split at h
  next => cases h
  next q hq =>
    obtain ⟨_, _, hpair⟩ := Option.map_eq_some_iff.mp h
    rw [hq, (Prod.mk.inj hpair).left]

/-! ### The checks on the shadow flags (R187, R188, R261) -/

/-- The bay's cache holds the tensor's descriptor, with the shadow flag as given. -/
def State.FlagIs (s : State) (va : Word) (f : Bool) : Prop :=
  vaTensor va < 0xFFFE ∧ ∃ d, s.cachedDesc (bayOf s.focus.cell) (vaTensor va) = some d ∧ d.shadow = f

/-- The tensor is a window of the cell, or its descriptor in the bay's cache has the other shadow flag. -/
def State.FlagWrong (s : State) (va : Word) (f : Bool) : Prop := 0xFFFE ≤ vaTensor va ∨ s.FlagIs va (!f)

/-- The bay's cache lacks the tensor's descriptor. -/
def State.FlagUnknown (s : State) (va : Word) : Prop :=
  vaTensor va < 0xFFFE ∧ s.cachedDesc (bayOf s.focus.cell) (vaTensor va) = none

/-- The focused sequencer held at an address, and a walk for it in its bay's queue; `desc` for a descriptor alone. -/
def State.heldWalk (s : State) (va : Word) (desc : Bool) : State :=
  (s.setSeq { s.seq with wait := { hold := some { va := va, kind := .read }, stall := 1 } }).addWalk
    (s.seqWho s.focus.cell) va .read none desc

section
variable {s : State} {i : Instr} {f : Bool} {va : Word} {cont : Out}

theorem flagged_of_flagIs (h : s.FlagIs va f) : s.flagged i f va cont = cont := by
  obtain ⟨htensor, d, hd, rfl⟩ := h
  simp [State.flagged, Nat.not_le.mpr htensor, hd]

theorem flagged_of_flagWrong (h : s.FlagWrong va f) : s.flagged i f va cont = s.trapSelf 0x05 va (wordOf i) := by
  rcases h with hlocal | ⟨htensor, d, hd, hf⟩
  · exact if_pos hlocal
  · simp [State.flagged, Nat.not_le.mpr htensor, hd, hf]

theorem flagged_of_flagUnknown (h : s.FlagUnknown va) : s.flagged i f va cont = .next (s.heldWalk va true) := by
  obtain ⟨htensor, hd⟩ := h
  simp only [State.flagged, ge_iff_le, Nat.not_le.mpr htensor, if_false, hd]
  rfl

theorem gives_heldWalk {desc : Bool} (hexec : exec i s = .next (s.heldWalk va desc)) : Gives i s fun t =>
    t.seq.pc = s.seq.pc ∧ t.mem = s.mem ∧ t.seq.wait = { hold := some { va := va, kind := .read }, stall := 1 }
    ∧ ∃ w, (t.bay (bayOf s.focus.cell)).walks = (s.bay (bayOf s.focus.cell)).walks ++ [w]
      ∧ w.va = va ∧ w.cell = s.focus.cell ∧ w.port = 0x80 ∧ w.desc = desc := by
  let q : Seq := { s.seq with wait := { hold := some { va := va, kind := .read }, stall := 1 } }
  have hseq : (s.heldWalk va desc).seq = q := s.seq_setSeq q
  exact ⟨_, hexec, by rw [hseq], rfl, by rw [hseq], _,
    congrArg Bay.walks ((s.setSeq q).bay_modBay (bayOf s.focus.cell) _), rfl, rfl, rfl, rfl⟩

theorem stay_waits {k : BitVec 2} (hexec : exec i s = s.stay k) : Gives i s (Waits s) := by
  refine (gives_setSeq hexec).imp fun t ⟨hseq, honly⟩ => ⟨?_, honly⟩
  rw [hseq]

end

/-! ### The format of the index vector's chunk (R187, R264, log 98) -/

section
variable {s : State} {p : Nat} {ix : Word}

theorem indexFmt_of_cached {e : ChunkTr} {f : Bool} (hc : s.cachedEntry s.focus.cell (s.taskFor (s.seqWho s.focus.cell))
    (vaTensor ix) (vaOff ix / 65536) = some (e, f)) :
    s.indexFmt p ix = some (decide (e.shadow = false ∧ (ceFmt e.entry = 0 ∨ ceFmt e.entry = 3))) := by
  simp only [State.indexFmt, hc]
  rw [Option.some_inj, Bool.eq_iff_iff, decide_eq_true_iff, Bool.and_eq_true, Bool.not_eq_true', Bool.or_eq_true, beq_iff_eq,
    beq_iff_eq]

variable (hc : s.cachedEntry s.focus.cell (s.taskFor (s.seqWho s.focus.cell)) (vaTensor ix) (vaOff ix / 65536) = none)
include hc

theorem indexFmt_of_own_row {t : Task} (ht : s.taskFor (s.seqWho s.focus.cell) = some t)
    (hown : ∀ h, t.shardAt (vaTensor ix) (vaOff ix) = some h → h.owner = s.hf.pkg.toNat) : s.indexFmt p ix = none := by
  rw [ht] at hc
  simp only [State.indexFmt, ht, hc]
  cases hshard : t.shardAt (vaTensor ix) (vaOff ix) with
  | none => rfl
  | some h => simp [hown h hshard]

theorem indexFmt_of_row_elsewhere {t : Task} {h : ShardEnt} (ht : s.taskFor (s.seqWho s.focus.cell) = some t)
    (hshard : t.shardAt (vaTensor ix) (vaOff ix) = some h) (hne : h.owner ≠ s.hf.pkg.toNat) :
    s.indexFmt p ix = some false := by
  rw [ht] at hc
  simp [State.indexFmt, ht, hc, hshard, hne]

theorem indexFmt_of_no_task (ht : s.taskFor (s.seqWho s.focus.cell) = none)
    (hchunk : ∀ r, s.walkRead p (bayOf s.focus.cell) (vaTensor ix) (vaOff ix) none false = .ok r → r.chunk ≠ none) :
    s.indexFmt p ix = none := by
  rw [ht] at hc
  simp only [State.indexFmt, ht, hc]
  split
  next d sh hr => exact absurd rfl (hchunk _ hr)
  next => rfl

end

/-! ### Bindings added (R187, R188, R322) -/

/-- The WBIND or WFREE that the focused cell issues in a graph for the task of its open span. -/
def State.winVer (s : State) (g : Graph) (b : Option WinBind) : WinVer :=
  let k := s.taskFor (s.seqWho s.focus.cell)
  { bind := b, cell := s.focus.cell, lid := g.lid, x := k.elim 0 (·.x), y := k.elim 0 (·.y) }

/-- A partition with a binding or the end of one added to a window. -/
def Part.addVer (q : Part) (tensor : Nat) (v : WinVer) : Part :=
  { q with windows := SMap.set q.windows tensor (SMap.get [] q.windows tensor ++ [v]) }

theorem bindWindow_eq {s : State} {p : Nat} {g : Graph} (hg : s.graphAt s.focus.cell = some (p, g)) (r tensor : Nat)
    (b : Option WinBind) :
    s.bindWindow r s.focus.cell tensor b = s.modPart r fun q => q.addVer tensor (s.winVer g b) := by
  simp only [State.bindWindow, hg, Option.elim_some]
  rfl

/-- A state that differs in one partition alone, its focused sequencer going on. -/
theorem goesPart_setSeq {s : State} {ps : SMap Part} {p : Nat} {f : Part → Part} (hp : SMap.get {} ps p = f (s.part p))
    (hothers : ∀ q, q ≠ p → SMap.get {} ps q = s.part q) :
    GoesPart s (({ s with parts := ps } : State).setSeq s.seq.stepPc) p f := by
  let u : State := { s with parts := ps }
  have hseq : (u.setSeq s.seq.stepPc).seq = s.seq.stepPc := u.seq_setSeq _
  refine ⟨hp, hothers, hseq, ?_, fun c hc => u.cell_setSeq_ne _ (Ne.symm hc), rfl⟩
  rw [hseq]
  exact u.cell_setSeq _

theorem goesPart_modPart (s : State) (p : Nat) (f : Part → Part) :
    GoesPart s ((s.modPart p f).setSeq s.seq.stepPc) p f :=
  goesPart_setSeq (s.part_modPart p f) fun _ hq => s.part_modPart_ne f (Ne.symm hq)

theorem goesPart_modPart_modPart (s : State) (p : Nat) (f h : Part → Part) :
    GoesPart s (((s.modPart p f).modPart p h).setSeq s.seq.stepPc) p fun q => h (f q) := by
  refine goesPart_setSeq ?_ fun q hq => ?_
  · exact ((s.modPart p f).part_modPart p h).trans (congrArg h (s.part_modPart p f))
  · exact ((s.modPart p f).part_modPart_ne h (Ne.symm hq)).trans (s.part_modPart_ne f (Ne.symm hq))

/-! ### WBIND and WFREE -/

theorem full_iff (e : CopyEng) : e.full = true ↔ 16 ≤ e.queue.length + (if e.cur.isSome then 1 else 0) := by
  simp [CopyEng.full]

/-- WBIND once the flags are checked: the index vector's format, room in the queue, and the binding. -/
def State.wbindFlagged (s : State) (i : Instr) (m p : Nat) (win back ix : Word) (row : BitVec 10) : Out :=
  match s.indexFmt p ix with
  | none => .next (s.heldWalk ix false)
  | some false => s.trapSelf 0x05 ix (wordOf i)
  | some true =>
    if (s.eng m).full then s.stay 3
    else ((s.bindWindow p s.focus.cell (vaTensor win)
      (some { backing := back, index := ix, row := 8 * (row.toNat + 1) })).modPart p fun x =>
        { x with tails := SMap.set x.tails (vaTensor win) 0 }).done s.seq

section
variable {s : State} {i : Instr} {m p : Nat} {win back ix : Word} {row : BitVec 10}

theorem wbindFlagged_of_format_unknown (hfmt : s.indexFmt p ix = none) :
    s.wbindFlagged i m p win back ix row = .next (s.heldWalk ix false) := by
  simp only [State.wbindFlagged, hfmt]

theorem wbindFlagged_of_bad_format (hfmt : s.indexFmt p ix = some false) :
    s.wbindFlagged i m p win back ix row = s.trapSelf 0x05 ix (wordOf i) := by
  simp only [State.wbindFlagged, hfmt]

theorem wbindFlagged_of_good_format (hfmt : s.indexFmt p ix = some true) : s.wbindFlagged i m p win back ix row =
    if (s.eng m).full then s.stay 3
    else ((s.bindWindow p s.focus.cell (vaTensor win)
      (some { backing := back, index := ix, row := 8 * (row.toNat + 1) })).modPart p fun x =>
        { x with tails := SMap.set x.tails (vaTensor win) 0 }).done s.seq := by
  simp only [State.wbindFlagged, hfmt]

end

section
variable {s : State} {a b c : BitVec 5} {row : BitVec 10} {m p : Nat} {g : Graph}
  (hm : s.servingCell s.focus.cell = some m) (hg : s.graphAt s.focus.cell = some (p, g))
include hm hg

theorem exec_wfree : exec (.wfree a) s = s.flagged (.wfree a) true (s.seq.getG a)
    (if (s.eng m).full then s.stay 3 else (s.bindWindow p s.focus.cell (vaTensor (s.seq.getG a)) none).done s.seq) := by
  change execWfree a s = _
  simp only [execWfree, hm, partOf_of_graphAt hg]

theorem exec_wbind_offset (hoff : vaOff (s.seq.getG a) ≠ 0) : exec (.wbind a b c row) s = s.illop (.wbind a b c row) := by
  change execWbind a b c row s = _
  simp [execWbind, hm, partOf_of_graphAt hg, hoff]

theorem exec_wbind (hoff : vaOff (s.seq.getG a) = 0) : exec (.wbind a b c row) s =
    (s.flagged (.wbind a b c row) true (s.seq.getG a) <| s.flagged (.wbind a b c row) false (s.seq.getG b) <|
      s.flagged (.wbind a b c row) false (s.seq.getG c) <|
        s.wbindFlagged (.wbind a b c row) m p (s.seq.getG a) (s.seq.getG b) (s.seq.getG c) row) := by
  change execWbind a b c row s = _
  simp only [execWbind, hm, partOf_of_graphAt hg, hoff, State.wbindFlagged, bne_self_eq_false, Bool.false_eq_true, if_false]
  congr 3
  rcases s.indexFmt p (s.seq.getG c) with _ | _ | _ <;> rfl

variable (hoff : vaOff (s.seq.getG a) = 0) (hwin : s.FlagIs (s.seq.getG a) true)
include hoff hwin

theorem exec_wbind_of_window : exec (.wbind a b c row) s = (s.flagged (.wbind a b c row) false (s.seq.getG b) <|
    s.flagged (.wbind a b c row) false (s.seq.getG c) <|
      s.wbindFlagged (.wbind a b c row) m p (s.seq.getG a) (s.seq.getG b) (s.seq.getG c) row) :=
  (exec_wbind hm hg hoff).trans (flagged_of_flagIs hwin)

variable (hback : s.FlagIs (s.seq.getG b) false)
include hback

theorem exec_wbind_of_backing : exec (.wbind a b c row) s = (s.flagged (.wbind a b c row) false (s.seq.getG c) <|
    s.wbindFlagged (.wbind a b c row) m p (s.seq.getG a) (s.seq.getG b) (s.seq.getG c) row) :=
  (exec_wbind_of_window hm hg hoff hwin).trans (flagged_of_flagIs hback)

theorem exec_wbind_of_flags (hix : s.FlagIs (s.seq.getG c) false) : exec (.wbind a b c row) s =
    s.wbindFlagged (.wbind a b c row) m p (s.seq.getG a) (s.seq.getG b) (s.seq.getG c) row :=
  (exec_wbind_of_backing hm hg hoff hwin hback).trans (flagged_of_flagIs hix)

end

/-! ### The binding that a gather uses (R187, R188) -/

theorem sees_iff (s : State) (c : Nat) (t : Task) (v : WinVer) : s.sees c t v = true ↔
    (∃ e, v.edge = some e ∧ e < t.born) ∨ ∃ q ∈ v.seen, s.inScope q.2 q.1 c = true := by
  cases hedge : v.edge <;> simp [State.sees, hedge]

theorem sees_eq_false_iff (s : State) (c : Nat) (t : Task) (v : WinVer) : s.sees c t v = false ↔
    (∀ e, v.edge = some e → t.born ≤ e) ∧ ∀ q ∈ v.seen, s.inScope q.2 q.1 c = false := by
  cases hedge : v.edge <;> simp [State.sees, hedge]

/-- The newest binding seen, whatever follows it unseen. -/
theorem bindingOf_eq {s : State} {p c tensor : Nat} {t : Task} {vs ws : List WinVer} {v : WinVer}
    (hvers : SMap.get [] (s.part p).windows tensor = vs ++ v :: ws) (hsees : s.sees c t v = true)
    (hnone : ∀ w ∈ ws, s.sees c t w = false) : s.bindingOf p c t tensor = v.bind := by
  have hws : ws.filter (s.sees c t) = [] := List.filter_eq_nil_iff.mpr fun w hw => by simp [hnone w hw]
  rw [State.bindingOf, hvers, List.filter_append, List.filter_cons_of_pos hsees, hws, List.getLast?_append]
  rfl

/-- Settles O28: WBIND by the first of its checks that does not pass, WFREE by its one, and a task's gathers by the newest
binding seen. -/
theorem windowBindings : Obligations.WindowBindings := by
  constructor
  case left =>
    intro s a b c row m p g x win back ix bind free desc flag wrong lacks k ver adds held walks traps cached good
      shard flags hm hg
    have hflagged : flags → exec bind s = s.wbindFlagged bind m p win back ix row := fun ⟨hoff, hwin, hback, hix⟩ =>
      exec_wbind_of_flags hm hg hoff hwin hback hix
    have hroom : held < 16 → ¬ (s.eng m).full = true := fun hlt => mt (full_iff _).mp (Nat.not_le.mpr hlt)
    refine ⟨fun e f hflags hc he => ?bound, fun hwin => ?freed, ⟨?walkFree, ?walkWindow, ?walkBacking, ?walkIndex,
      ?walkOwnRow, ?walkNoTask⟩, ?trapWindow, ?trapOffset, ?trapBacking, ?trapIndex, ?trapFormat, ?trapRow⟩
    case bound =>
      have hfmt : s.indexFmt p ix = some true := (indexFmt_of_cached hc).trans (congrArg some (decide_eq_true he))
      have hexec := (hflagged hflags).trans (wbindFlagged_of_good_format hfmt)
      refine ⟨fun hlt => ⟨_, hexec.trans (if_neg (hroom hlt)), ?_⟩, fun hfull =>
        stay_waits (hexec.trans (if_pos ((full_iff _).mpr hfull)))⟩
      rw [bindWindow_eq hg]
      exact goesPart_modPart_modPart s p _ _
    case freed =>
      have hexec := (exec_wfree hm hg).trans (flagged_of_flagIs hwin)
      refine ⟨fun hlt => ⟨_, hexec.trans (if_neg (hroom hlt)), ?_⟩, fun hfull =>
        stay_waits (hexec.trans (if_pos ((full_iff _).mpr hfull)))⟩
      rw [bindWindow_eq hg]
      exact goesPart_modPart s p _
    case walkFree => exact fun h => gives_heldWalk ((exec_wfree hm hg).trans (flagged_of_flagUnknown h))
    case walkWindow => exact fun hoff h => gives_heldWalk ((exec_wbind hm hg hoff).trans (flagged_of_flagUnknown h))
    case walkBacking =>
      exact fun hoff hwin h => gives_heldWalk
        ((exec_wbind_of_window hm hg hoff hwin).trans (flagged_of_flagUnknown h))
    case walkIndex =>
      exact fun hoff hwin hback h => gives_heldWalk
        ((exec_wbind_of_backing hm hg hoff hwin hback).trans (flagged_of_flagUnknown h))
    case walkOwnRow =>
      intro hflags hc hk hown
      obtain ⟨t, ht⟩ := Option.ne_none_iff_exists'.mp hk
      exact gives_heldWalk ((hflagged hflags).trans (wbindFlagged_of_format_unknown
        (indexFmt_of_own_row hc ht fun h hshard => hown h ⟨t, ht, hshard⟩)))
    case walkNoTask =>
      exact fun hflags hc hk hchunk => gives_heldWalk ((hflagged hflags).trans (wbindFlagged_of_format_unknown
        (indexFmt_of_no_task hc hk hchunk)))
    case trapWindow =>
      exact fun hwrong => ⟨gives_trapsTo_trapSelf ((exec_wfree hm hg).trans (flagged_of_flagWrong hwrong)),
        fun hoff => gives_trapsTo_trapSelf ((exec_wbind hm hg hoff).trans (flagged_of_flagWrong hwrong))⟩
    case trapOffset => exact fun hoff => gives_trapsTo_illop (exec_wbind_offset hm hg hoff)
    case trapBacking =>
      exact fun hoff hwin hwrong => gives_trapsTo_trapSelf
        ((exec_wbind_of_window hm hg hoff hwin).trans (flagged_of_flagWrong hwrong))
    case trapIndex =>
      exact fun hoff hwin hback hwrong => gives_trapsTo_trapSelf
        ((exec_wbind_of_backing hm hg hoff hwin hback).trans (flagged_of_flagWrong hwrong))
    case trapFormat =>
      exact fun e f hflags hc hbad => gives_trapsTo_trapSelf ((hflagged hflags).trans (wbindFlagged_of_bad_format
        ((indexFmt_of_cached hc).trans (congrArg some (decide_eq_false hbad)))))
    case trapRow =>
      intro h hflags hc ⟨t, ht, hshard⟩ hne
      exact gives_trapsTo_trapSelf ((hflagged hflags).trans (wbindFlagged_of_bad_format
        (indexFmt_of_row_elsewhere hc ht hshard hne)))
  case right =>
    intro s p c tensor t vs ws v hvers hsees hnone
    exact bindingOf_eq hvers ((sees_iff ..).mpr hsees) fun w hw => (sees_eq_false_iff ..).mpr (hnone w hw)

end Sys2Proof.Machine
end

section
/-! Words that the spec writes out beside their assembly (R62-R74). -/

namespace Sys2Proof

/-- Settles O2: decoding computes on a closed word. -/
theorem knownWords : Obligations.KnownWords := by
  unfold Obligations.KnownWords
  decide

end Sys2Proof
end

section
/-! FENCE and BAR (R201, R327, R408): what a release and an acquire leave alone, and what a BAR does by its count of
arrivals. -/

namespace Sys2Proof.Machine

/-! ### Lines that a fence moves (R201, R408) -/

/-- Of the whole state only the lines in a cell's data cache, the die caches, HBM and the count of free choices may differ. -/
structure MovesLines (c : Nat) (s t : State) : Prop where
  cell   : t.cell c = { s.cell c with dc := (t.cell c).dc }
  others : ∀ x, x ≠ c → t.cell x = s.cell x
  rest   : ∃ cells ctr hbm die,
    t = { s with cells := cells, freeCtr := ctr, mem := { s.mem with hbm := hbm, die := die } }

theorem MovesLines.refl (c : Nat) (s : State) : MovesLines c s s := ⟨rfl, fun _ _ => rfl, _, _, _, _, rfl⟩

theorem MovesLines.trans {c : Nat} {s t u : State} (hst : MovesLines c s t) (htu : MovesLines c t u) : MovesLines c s u where
  cell := by rw [htu.cell, hst.cell]
  others x hx := (htu.others x hx).trans (hst.others x hx)
  rest := by
    obtain ⟨_, _, _, _, rfl⟩ := hst.rest
    obtain ⟨_, _, _, _, rfl⟩ := htu.rest
    exact ⟨_, _, _, _, rfl⟩

theorem movesLines_foldl {α : Type} {c : Nat} {f : State → α → State} (hf : ∀ s x, MovesLines c s (f s x)) (l : List α)
    (s : State) : MovesLines c s (l.foldl f s) := by
  induction l generalizing s with
  | nil => exact .refl c s
  | cons x l ih => exact (hf s x).trans (ih _)

section
variable (s : State) (c d ln : Nat) (wide : Bool)

theorem movesLines_home (ctr : Nat) (hbm : Mem) (die : SMap (SMap Line)) :
    MovesLines c s { s with freeCtr := ctr, mem := { s.mem with hbm := hbm, die := die } } :=
  ⟨rfl, fun _ _ => rfl, _, _, _, _, rfl⟩

theorem movesLines_modCell (f : SMap Line → SMap Line) : MovesLines c s (s.modCell c fun x => { x with dc := f x.dc }) where
  cell := by rw [State.cell_modCell]
  others x hx := State.cell_modCell_ne s _ hx.symm
  rest := ⟨_, _, _, _, rfl⟩

theorem movesLines_dieDrop : MovesLines c s (s.dieDrop d ln) := by
  rw [State.dieDrop]
  split
  next => exact .refl c s
  next => exact movesLines_home s c ..

theorem movesLines_dieFill : MovesLines c s (s.dieFill d ln) := by
  rw [State.dieFill]
  split
  next => exact .refl c s
  next =>
    split
    next => exact movesLines_home s c ..
    next =>
      exact ((movesLines_home s c (s.freeCtr + 1) s.mem.hbm s.mem.die).trans (movesLines_dieDrop _ c d _)).trans
        (movesLines_home _ c ..)

theorem movesLines_lineToDie (l : Line) : MovesLines c s (s.lineToDie c ln l) := by
  rw [State.lineToDie]
  split
  next => exact .refl c s
  next => exact (movesLines_dieFill s c _ ln).trans (movesLines_home _ c ..)

theorem movesLines_dieRelease : MovesLines c s (s.dieRelease wide d ln) := by
  rw [State.dieRelease]
  split
  next => exact .refl c s
  next => exact movesLines_home s c ..

theorem movesLines_dieRefresh : MovesLines c s (s.dieRefresh wide d ln) := by
  refine (movesLines_dieRelease s c d ln wide).trans ?_
  rw [State.dieRefresh]
  split
  next => exact .refl c _
  next => exact movesLines_home _ c ..

theorem movesLines_cellRelease : MovesLines c s (s.cellRelease wide c ln) := by
  rw [State.cellRelease]
  split
  next => exact .refl c s
  next => exact (movesLines_lineToDie s c ln _).trans (movesLines_modCell _ c fun dc => SMap.set dc ln _)

theorem movesLines_cellRenew : MovesLines c s (s.cellRenew c ln) := by
  rw [State.cellRenew]
  split
  next => exact .refl c s
  next =>
    split
    next => exact movesLines_modCell s c fun dc => smErase dc ln
    next => exact (movesLines_dieFill s c _ ln).trans (movesLines_modCell _ c fun dc => SMap.set dc ln _)

theorem movesLines_cellRefresh : MovesLines c s (s.cellRefresh wide c ln) :=
  (movesLines_cellRelease s c ln wide).trans (movesLines_cellRenew _ c ln)

theorem movesLines_cellOut : MovesLines c s (s.cellOut wide c) :=
  movesLines_foldl (fun s ln => movesLines_cellRelease s c ln wide) _ s

theorem movesLines_dieOut : MovesLines c s (s.dieOut wide d) :=
  movesLines_foldl (fun s ln => movesLines_dieRelease s c d ln wide) _ s

theorem movesLines_cellIn : MovesLines c s (s.cellIn wide c) :=
  movesLines_foldl (fun s ln => movesLines_cellRefresh s c ln wide) _ s

theorem movesLines_dieIn : MovesLines c s (s.dieIn wide d) :=
  movesLines_foldl (fun s ln => movesLines_dieRefresh s c d ln wide) _ s

theorem movesLines_release (scope : BitVec 3) : MovesLines c s (s.release c scope) := by
  have hcell := movesLines_cellOut s c (wideScope scope)
  rw [State.release]
  split
  next => exact .refl c s
  next =>
    split
    next => exact hcell
    next => exact hcell.trans (movesLines_dieOut _ c _ _)

theorem movesLines_acquire (scope : BitVec 3) : MovesLines c s (s.acquire c scope) := by
  have hcell := movesLines_cellOut s c (wideScope scope)
  rw [State.acquire]
  split
  next => exact .refl c s
  next =>
    split
    next => exact hcell.trans (movesLines_cellIn _ c _)
    next => exact (hcell.trans (movesLines_dieIn _ c _ _)).trans (movesLines_cellIn _ c _)

end

section
variable {c : Nat} {s t : State} (h : MovesLines c s t)
include h

theorem MovesLines.focus_eq : t.focus = s.focus := by obtain ⟨_, _, _, _, rfl⟩ := h.rest; rfl
theorem MovesLines.parts_eq : t.parts = s.parts := by obtain ⟨_, _, _, _, rfl⟩ := h.rest; rfl
theorem MovesLines.graph_eq (p lid : Nat) : t.graph p lid = s.graph p lid := by
  rw [State.graph, State.part, h.parts_eq]; rfl
theorem MovesLines.seqAt_eq : t.seqAt c = s.seqAt c := by rw [State.seqAt, h.cell]; rfl

end

/-! ### The subgroup and its entry (R327) -/

theorem toNat_extractLsb'_eq_div_mod (v : Word) (i n : Nat) : (v.extractLsb' i n).toNat = v.toNat / 2 ^ i % 2 ^ n := by
  rw [BitVec.extractLsb'_toNat, Nat.shiftRight_eq_div_pow]

/-- The operand names a rectangle of the graph's that holds the cell: its corner, and the logarithms of its sides. -/
structure NamesSubgroup (g : Graph) (c : Nat) (v : Word) (x0 y0 wl hl : Nat) : Prop where
  fields : v.toNat = x0 + 2 ^ 8 * y0 + 2 ^ 16 * wl + 2 ^ 20 * hl
  widths : x0 < 2 ^ 7 ∧ y0 < 2 ^ 7 ∧ wl < 8 ∧ hl < 8
  within : x0 % 2 ^ wl = 0 ∧ y0 % 2 ^ hl = 0 ∧ x0 + 2 ^ wl ≤ 8 * g.w ∧ y0 + 2 ^ hl ≤ 8 * g.h
  column : x0 ≤ cellX c - 8 * g.ox ∧ cellX c - 8 * g.ox < x0 + 2 ^ wl
  row    : y0 ≤ cellY c - 8 * g.oy ∧ cellY c - 8 * g.oy < y0 + 2 ^ hl

/-- The reserved bits of BAR's operand are those between its fields and above them. -/
theorem reserved_bit_cases : ∀ i < 64, (~~~0x77_7F7F#64).getLsbD i = true → i = 7 ∨ i = 15 ∨ i = 19 ∨ 23 ≤ i := by
  decide

section
variable {g : Graph} {c : Nat} {v : Word} {x0 y0 wl hl : Nat} (h : NamesSubgroup g c v x0 y0 wl hl)
include h

theorem NamesSubgroup.reserved_zero : v &&& ~~~0x77_7F7F#64 = 0#64 := by
  obtain ⟨hx0, hy0, hwl, hhl⟩ := h.widths
  have hv := h.fields
  apply BitVec.eq_of_getLsbD_eq
  intro i hi
  rw [BitVec.getLsbD_and, BitVec.getLsbD_zero, Bool.and_eq_false_iff]
  cases hbit : (~~~0x77_7F7F#64).getLsbD i with
  | false => exact .inr rfl
  | true =>
    refine .inl ?_
    rw [BitVec.getLsbD, Nat.testBit_eq_decide_div_mod_eq, decide_eq_false_iff_not]
    rcases reserved_bit_cases i hi hbit with rfl | rfl | rfl | hhigh
    · omega
    · omega
    · omega
    · have hpow : 2 ^ 23 ≤ 2 ^ i := Nat.pow_le_pow_right (by decide) hhigh
      rw [Nat.div_eq_of_lt (by omega)]
      decide

theorem NamesSubgroup.subgroupOk : subgroupOk g c v = true := by
  obtain ⟨hx0, hy0, hwl, hhl⟩ := h.widths
  obtain ⟨hcol, hrow, hright, hlow⟩ := h.within
  have hv := h.fields
  have ex : (v.extractLsb' 0 7).toNat = x0 := by rw [toNat_extractLsb'_eq_div_mod]; omega
  have ey : (v.extractLsb' 8 7).toNat = y0 := by rw [toNat_extractLsb'_eq_div_mod]; omega
  have ew : (v.extractLsb' 16 3).toNat = wl := by rw [toNat_extractLsb'_eq_div_mod]; omega
  have eh : (v.extractLsb' 20 3).toNat = hl := by rw [toNat_extractLsb'_eq_div_mod]; omega
  rw [Machine.subgroupOk, h.reserved_zero]
  simp [inRect, Graph.rel, ex, ey, ew, eh, hcol, hrow, hright, hlow, h.column, h.row]

end

/-- Entry `j` is a subgroup's own. -/
def Graph.OwnEntry (g : Graph) (v : Word) (j : Nat) : Prop :=
  (SMap.get {} g.barriers j).used = true ∧ (SMap.get {} g.barriers j).grp = v

/-- The test by which a subgroup looks for its own entry. -/
theorem ownEntry_iff {g : Graph} {v : Word} {j : Nat} :
    ((SMap.get {} g.barriers j).used && (SMap.get {} g.barriers j).grp == v) = true ↔ g.OwnEntry v j := by
  rw [Bool.and_eq_true, beq_iff_eq, Graph.OwnEntry]

theorem not_ownEntry_test {g : Graph} {v : Word} {j : Nat} (h : ¬ g.OwnEntry v j) :
    (!((SMap.get {} g.barriers j).used && (SMap.get {} g.barriers j).grp == v)) = true := by
  rw [Bool.not_eq_true', Bool.eq_false_iff]
  exact mt ownEntry_iff.mp h

section
variable {g : Graph} {v : Word} {k : Nat} (hk : k < 16)
include hk

theorem barrierEntry_own (hown : g.OwnEntry v k) (hfirst : ∀ j < k, ¬ g.OwnEntry v j) : g.barrierEntry v = some k := by
  have hfind : ((List.range 16).find? fun j => (SMap.get {} g.barriers j).used && (SMap.get {} g.barriers j).grp == v) =
      some k := List.find?_range_eq_some.mpr ⟨ownEntry_iff.mpr hown, List.mem_range.mpr hk,
        fun j hj => not_ownEntry_test (hfirst j hj)⟩
  simp only [Graph.barrierEntry, hfind]

theorem barrierEntry_free (hnone : ∀ j < 16, ¬ g.OwnEntry v j) (hfree : (SMap.get {} g.barriers k).used = false)
    (hfirst : ∀ j < k, (SMap.get {} g.barriers j).used = true) : g.barrierEntry v = some k := by
  have hown : ((List.range 16).find? fun j => (SMap.get {} g.barriers j).used && (SMap.get {} g.barriers j).grp == v) =
      none := List.find?_range_eq_none.mpr fun j hj => not_ownEntry_test (hnone j hj)
  have hfind : ((List.range 16).find? fun j => !(SMap.get {} g.barriers j).used) = some k :=
    List.find?_range_eq_some.mpr ⟨by rw [hfree]; rfl, List.mem_range.mpr hk, fun j hj => by rw [hfirst j hj]; rfl⟩
  simp only [Graph.barrierEntry, hown, hfind]

end

/-! ### A BAR that arrives (R327) -/

/-- The entry that counts a subgroup's arrivals: entry `k`, begun anew where it is free. -/
def Graph.entryFor (g : Graph) (k : Nat) (grp n : Word) : Barrier :=
  let old := SMap.get {} g.barriers k
  if old.used then old else { grp := grp, n := n.setWidth 16, used := true }

/-- An entry after one more arrival. -/
def Barrier.counted (e : Barrier) : Barrier :=
  if e.arrivals + 1 == e.n then { e with arrivals := 0, gen := e.gen + 1 } else { e with arrivals := e.arrivals + 1 }

/-- A graph with an entry written. -/
def Graph.setBarrier (g : Graph) (k : Nat) (e : Barrier) : Graph := { g with barriers := SMap.set g.barriers k e }

/-- The focused cell's BAR has released and written its entry, and its sequencer notes the generation it waits to change. -/
def State.barArrived (s : State) (scope : BitVec 3) (p lid k : Nat) (gen : BitVec 16) (e : Barrier) : State :=
  ((s.release s.focus.cell scope).modGraph p lid fun g => g.setBarrier k e).setSeq
    { s.seq with barst := { arr := true, entry := BitVec.ofNat 4 k, gen := gen } }

section
variable {s : State} {scope : BitVec 3} {p lid k : Nat} {gen : BitVec 16} {e : Barrier}

theorem barArrived_focus : (s.barArrived scope p lid k gen e).focus = s.focus :=
  (movesLines_release s s.focus.cell scope).focus_eq

theorem barArrived_eq_setSeqAt : s.barArrived scope p lid k gen e =
    ((s.release s.focus.cell scope).modGraph p lid fun g => g.setBarrier k e).setSeqAt s.focus.cell
      { s.seq with barst := { arr := true, entry := BitVec.ofNat 4 k, gen := gen } } := by
  rw [State.barArrived, State.setSeq, State.modGraph_focus, (movesLines_release ..).focus_eq]

theorem barArrived_seqAt : (s.barArrived scope p lid k gen e).seqAt s.focus.cell =
    { s.seq with barst := { arr := true, entry := BitVec.ofNat 4 k, gen := gen } } := by
  rw [barArrived_eq_setSeqAt, State.seqAt_setSeqAt]

theorem barArrived_cell_ne {x : Nat} (hx : x ≠ s.focus.cell) : (s.barArrived scope p lid k gen e).cell x = s.cell x := by
  rw [barArrived_eq_setSeqAt, State.setSeqAt, State.cell_modCell_ne _ _ hx.symm]
  exact (movesLines_release ..).others x hx

theorem barArrived_graph {g : Graph} (hg : s.graph p lid = some g) :
    (s.barArrived scope p lid k gen e).graph p lid = some (g.setBarrier k e) := by
  have hmod := graph_modGraph (s.release s.focus.cell scope) p lid (f := fun g => g.setBarrier k e) fun _ => rfl
  rw [(movesLines_release ..).graph_eq, hg] at hmod
  exact hmod

end

/-! ### What a BAR does (R327) -/

section
variable {s : State} {c : Nat} {scope : BitVec 3}

theorem barDone_focus : (s.barDone c scope).focus = s.focus := (movesLines_acquire s c scope).focus_eq

theorem barDone_graph (p lid : Nat) : (s.barDone c scope).graph p lid = s.graph p lid :=
  (movesLines_acquire s c scope).graph_eq p lid

theorem barDone_eq {q : Seq} (hq : s.seqAt c = q) : s.barDone c scope =
    (s.acquire c scope).setSeqAt c { q with barst := { q.barst with arr := false } }.stepPc := by
  rw [State.barDone, (movesLines_acquire s c scope).seqAt_eq, hq]

theorem barDone_seqAt : (s.barDone c scope).seqAt c =
    ({ s.seqAt c with barst := { (s.seqAt c).barst with arr := false } } : Seq).stepPc := by
  rw [barDone_eq rfl, State.seqAt_setSeqAt]

theorem barDone_cell_ne {x : Nat} (hx : x ≠ c) : (s.barDone c scope).cell x = s.cell x := by
  rw [State.barDone, State.setSeqAt, State.cell_modCell_ne _ _ hx.symm]
  exact (movesLines_acquire s c scope).others x hx

end

/-- The sequencer of a BAR that has arrived and passed: the instruction is over, with the generation kept that it noted. -/
theorem seq_barDone_barArrived (s : State) (scope : BitVec 3) (p lid k : Nat) (gen : BitVec 16) (e : Barrier) :
    ((s.barArrived scope p lid k gen e).barDone s.focus.cell scope).seq =
      ({ s.seq with barst := { arr := false, entry := BitVec.ofNat 4 k, gen := gen } } : Seq).stepPc := by
  rw [State.seq, barDone_focus, barArrived_focus, barDone_seqAt, barArrived_seqAt]

/-- A BAR that has arrived passes where its entry's generation is no longer the one it noted, and waits otherwise. -/
def State.barLook (s : State) (c p lid : Nat) (scope : BitVec 3) (k : Nat) (gen : BitVec 16) : Out :=
  let cur := match s.graph p lid with
    | some g => (SMap.get {} g.barriers k).gen
    | none => gen
  if cur != gen then .next (s.barDone c scope)
  else .next (s.setSeqAt c { s.seqAt c with wait := { bar := some scope } })

section
variable {s : State} {c p lid k : Nat} {g : Graph} {scope : BitVec 3} {gen : BitVec 16} (hg : s.graph p lid = some g)
include hg

theorem barLook_passes (hgen : (SMap.get {} g.barriers k).gen ≠ gen) :
    s.barLook c p lid scope k gen = .next (s.barDone c scope) := by
  simp only [State.barLook, hg]
  exact if_pos (bne_iff_ne.mpr hgen)

theorem barLook_waits (hgen : (SMap.get {} g.barriers k).gen = gen) : s.barLook c p lid scope k gen =
    .next (s.setSeqAt c { s.seqAt c with wait := { bar := some scope } }) := by
  simp only [State.barLook, hg]
  exact if_neg fun hne => bne_iff_ne.mp hne hgen

end

section
variable {s : State} {a b : BitVec 5} {scope : BitVec 3} {p k : Nat} {g : Graph}

theorem exec_bar_of_entry (hat : s.graphAt s.focus.cell = some (p, g))
    (hentry : g.barrierEntry (s.seq.getG a) = some k) : exec (.bar a b scope) s =
      if scope == 7 || (s.seq.getG b).extractLsb' 16 48 != 0 || s.seq.getG b == 0
          || !subgroupOk g s.focus.cell (s.seq.getG a) then s.illop (.bar a b scope)
      else if s.seq.barst.arr then
        s.barLook s.focus.cell p g.lid scope s.seq.barst.entry.toNat s.seq.barst.gen
      else
        let e := g.entryFor k (s.seq.getG a) (s.seq.getG b)
        let t := (s.release s.focus.cell scope).modGraph p g.lid fun g => g.setBarrier k e.counted
        if e.n != (s.seq.getG b).setWidth 16 then
          (s.release s.focus.cell scope).trapSelf 0x01 (s.seq.getG a) (wordOf (.bar a b scope))
        else (t.setSeq { t.seq with barst := { arr := true, entry := BitVec.ofNat 4 k, gen := e.gen } }).barLook
          s.focus.cell p g.lid scope k e.gen := by
  change execBar a b scope s = _
  simp only [execBar, hat, hentry]
  rfl

variable {e : Barrier}
  (hat : s.graphAt s.focus.cell = some (p, g)) (hg : s.graph p g.lid = some g) (hscope : scope ≠ 7)
  (hpos : 1 ≤ (s.seq.getG b).toNat) (hlt : (s.seq.getG b).toNat < 2 ^ 16)
  (hsub : subgroupOk g s.focus.cell (s.seq.getG a) = true) (harr : s.seq.barst.arr = false)
  (hentry : g.barrierEntry (s.seq.getG a) = some k) (he : g.entryFor k (s.seq.getG a) (s.seq.getG b) = e)
  (hn : e.n = (s.seq.getG b).setWidth 16)

include hscope hpos hlt hsub in
theorem bar_checks_pass : ¬ (scope == 7 || (s.seq.getG b).extractLsb' 16 48 != 0 || s.seq.getG b == 0
    || !subgroupOk g s.focus.cell (s.seq.getG a)) = true := by
  have hzero : s.seq.getG b ≠ 0 := fun h => by simp [h] at hpos
  have hhigh : (s.seq.getG b).extractLsb' 16 48 = 0 := BitVec.eq_of_toNat_eq (by
    rw [toNat_extractLsb'_eq_div_mod, Nat.div_eq_of_lt hlt]; rfl)
  simpa [hhigh, hsub] using And.intro hscope hzero

include hat hscope hpos hlt hsub harr hentry he hn

/-- A BAR that passes its checks counts its arrival and then looks whether its entry's generation has changed. -/
theorem exec_bar_arrives : exec (.bar a b scope) s =
    (s.barArrived scope p g.lid k e.gen e.counted).barLook s.focus.cell p g.lid scope k e.gen := by
  have hmoved := movesLines_release s s.focus.cell scope
  have hseq : (s.release s.focus.cell scope).seq = s.seq := by rw [State.seq, hmoved.focus_eq, hmoved.seqAt_eq]; rfl
  have hcount : ¬ (e.n != (s.seq.getG b).setWidth 16) = true := fun hne => bne_iff_ne.mp hne hn
  rw [exec_bar_of_entry hat hentry, if_neg (bar_checks_pass hscope hpos hlt hsub),
    if_neg (ne_true_of_eq_false harr), he, if_neg hcount, State.barArrived, ← hseq]
  rfl

include hg

theorem exec_bar_last (hlast : e.arrivals + 1 = e.n) : exec (.bar a b scope) s = .next
    ((s.barArrived scope p g.lid k e.gen { e with arrivals := 0, gen := e.gen + 1 }).barDone s.focus.cell scope) := by
  have hcounted : e.counted = { e with arrivals := 0, gen := e.gen + 1 } := if_pos (beq_iff_eq.mpr hlast)
  rw [exec_bar_arrives hat hscope hpos hlt hsub harr hentry he hn, hcounted]
  refine barLook_passes (barArrived_graph hg) ?_
  simp [Graph.setBarrier]

theorem exec_bar_waits (hmore : e.arrivals + 1 ≠ e.n) : exec (.bar a b scope) s = .next
    ((s.barArrived scope p g.lid k e.gen { e with arrivals := e.arrivals + 1 }).setSeq { s.seq with
      barst := { arr := true, entry := BitVec.ofNat 4 k, gen := e.gen }, wait := { bar := some scope } }) := by
  have hcounted : e.counted = { e with arrivals := e.arrivals + 1 } := if_neg (mt beq_iff_eq.mp hmore)
  rw [exec_bar_arrives hat hscope hpos hlt hsub harr hentry he hn, hcounted,
    barLook_waits (barArrived_graph hg) (by simp [Graph.setBarrier]),
    barArrived_seqAt, State.setSeq, barArrived_focus]

end

theorem exec_barWake {s : State} {c p : Nat} {g : Graph} {scope : BitVec 3} (hwait : (s.seqAt c).wait.bar = some scope)
    (hat : s.graphAt c = some (p, g)) (hlive : s.cellLive c = true) (hdbg : (s.seqAt c).dbg = false)
    (hgen : (SMap.get {} g.barriers (s.seqAt c).barst.entry.toNat).gen ≠ (s.seqAt c).barst.gen) :
    exec (.barWake c) s = .next (s.barDone c scope) := by
  change execBarWake c s = _
  simp only [execBarWake, hwait, hat]
  exact if_pos (by simpa [hlive, hdbg] using hgen)

/-- Settles O20: the BAR that completes its subgroup passes, another waits, and a waiting one passes at its wake. -/
theorem barriers : Obligations.Barriers := by
  constructor
  case left =>
    intro s a b scope p g k x0 y0 wl hl c grp n old mine own e arrived rx ry hat hg hscope hpos hlt hfields hx0 hy0 hwl hhl
      hcol hrow hright hlow hleft hx htop hy hholds harr hk hown hn
    have hnames : NamesSubgroup g c grp x0 y0 wl hl :=
      ⟨hfields, ⟨hx0, hy0, hwl, hhl⟩, ⟨hcol, hrow, hright, hlow⟩, ⟨hleft, hx⟩, htop, hy⟩
    have hentry : g.barrierEntry grp = some k := by
      rcases hown with ⟨hmine, hfirst⟩ | ⟨hnone, hfree, hfirst⟩
      · exact barrierEntry_own hk hmine hfirst
      · exact barrierEntry_free hk hnone hfree hfirst
    have he : g.entryFor k grp n = e := rfl
    constructor
    case left =>
      intro hlast
      have hexec := exec_bar_last hat hg hscope hpos hlt hnames.subgroupOk harr hentry he hn hlast
      refine ⟨_, hexec, barDone_eq barArrived_seqAt, ?arr, ?entry, ?next, ?regs, ?cells⟩
      case arr => rw [seq_barDone_barArrived]; rfl
      case entry => exact ⟨_, (barDone_graph ..).trans (barArrived_graph hg), SMap.get_set_eq ..⟩
      case next => rw [GoesOn, seq_barDone_barArrived]; rfl
      case regs => rw [seq_barDone_barArrived]; rfl
      case cells => exact fun x hx => (barDone_cell_ne hx).trans (barArrived_cell_ne hx)
    case right =>
      intro hmore
      have hexec := exec_bar_waits hat hg hscope hpos hlt hnames.subgroupOk harr hentry he hn hmore
      refine ⟨_, hexec, rfl, ?_⟩
      rw [State.seq_setSeq]
      exact ⟨rfl, rfl, rfl, _, barArrived_graph (gen := e.gen) hg, SMap.get_set_eq ..⟩
  case right =>
    intro s c p g scope q hwait hat hlive hdbg hgen
    refine ⟨_, exec_barWake hwait hat hlive hdbg hgen, rfl, ?_⟩
    rw [barDone_seqAt, (movesLines_acquire s c scope).seqAt_eq]
    exact ⟨rfl, rfl⟩

end Sys2Proof.Machine
end
